-- ==== Sys2Proof/Word.lean ====
section
/-! DEFINITION. The word types of the TH-4032 (R8, R9): a byte, a word, and the bit vectors cut from them. -/
namespace Sys2Proof

/-- A byte is 8 bits (R8). -/
abbrev Byte := BitVec 8
/-- A word is 32 bits (R8). -/
abbrev Word := BitVec 32
/-- A doubleword is 64 bits (R8): the cadence count and the compare values. -/
abbrev DWord := BitVec 64

end Sys2Proof
end

