-- ==== Sys2Proof/Syntax.lean ====
section
/-! DEFINITION. The commands of the device, one constructor per row of spec/opcode_table.json, with the
data each command carries. A register command carries the initiator that sends it; an event carries what the
outside world decides; a Genha instruction carries its core, its guard field and the fields of its format (R468). -/
namespace Sys2Proof

/-- The initiators of fabric transactions, with the indices of R133: cores 0-3, loop engine 4, link controller 5,
DMA engine 6 (its channels are told apart by R650), OD engine 7, debug master 8. -/
inductive Who where
  | core (c : Fin 4)
  | loop
  | link
  | dma (k : Fin 16)
  | od
  | debug
deriving DecidableEq, Repr

/-- The addressing modes of loads and stores (R477 to R482): base and signed 12-bit offset, post-increment,
pre-decrement or pre-increment by the access size, base and scaled index. -/
inductive AddrMode where
  | offset (a : Fin 32) (imm : BitVec 12)
  | post (a : Fin 32)
  | pre (a : Fin 32)
  | index (a b : Fin 32) (sh : BitVec 2)
deriving DecidableEq, Repr

/-- What ends OFF mode (R145): a wake event of the RTC or of the general-purpose inputs, a claimed wake pin,
or link activity. -/
inductive OffWake where
  | rtc
  | pin (p : Fin 8)
  | link
deriving DecidableEq, Repr

/-- An object with an owner register: an event route, a queue, a lock, a DMA channel, an interrupt source (R541). -/
inductive OwnObj where
  | route (r : Fin 64)
  | queue (q : Fin 32)
  | lock (n : Fin 32)
  | dma (k : Fin 16)
  | irq (i : Fin 193)
deriving DecidableEq, Repr

/-- The two ports of the link, LA and LB. -/
inductive Port where
  | la
  | lb
deriving DecidableEq, Repr

/-- What a converter holds at one sample point, in one unit of voltage (R895): the levels of SNSn and of its AUX input,
VREFP, and the deviation of the real converter in codes (R869). -/
structure Acq where
  sns : Nat
  aux : Nat
  vref : Nat
  dev : Int
deriving DecidableEq, Repr

/-- What a command of a comparator brings: whether the comparator is CMPH, the level of SNSn, and VREFP in the same unit
(R223). -/
structure CmpIn where
  high : Bool
  v : Nat
  vref : Nat
deriving DecidableEq, Repr

/-- The content of a yard frame that arrives at a port (R735). -/
structure YardFrame where
  flags : Byte
  hop : Byte
  ylen : BitVec 16
  seq : BitVec 16
  ty : DWord
  accdly : Word
  rsv : Word
  hchk : BitVec 16
  stall : List Byte
  crc : Word
deriving DecidableEq, Repr

/-- The content of an errand frame that arrives at a port (R756). -/
structure ErrFrame where
  addr : Byte
  op : Byte
  tag : Byte
  stat : Byte
  index : BitVec 16
  sub : Byte
  code : Byte
  len : Byte
  rlen : Byte
  data : List Byte
  crc : Word
deriving DecidableEq, Repr

/-- The three content bytes of one set of a reset command (R753). -/
structure RcSet where
  a : Byte
  b : Byte
  m : Byte
deriving DecidableEq, Repr

/-- The commands of the device. Each docstring gives the row's mnemonic and its rule. The commands without data stand
last: Lean's runtime builds no constructor with data beyond the 244th. -/
inductive Instr where
  /-- REGISTER_WRITE (R18). -/
  | registerWrite (who : Who) (addr : Word) (v : Word)
  /-- FABRIC_TAG_FREE (R131). -/
  | fabricTagFree (i : Fin 9)
  /-- RESTORE (R68). -/
  | restore (who : Who)
  /-- TBASE_NOW_LO_READ (R72). -/
  | tbaseNowLoRead (who : Who)
  /-- TBASE_CMP_LO_WRITE (R75). -/
  | tbaseCmpLoWrite (who : Who) (k : Fin 6) (v : Word)
  /-- TBASE_CMP_HI_WRITE (R75). -/
  | tbaseCmpHiWrite (who : Who) (k : Fin 6) (v : Word)
  /-- TBASE_CMP_LO_READ (R75). -/
  | tbaseCmpLoRead (who : Who) (k : Fin 6)
  /-- TBASE_CMPCTL_WRITE (R78). -/
  | tbaseCmpctlWrite (who : Who) (k : Fin 6) (v : Word)
  /-- COMPARE_MATCH (R76). -/
  | compareMatch (k : Fin 6)
  /-- RTC_SECOND (R89). -/
  | rtcSecond (vbat : Nat)
  /-- RTC_COMMAND_APPLY (R91). -/
  | rtcCommandApply
  /-- RTC_MODE_CHANGE (R86). -/
  | rtcModeChange (who : Who) (tickMode : Bool)
  /-- SNAP (R90). -/
  | snap (who : Who)
  /-- SET_CAL (R94). -/
  | setCal (who : Who)
  /-- ADD_HOUR (R95). -/
  | addHour (who : Who)
  /-- SUB_HOUR (R95). -/
  | subHour (who : Who)
  /-- BACKUP_SUPPLY_SWITCH (R83). -/
  | backupSupplySwitch (toBat : Bool)
  /-- KESTREL_WINDOW_END (R116). -/
  | kestrelWindowEnd (count : BitVec 16) (refc : BitVec 16) (temp : BitVec 8)
  /-- PACE_TGT_WRITE (R124). -/
  | paceTgtWrite (who : Who) (v : Word)
  /-- REQ_RUN (R139). -/
  | reqRun (who : Who)
  /-- REQ_PARK (R139). -/
  | reqPark (who : Who)
  /-- REQ_SLEEP (R140). -/
  | reqSleep (who : Who)
  /-- REQ_OFF (R140). -/
  | reqOff (who : Who)
  /-- SLEEP_REQUEST (R140). -/
  | sleepRequest (c : Fin 4) (fired : Word)
  /-- WAKE_FROM_SLEEP (R144). -/
  | wakeFromSleep (src : Fin 32)
  /-- WAKE_FROM_OFF (R145). -/
  | wakeFromOff (cause : OffWake)
  /-- SOFTWARE_RESET (R168). -/
  | softwareReset (who : Who) (v : Word)
  /-- CORE_RESET (R177). -/
  | coreReset (who : Who) (mask : BitVec 4)
  /-- CORE_RESET_DONE (R178). -/
  | coreResetDone (c : Fin 4)
  /-- CORE_HOLD (R178). -/
  | coreHold (who : Who) (hold : BitVec 4)
  /-- UNIT_RESET (R180). -/
  | unitReset (who : Who) (v : Word)
  /-- UNIT_RESET_DONE (R181). -/
  | unitResetDone (u : Fin 11)
  /-- OWL_ENABLE (R182). -/
  | owlEnable (who : Who) (v : Word)
  /-- OWL_KICK_OPEN (R183). -/
  | owlKickOpen (who : Who)
  /-- OWL_KICK_COMPLETE (R183). -/
  | owlKickComplete (who : Who)
  /-- OWL_KICK_WRONG (R184). -/
  | owlKickWrong (who : Who) (v : Word)
  /-- PIN_CLAIM (R191). -/
  | pinClaim (who : Who) (p : Fin 96) (v : Word)
  /-- GP_INPUT_CHANGE (R386). -/
  | gpInputChange (p : Fin 24) (level : Bool)
  /-- SAMPLE_POINT (R290). -/
  | samplePoint (n : Fin 32)
  /-- SNS_SWTRIG (R210). -/
  | snsSwtrig (who : Who) (v : Word)
  /-- END_OF_CONVERSION (R213). -/
  | endOfConversion (n : Fin 32) (acqs : List Acq)
  /-- AUX_CONVERSION_END (R214). -/
  | auxConversionEnd (n : Fin 32) (acq : Acq)
  /-- COMPARATOR_ASSERT (R225). -/
  | comparatorAssert (n : Fin 32) (inp : CmpIn)
  /-- COMPARATOR_DEASSERT (R223). -/
  | comparatorDeassert (n : Fin 32) (inp : CmpIn)
  /-- COMPARATOR_SETTLE_END (R227). -/
  | comparatorSettleEnd (n : Fin 32) (v : Nat) (vref : Nat)
  /-- CAL_REQUEST (R229). -/
  | calRequest (who : Who) (v : Word)
  /-- CAL_STEP_START (R230). -/
  | calStepStart (n : Fin 32)
  /-- CAL_STEP_END (R234). -/
  | calStepEnd (n : Fin 32) (dev : Int)
  /-- CAL_WAIT_EXPIRY (R232). -/
  | calWaitExpiry (n : Fin 32)
  /-- TRACKER_COUNT (R237). -/
  | trackerCount (n : Fin 16) (lvlA : Bool) (lvlB : Bool) (lvlZ : Bool)
  /-- TRACKER_INDEX (R244). -/
  | trackerIndex (n : Fin 16) (lvlA : Bool) (lvlB : Bool) (lvlZ : Bool)
  /-- TRK_POS_WRITE (R242). -/
  | trkPosWrite (who : Who) (n : Fin 16) (v : Word)
  /-- TRK_EDGETS_LO_READ (R241). -/
  | trkEdgetsLoRead (who : Who) (n : Fin 16)
  /-- CHANNEL_ENABLE (R261). -/
  | channelEnable (who : Who) (v : Word)
  /-- ENABLE_DELAY_EXPIRY (R262). -/
  | enableDelayExpiry (n : Fin 32)
  /-- CHANNEL_DISABLE (R263). -/
  | channelDisable (who : Who) (v : Word)
  /-- PERIOD_BOUNDARY (R266). -/
  | periodBoundary (n : Fin 32)
  /-- PWM_EDGE (R274). -/
  | pwmEdge (n : Fin 32) (pos : Nat)
  /-- LOAD_ALL (R267). -/
  | loadAll (who : Who) (v : Word)
  /-- SOFT_TRIP (R280). -/
  | softTrip (who : Who) (v : Word)
  /-- TRIP_CLEAR (R285). -/
  | tripClear (who : Who) (n : Fin 32) (v : Word)
  /-- DUTY_WRITE (R44). -/
  | dutyWrite (who : Who) (n : Fin 32) (v : Word)
  /-- SLOT_ENABLE (R304). -/
  | slotEnable (who : Who) (n : Fin 32)
  /-- SLOT_DISABLE (R306). -/
  | slotDisable (who : Who) (n : Fin 32)
  /-- SLOT_OVERRIDE (R322). -/
  | slotOverride (who : Who) (n : Fin 32) (on : Bool)
  /-- CLEAR_FAULT (R337). -/
  | clearFault (who : Who) (n : Fin 32)
  /-- CLEAR_STATE (R338). -/
  | clearState (who : Who) (n : Fin 32)
  /-- LE_TRIG (R314). -/
  | leTrig (who : Who) (v : Word)
  /-- SLOT_COMPLETION (R323). -/
  | slotCompletion (n : Fin 32)
  /-- MIRROR_WRITE (R324). -/
  | mirrorWrite (n : Fin 32)
  /-- LE_BIST_START (R345). -/
  | leBistStart (who : Who)
  /-- LE_BIST_DONE (R345). -/
  | leBistDone (lanes : BitVec 4)
  /-- ROUTE_DELIVERY (R393). -/
  | routeDelivery (r : Fin 64)
  /-- SW_EVENT_SET (R387). -/
  | swEventSet (who : Who) (v : Word)
  /-- SW_EVENT_CLEAR (R387). -/
  | swEventClear (who : Who) (v : Word)
  /-- SW_EVENT_PULSE (R387). -/
  | swEventPulse (who : Who) (v : Word)
  /-- ROUTE_LOCK (R399). -/
  | routeLock (who : Who) (hi : Bool) (v : Word)
  /-- ROUTE_CONFIG_WRITE (R396). -/
  | routeConfigWrite (who : Who) (r : Fin 64) (mask : Bool) (v : Word)
  /-- OWNER_WRITE (R538). -/
  | ownerWrite (who : Who) (obj : OwnObj) (v : Word)
  /-- ADD (R473). -/
  | add (c : Fin 4) (g : BitVec 4) (d : Fin 32) (a : Fin 32) (b : Fin 32)
  /-- SUB (R473). -/
  | sub (c : Fin 4) (g : BitVec 4) (d : Fin 32) (a : Fin 32) (b : Fin 32)
  /-- AND (R473). -/
  | and (c : Fin 4) (g : BitVec 4) (d : Fin 32) (a : Fin 32) (b : Fin 32)
  /-- OR (R473). -/
  | or (c : Fin 4) (g : BitVec 4) (d : Fin 32) (a : Fin 32) (b : Fin 32)
  /-- XOR (R473). -/
  | xor (c : Fin 4) (g : BitVec 4) (d : Fin 32) (a : Fin 32) (b : Fin 32)
  /-- SHL (R473). -/
  | shl (c : Fin 4) (g : BitVec 4) (d : Fin 32) (a : Fin 32) (b : Fin 32)
  /-- SHR (R473). -/
  | shr (c : Fin 4) (g : BitVec 4) (d : Fin 32) (a : Fin 32) (b : Fin 32)
  /-- SAR (R473). -/
  | sar (c : Fin 4) (g : BitVec 4) (d : Fin 32) (a : Fin 32) (b : Fin 32)
  /-- CEQ (R473). -/
  | ceq (c : Fin 4) (g : BitVec 4) (d : Fin 32) (a : Fin 32) (b : Fin 32)
  /-- CNE (R473). -/
  | cne (c : Fin 4) (g : BitVec 4) (d : Fin 32) (a : Fin 32) (b : Fin 32)
  /-- CLT (R473). -/
  | clt (c : Fin 4) (g : BitVec 4) (d : Fin 32) (a : Fin 32) (b : Fin 32)
  /-- CLTU (R473). -/
  | cltu (c : Fin 4) (g : BitVec 4) (d : Fin 32) (a : Fin 32) (b : Fin 32)
  /-- CLE (R473). -/
  | cle (c : Fin 4) (g : BitVec 4) (d : Fin 32) (a : Fin 32) (b : Fin 32)
  /-- CLEU (R473). -/
  | cleu (c : Fin 4) (g : BitVec 4) (d : Fin 32) (a : Fin 32) (b : Fin 32)
  /-- MUL (R474). -/
  | mul (c : Fin 4) (g : BitVec 4) (d : Fin 32) (a : Fin 32) (b : Fin 32)
  /-- MULU (R474). -/
  | mulu (c : Fin 4) (g : BitVec 4) (d : Fin 32) (a : Fin 32) (b : Fin 32)
  /-- ADDI (R473). -/
  | addi (c : Fin 4) (g : BitVec 4) (d : Fin 32) (a : Fin 32) (imm : BitVec 12)
  /-- ANDI (R473). -/
  | andi (c : Fin 4) (g : BitVec 4) (d : Fin 32) (a : Fin 32) (imm : BitVec 12)
  /-- ORI (R473). -/
  | ori (c : Fin 4) (g : BitVec 4) (d : Fin 32) (a : Fin 32) (imm : BitVec 12)
  /-- XORI (R473). -/
  | xori (c : Fin 4) (g : BitVec 4) (d : Fin 32) (a : Fin 32) (imm : BitVec 12)
  /-- SHLI (R473). -/
  | shli (c : Fin 4) (g : BitVec 4) (d : Fin 32) (a : Fin 32) (sh : BitVec 5)
  /-- SHRI (R473). -/
  | shri (c : Fin 4) (g : BitVec 4) (d : Fin 32) (a : Fin 32) (sh : BitVec 5)
  /-- SARI (R473). -/
  | sari (c : Fin 4) (g : BitVec 4) (d : Fin 32) (a : Fin 32) (sh : BitVec 5)
  /-- CEQI (R473). -/
  | ceqi (c : Fin 4) (g : BitVec 4) (d : Fin 32) (a : Fin 32) (imm : BitVec 12)
  /-- CNEI (R473). -/
  | cnei (c : Fin 4) (g : BitVec 4) (d : Fin 32) (a : Fin 32) (imm : BitVec 12)
  /-- CLTI (R473). -/
  | clti (c : Fin 4) (g : BitVec 4) (d : Fin 32) (a : Fin 32) (imm : BitVec 12)
  /-- CLTUI (R473). -/
  | cltui (c : Fin 4) (g : BitVec 4) (d : Fin 32) (a : Fin 32) (imm : BitVec 12)
  /-- CLEI (R473). -/
  | clei (c : Fin 4) (g : BitVec 4) (d : Fin 32) (a : Fin 32) (imm : BitVec 12)
  /-- CLEUI (R473). -/
  | cleui (c : Fin 4) (g : BitVec 4) (d : Fin 32) (a : Fin 32) (imm : BitVec 12)
  /-- RDACC (R474). -/
  | rdacc (c : Fin 4) (g : BitVec 4) (d : Fin 32) (sh : BitVec 5)
  /-- LUI (R473). -/
  | lui (c : Fin 4) (g : BitVec 4) (d : Fin 32) (imm : BitVec 16)
  /-- ORL (R473). -/
  | orl (c : Fin 4) (g : BitVec 4) (d : Fin 32) (imm : BitVec 16)
  /-- MAC (R474). -/
  | mac (c : Fin 4) (g : BitVec 4) (a : Fin 32) (b : Fin 32)
  /-- MACH (R476). -/
  | mach (c : Fin 4) (g : BitVec 4) (a : Fin 32) (b : Fin 32)
  /-- LDB (R434). -/
  | ldb (c : Fin 4) (g : BitVec 4) (d : Fin 32) (am : AddrMode)
  /-- LDBU (R434). -/
  | ldbu (c : Fin 4) (g : BitVec 4) (d : Fin 32) (am : AddrMode)
  /-- LDH (R434). -/
  | ldh (c : Fin 4) (g : BitVec 4) (d : Fin 32) (am : AddrMode)
  /-- LDHU (R434). -/
  | ldhu (c : Fin 4) (g : BitVec 4) (d : Fin 32) (am : AddrMode)
  /-- LDW (R434). -/
  | ldw (c : Fin 4) (g : BitVec 4) (d : Fin 32) (am : AddrMode)
  /-- STB (R434). -/
  | stb (c : Fin 4) (g : BitVec 4) (d : Fin 32) (am : AddrMode)
  /-- STH (R434). -/
  | sth (c : Fin 4) (g : BitVec 4) (d : Fin 32) (am : AddrMode)
  /-- STW (R434). -/
  | stw (c : Fin 4) (g : BitVec 4) (d : Fin 32) (am : AddrMode)
  /-- EVICTION_ACK (R592). -/
  | evictionAck (c : Fin 4)
  /-- BRA (R478). -/
  | bra (c : Fin 4) (g : BitVec 4) (off : BitVec 22)
  /-- BSR (R478). -/
  | bsr (c : Fin 4) (g : BitVec 4) (off : BitVec 22)
  /-- BZ (R478). -/
  | bz (c : Fin 4) (g : BitVec 4) (t : Fin 32) (off : BitVec 17)
  /-- BNZ (R478). -/
  | bnz (c : Fin 4) (g : BitVec 4) (t : Fin 32) (off : BitVec 17)
  /-- JMP (R478). -/
  | jmp (c : Fin 4) (g : BitVec 4) (a : Fin 32)
  /-- JSR (R478). -/
  | jsr (c : Fin 4) (g : BitVec 4) (a : Fin 32)
  /-- MFS (R419). -/
  | mfs (c : Fin 4) (g : BitVec 4) (d : Fin 32) (num : BitVec 10)
  /-- MTS (R419). -/
  | mts (c : Fin 4) (g : BitVec 4) (num : BitVec 10) (r : Fin 32)
  /-- VBASE_WRITE (R425). -/
  | vbaseWrite (c : Fin 4) (g : BitVec 4) (r : Fin 32)
  /-- ICOUNT_LO_READ (R426). -/
  | icountLoRead (c : Fin 4) (g : BitVec 4) (d : Fin 32)
  /-- CACHE_INVALIDATE_ILINE (R448). -/
  | cacheInvalidateIline (c : Fin 4) (g : BitVec 4) (r : Fin 32)
  /-- CACHE_INVALIDATE_I (R448). -/
  | cacheInvalidateI (c : Fin 4) (g : BitVec 4) (r : Fin 32)
  /-- CACHE_CLEAN_DLINE (R448). -/
  | cacheCleanDline (c : Fin 4) (g : BitVec 4) (r : Fin 32)
  /-- CACHE_CLEAN_INVALIDATE_DLINE (R448). -/
  | cacheCleanInvalidateDline (c : Fin 4) (g : BitVec 4) (r : Fin 32)
  /-- CACHE_CLEAN_D (R448). -/
  | cacheCleanD (c : Fin 4) (g : BitVec 4) (r : Fin 32)
  /-- CACHE_CLEAN_INVALIDATE_D (R448). -/
  | cacheCleanInvalidateD (c : Fin 4) (g : BitVec 4) (r : Fin 32)
  /-- SYS (R480). -/
  | sys (c : Fin 4) (g : BitVec 4) (code : BitVec 16)
  /-- RFE (R519). -/
  | rfe (c : Fin 4) (g : BitVec 4)
  /-- SLEEP (R481). -/
  | sleep (c : Fin 4) (g : BitVec 4)
  /-- FENCE (R454). -/
  | fence (c : Fin 4) (g : BitVec 4)
  /-- REP (R485). -/
  | rep (c : Fin 4) (g : BitVec 4) (rg : Bool) (cr : Fin 32) (cnt : BitVec 8)
  /-- REP_I (R493). -/
  | repI (c : Fin 4) (g : BitVec 4) (rg : Bool) (cr : Fin 32) (cnt : BitVec 8)
  /-- INTERRUPT_ENTRY (R565). -/
  | interruptEntry (c : Fin 4)
  /-- INTERRUPT_CLAIM (R568). -/
  | interruptClaim (who : Who) (c : Fin 4)
  /-- INTERRUPT_COMPLETE (R570). -/
  | interruptComplete (who : Who) (c : Fin 4) (v : Word)
  /-- INTERRUPT_PSET (R558). -/
  | interruptPset (who : Who) (src : Fin 193)
  /-- INTERRUPT_PCLR (R558). -/
  | interruptPclr (who : Who) (src : Fin 193)
  /-- DOORBELL (R575). -/
  | doorbell (who : Who) (k : Fin 4) (v : Word)
  /-- THR_WRITE (R561). -/
  | thrWrite (who : Who) (c : Fin 4) (v : Word)
  /-- QUE_PUSH (R601). -/
  | quePush (who : Who) (q : Fin 32) (v : Word)
  /-- QUE_POP (R601). -/
  | quePop (who : Who) (q : Fin 32)
  /-- QUE_PEEK (R601). -/
  | quePeek (who : Who) (q : Fin 32)
  /-- QUEUE_CONFIG (R597). -/
  | queueConfig (who : Who) (q : Fin 32) (v : Word)
  /-- LOCK_TAKE (R612). -/
  | lockTake (who : Who) (n : Fin 32)
  /-- LOCK_GIVE (R613). -/
  | lockGive (who : Who) (n : Fin 32) (v : Word)
  /-- SHED_ALLOC (R620). -/
  | shedAlloc (who : Who)
  /-- SHED_FREE (R621). -/
  | shedFree (who : Who) (v : Word)
  /-- SHED_PASS (R622). -/
  | shedPass (who : Who) (v : Word)
  /-- SHED_FFREE (R623). -/
  | shedFfree (who : Who) (v : Word)
  /-- SHED_LOWMARK_WRITE (R631). -/
  | shedLowmarkWrite (who : Who) (v : Word)
  /-- DMA_START (R641). -/
  | dmaStart (who : Who) (k : Fin 16)
  /-- DMA_STOP (R655). -/
  | dmaStop (who : Who) (k : Fin 16)
  /-- MERGE_IDLE_FLUSH (R678). -/
  | mergeIdleFlush (e : Fin 4)
  /-- MERGE_FLUSH (R678). -/
  | mergeFlush (who : Who)
  /-- MERGE_DISABLE (R681). -/
  | mergeDisable (who : Who)
  /-- FLASH_KEY (R690). -/
  | flashKey (who : Who) (v : Word)
  /-- PROG (R691). -/
  | prog (who : Who)
  /-- PERASE (R691). -/
  | perase (who : Who)
  /-- BERASE (R691). -/
  | berase (who : Who)
  /-- MEM_IDLE_WRITE (R702). -/
  | memIdleWrite (who : Who) (v : Word)
  /-- MEM_BIST_START (R703). -/
  | memBistStart (who : Who) (v : Word)
  /-- MEM_BIST_DONE (R703). -/
  | memBistDone (failAt : Option Word)
  /-- FUSE_PROGRAM (R707). -/
  | fuseProgram (who : Who) (v : Word)
  /-- FUSE_PROGRAM_DONE (R708). -/
  | fuseProgramDone (verified : Bool)
  /-- PORT_UP (R727). -/
  | portUp (p : Port)
  /-- PORT_DOWN (R728). -/
  | portDown (p : Port)
  /-- YARD (R738). -/
  | yard (p : Port) (vern : Fin 32) (f : YardFrame)
  /-- YARD_EVENT (R749). -/
  | yardEvent (k : Fin 4)
  /-- HEAD_YARD_RETURN (R751). -/
  | headYardReturn (p : Port) (vern : Fin 32) (f : YardFrame)
  /-- FRAME_ABORT (R750). -/
  | frameAbort (p : Port)
  /-- DELAY_PROBE (R745). -/
  | delayProbe (p : Port)
  /-- DELAY_REPLY (R745). -/
  | delayReply (p : Port) (trip : Nat) (t : BitVec 24)
  /-- RING_PROBE (R752). -/
  | ringProbe (p : Port)
  /-- RESET_COMMAND (R753). -/
  | resetCommand (p : Port) (s1 : RcSet) (s2 : RcSet) (gap : Nat)
  /-- LINK_HRST (R767). -/
  | linkHrst (who : Who) (v : Word)
  /-- HYCFG_WRITE (R765). -/
  | hycfgWrite (who : Who) (k : Fin 4) (v : Word)
  /-- ERRAND_RETURN (R763). -/
  | errandReturn (p : Port) (f : ErrFrame)
  /-- ERRAND_REQ (R761). -/
  | errandReq (p : Port) (f : ErrFrame)
  /-- ERRAND_COLLECT (R759). -/
  | errandCollect (p : Port) (f : ErrFrame)
  /-- ERRAND_DROP (R762). -/
  | errandDrop (p : Port) (f : ErrFrame)
  /-- ERRAND_HOLD_EXPIRY (R762). -/
  | errandHoldExpiry (tag : Byte)
  /-- LINK_RTIME_LO_READ (R747). -/
  | linkRtimeLoRead (who : Who)
  /-- OD_ANSWER (R788). -/
  | odAnswer (who : Who) (v : Word)
  /-- FORWARD_TIMEOUT (R789). -/
  | forwardTimeout (h : BitVec 16)
  /-- SWAP_ARM (R800). -/
  | swapArm (who : Who)
  /-- SWAP_CANCEL (R800). -/
  | swapCancel (who : Who)
  /-- SWAP_DISCARD (R798). -/
  | swapDiscard (who : Who)
  /-- CORE_HANDOVER (R810). -/
  | coreHandover (c : Fin 4)
  /-- SAMPLE_PRELOAD (R822). -/
  | samplePreload (cells : List (Nat × BitVec 3))
  /-- DEBUG_ACCESS (R827). -/
  | debugAccess (wr : Bool) (addr : BitVec 14) (v : Word)
  /-- AUTH_CHECK (R834). -/
  | authCheck (level : BitVec 2)
  /-- HALT (R838). -/
  | halt (c : Fin 4)
  /-- RESUME (R840). -/
  | resume (c : Fin 4)
  /-- STEP (R840). -/
  | step (c : Fin 4)
  /-- DEBUG_CORE_RESET (R845). -/
  | debugCoreReset (c : Fin 4)
  /-- DEBUG_SYSTEM_RESET (R845). -/
  | debugSystemReset (v : Word)
  /-- BREAKPOINT_HIT (R842). -/
  | breakpointHit (c : Fin 4)
  /-- CORE_REG_ACCESS (R841). -/
  | coreRegAccess (c : Fin 4) (wr : Bool) (v : Word)
  /-- DEBUG_MEM_READ (R846). -/
  | debugMemRead (size : BitVec 2) (inc : Bool)
  /-- DEBUG_MEM_WRITE (R846). -/
  | debugMemWrite (size : BitVec 2) (inc : Bool)
  /-- ILLEGAL_INSTRUCTION (R469). -/
  | illegalInstruction (c : Fin 4) (word : Word)
  /-- INSTRUCTION_BUS_ERROR (R436). -/
  | instructionBusError (c : Fin 4) (uncorrectable : Bool)
  /-- DELAY_PROBE_ANSWER (R745). -/
  | delayProbeAnswer (p : Port) (t : BitVec 24)
  /-- CODE_GROUP_ALIGNMENT (R727). -/
  | codeGroupAlignment (p : Port) (gained : Bool)
  /-- SYMBOL_ERROR (R728). -/
  | symbolError (p : Port)
  /-- CRYSTAL_FAILURE (R65). -/
  | crystalFailure
  /-- PLL_RELOCK (R66). -/
  | pllRelock
  /-- CRYSTAL_QUALIFIED (R69). -/
  | crystalQualified
  /-- RTC_TICK_ALARM (R100). -/
  | rtcTickAlarm
  /-- OPERATING_HOUR (R146). -/
  | operatingHour
  /-- AGING_RECORD (R147). -/
  | agingRecord
  /-- LEDGER_WRITE (R148). -/
  | ledgerWrite
  /-- POWER_UP (R161). -/
  | powerUp
  /-- BROWN_OUT (R134). -/
  | brownOut
  /-- VCORE_LOW (R134). -/
  | vcoreLow
  /-- VCORE_HIGH (R134). -/
  | vcoreHigh
  /-- VDDA_LOW (R134). -/
  | vddaLow
  /-- VDDA_RECOVER (R134). -/
  | vddaRecover
  /-- VDDA_FORCE_TRIP (R872). -/
  | vddaForceTrip
  /-- VDDA_FORCE_END (R872). -/
  | vddaForceEnd
  /-- PARK_EXIT (R139). -/
  | parkExit
  /-- FUSE_LOAD (R705). -/
  | fuseLoad
  /-- COLD_RESET_RELEASE (R170). -/
  | coldResetRelease
  /-- RST_PIN_LOW (R166). -/
  | rstPinLow
  /-- RST_PIN_HIGH (R173). -/
  | rstPinHigh
  /-- WARM_RESET_END (R172). -/
  | warmResetEnd
  /-- RSTOUT_RELEASE (R167). -/
  | rstoutRelease
  /-- OWL_TIMEOUT (R184). -/
  | owlTimeout
  /-- OWL_EARLY_WARNING (R186). -/
  | owlEarlyWarning
  /-- SAFE_ASSERT (R891). -/
  | safeAssert
  /-- SAFE_RELEASE (R194). -/
  | safeRelease
  /-- LANE_START (R318). -/
  | laneStart
  /-- DMA_RUN_START (R645). -/
  | dmaRunStart
  /-- DMA_ELEMENT (R648). -/
  | dmaElement
  /-- SCRUB_SRAM_READ (R685). -/
  | scrubSramRead
  /-- SCRUB_FLASH_READ (R687). -/
  | scrubFlashRead
  /-- FLASH_DONE (R693). -/
  | flashDone
  /-- RING_CLOSURE (R752). -/
  | ringClosure
  /-- SYNC_LOSS (R748). -/
  | syncLoss
  /-- YARD_DUE (R764). -/
  | yardDue
  /-- ERRAND_SEND (R763). -/
  | errandSend
  /-- ERRAND_RETURN_TIMEOUT (R763). -/
  | errandReturnTimeout
  /-- ERRAND_SERVE (R783). -/
  | errandServe
  /-- SET_CHECK_DONE (R801). -/
  | setCheckDone
  /-- SET_SWAP (R796). -/
  | setSwap
  /-- EXTEST (R822). -/
  | extest
  /-- IDCODE (R823). -/
  | idcode
  /-- CLAMP (R822). -/
  | clamp
  /-- HIGHZ (R822). -/
  | highz
  /-- DBGACC (R822). -/
  | dbgacc
  /-- BYPASS (R822). -/
  | bypass
  /-- TAP_RESET (R822). -/
  | tapReset
  /-- AUTH_NEWCHAL (R835). -/
  | authNewchal
  /-- AUTH_DROP (R833). -/
  | authDrop
  /-- AUTH_CHECK_DONE (R836). -/
  | authCheckDone
  /-- DEBUG_MEM_COMPLETE (R848). -/
  | debugMemComplete
  /-- FREEZE (R849). -/
  | freeze
  /-- UNFREEZE (R851). -/
  | unfreeze
  /-- BROWN_OUT_RELEASE (R134). -/
  | brownOutRelease
  /-- BACKUP_DOMAIN_LOSS (R105). -/
  | backupDomainLoss
  /-- AUTH_DELAY_EXPIRY (R837). -/
  | authDelayExpiry
  /-- RESET_COMMAND_HOLD_END (R754). -/
  | resetCommandHoldEnd
deriving DecidableEq, Repr

end Sys2Proof
end

