-- ==== Sys2Proof/Decode.lean ====
section
/-! DEFINITION. Decoding of table words. No row of spec/opcode_table.json gives bits: a command is no word, and its data
come with it (the words of Genha instructions are fetched by a core and are data of memory, log 26). -/
namespace Sys2Proof

/-- The command that the table's bits spell: no row has bits, so no word spells one. -/
def decodeTableWord (_nbits _w : Nat) : Option Instr := none

end Sys2Proof
end

