-- ==== Sys2Proof/Machine/Tab.lean ====
section
/-! DEFINITION. Tables: finite maps from natural keys to values, kept as one canonical list. An entry is listed
only where it differs from what an unlisted key reads as, and keys rise strictly, so equal tables are equal data. -/
namespace Sys2Proof.Machine

/-- A table: a list of (key, value) pairs. -/
abbrev Tab (α : Type) := List (Nat × α)

/-- The value at key `k`; an unlisted key reads as `d k`. -/
def Tab.get {α : Type} (d : Nat → α) : Tab α → Nat → α
  | [], k => d k
  | (j, v) :: t, k => if j = k then v else Tab.get d t k

/-- The table without key `k`. -/
def Tab.del {α : Type} : Tab α → Nat → Tab α
  | [], _ => []
  | (j, v) :: t, k => if j = k then Tab.del t k else (j, v) :: Tab.del t k

/-- The table with key `k` (not listed before) put at its place. -/
def Tab.ins {α : Type} : Tab α → Nat → α → Tab α
  | [], k, v => [(k, v)]
  | (j, w) :: t, k, v => if k < j then (k, v) :: (j, w) :: t else (j, w) :: Tab.ins t k v

/-- Writing `v` at key `k`: writing the value an unlisted key reads as removes the entry. -/
def Tab.set {α : Type} [DecidableEq α] (d : Nat → α) (t : Tab α) (k : Nat) (v : α) : Tab α :=
  if v = d k then t.del k else (t.del k).ins k v

/-- Keep the entries whose key satisfies `p`. -/
def Tab.keep {α : Type} (p : Nat → Bool) : Tab α → Tab α
  | [] => []
  | (j, v) :: t => if p j then (j, v) :: Tab.keep p t else Tab.keep p t

/-- The canonical form: keys rise strictly from above `lo`, and no entry equals its default. -/
def Tab.okFrom {α : Type} [DecidableEq α] (d : Nat → α) : Tab α → Option Nat → Bool
  | [], _ => true
  | (j, v) :: t, lo =>
    (match lo with | none => true | some l => decide (l < j)) && decide (v ≠ d j) && Tab.okFrom d t (some j)

/-- The canonical form of a whole table. -/
def Tab.ok {α : Type} [DecidableEq α] (d : Nat → α) (t : Tab α) : Bool := t.okFrom d none

end Sys2Proof.Machine
end

