-- ==== Sys2Proof/Machine/Bits.lean ====
section
/-! DEFINITION. Bit fields, signed readings and the arithmetic helpers that every unit uses (R9, R10, R11, R356). -/
namespace Sys2Proof.Machine

/-- The field [hi:lo] of a number (R9). -/
def fld (w hi lo : Nat) : Nat := (w >>> lo) % 2 ^ (hi - lo + 1)

/-- The field [hi:lo] of a word (R9). -/
def wf (w : Word) (hi lo : Nat) : Nat := fld w.toNat hi lo

/-- Bit `i` of a word. -/
def wb (w : Word) (i : Nat) : Bool := w.getLsbD i

/-- A word from a number, modulo 2^32. -/
def wd (n : Nat) : Word := BitVec.ofNat 32 n

/-- The word with bit `i` alone set. -/
def bitW (i : Nat) : Word := wd (2 ^ i)

/-- A word with only bit `i`, set when `b` holds. -/
def boolW (b : Bool) (i : Nat) : Word := if b then bitW i else 0

/-- `w` with bit `i` set to `b`. -/
def setB (w : Word) (i : Nat) (b : Bool) : Word := if b then w ||| bitW i else w &&& ~~~ (bitW i)

/-- `w` with field [hi:lo] replaced by the low bits of `v`. -/
def putF (w : Word) (hi lo v : Nat) : Word :=
  (w &&& ~~~ (wd ((2 ^ (hi - lo + 1) - 1) <<< lo))) ||| wd ((v % 2 ^ (hi - lo + 1)) <<< lo)

/-- `old` with the bits of `mask` taken from `new`. -/
def maskW (mask old new : Word) : Word := (old &&& ~~~ mask) ||| (new &&& mask)

/-- The two's-complement reading of the low `bits` bits of `n` (R10, R11). -/
def sxI (bits n : Nat) : Int :=
  let m := n % 2 ^ bits
  if m < 2 ^ (bits - 1) then (m : Int) else (m : Int) - (2 ^ bits : Nat)

/-- The low `bits` bits of an integer, as a number. -/
def toBits (bits : Nat) (i : Int) : Nat := (i % (2 ^ bits : Nat)).toNat

/-- The word whose two's-complement reading is `i`, modulo 2^32. -/
def wI (i : Int) : Word := wd (toBits 32 i)

/-- A saturating increment below 2^bits (the counters of R20). -/
def satInc (bits n : Nat) : Nat := if n + 1 < 2 ^ bits then n + 1 else 2 ^ bits - 1

/-- The smaller and the larger of two integers (R356). -/
def clampI (a lo hi : Int) : Int := min (max a lo) hi

/-- Saturation to 16 bits (R356). -/
def sat16 (a : Int) : Int := clampI a (-32768) 32767

/-- Arithmetic shift right of an integer (floor division by a power of two). -/
def sarI (a : Int) (s : Nat) : Int := a / ((2 ^ s : Nat) : Int)

/-- Rounded shift, halves up (R356). -/
def rnd (a : Int) (s : Nat) : Int := if s = 0 then a else sarI (a + ((2 ^ (s - 1) : Nat) : Int)) s

/-- The positions of the bits set in a number, below `n`. -/
def bitsOf (w n : Nat) : List Nat := (List.range n).filter (fun i => w.testBit i)

/-- The number whose bit `i` is `f i`, for `i` below `n`. -/
def bitsFrom (n : Nat) (f : Nat → Bool) : Nat := (List.range n).foldl (fun a i => if f i then a + 2 ^ i else a) 0

/-- Apply `f` for each member of a list in order. -/
def forEach {α σ : Type} (l : List α) (f : α → σ → σ) (s : σ) : σ := l.foldl (fun s a => f a s) s

end Sys2Proof.Machine
end

