-- ==== Sys2Proof/Machine/Crc.lean ====
section
/-! DEFINITION. Checks and hashes: CRC-16/CCITT of the boot header and of ledger records (R149, R198), the CRC-32 of
IEEE 802.3 of the link's frames (R735), SHA-256 and HMAC-SHA-256 of the debug authoriser (R834, R835). -/
namespace Sys2Proof.Machine

/-- The bytes of a word, lowest first. -/
def wordBytes (w : Word) : List Byte := (List.range 4).map (fun i => BitVec.ofNat 8 (w.toNat >>> (8 * i)))

/-- The number of a list of bytes, lowest first. -/
def leNat : List Byte → Nat
  | [] => 0
  | b :: t => b.toNat + 256 * leNat t

/-- `n` bytes of a number, lowest first. -/
def toBytes (n v : Nat) : List Byte := (List.range n).map (fun i => BitVec.ofNat 8 (v >>> (8 * i)))

/-- One bit of the CRC-16 register, polynomial 0x1021, most significant bit first. -/
def crc16Bit (r : BitVec 16) : BitVec 16 := if r.getLsbD 15 then (r <<< 1) ^^^ 0x1021 else r <<< 1

/-- One byte of CRC-16/CCITT. -/
def crc16Byte (r : BitVec 16) (b : Byte) : BitVec 16 :=
  (List.range 8).foldl (fun r _ => crc16Bit r) (r ^^^ (b.setWidth 16 <<< 8))

/-- CRC-16/CCITT with initial value 0xFFFF (R149, R198). -/
def crc16 (l : List Byte) : BitVec 16 := l.foldl crc16Byte 0xFFFF

/-- One bit of the CRC-32 register, reflected polynomial 0xEDB88320. -/
def crc32Bit (r : Word) : Word := if r.getLsbD 0 then (r >>> 1) ^^^ 0xEDB88320 else r >>> 1

/-- One byte of the CRC-32. -/
def crc32Byte (r : Word) (b : Byte) : Word := (List.range 8).foldl (fun r _ => crc32Bit r) (r ^^^ b.setWidth 32)

/-- The IEEE 802.3 CRC (R735). -/
def crc32 (l : List Byte) : Word := ~~~ (l.foldl crc32Byte 0xFFFFFFFF)

/-! ### SHA-256 and HMAC -/

def shaK1 : List Word :=
  [0x428A2F98, 0x71374491, 0xB5C0FBCF, 0xE9B5DBA5, 0x3956C25B, 0x59F111F1, 0x923F82A4, 0xAB1C5ED5,
   0xD807AA98, 0x12835B01, 0x243185BE, 0x550C7DC3, 0x72BE5D74, 0x80DEB1FE, 0x9BDC06A7, 0xC19BF174,
   0xE49B69C1, 0xEFBE4786, 0x0FC19DC6, 0x240CA1CC, 0x2DE92C6F, 0x4A7484AA, 0x5CB0A9DC, 0x76F988DA,
   0x983E5152, 0xA831C66D, 0xB00327C8, 0xBF597FC7, 0xC6E00BF3, 0xD5A79147, 0x06CA6351, 0x14292967]
def shaK2 : List Word :=
  [0x27B70A85, 0x2E1B2138, 0x4D2C6DFC, 0x53380D13, 0x650A7354, 0x766A0ABB, 0x81C2C92E, 0x92722C85,
   0xA2BFE8A1, 0xA81A664B, 0xC24B8B70, 0xC76C51A3, 0xD192E819, 0xD6990624, 0xF40E3585, 0x106AA070,
   0x19A4C116, 0x1E376C08, 0x2748774C, 0x34B0BCB5, 0x391C0CB3, 0x4ED8AA4A, 0x5B9CCA4F, 0x682E6FF3,
   0x748F82EE, 0x78A5636F, 0x84C87814, 0x8CC70208, 0x90BEFFFA, 0xA4506CEB, 0xBEF9A3F7, 0xC67178F2]
/-- The 64 round constants. -/
def shaK : List Word := shaK1 ++ shaK2
/-- The initial hash value. -/
def shaH : List Word :=
  [0x6A09E667, 0xBB67AE85, 0x3C6EF372, 0xA54FF53A, 0x510E527F, 0x9B05688C, 0x1F83D9AB, 0x5BE0CD19]

/-- The word at place `i` of a list. -/
def nthW (l : List Word) (i : Nat) : Word := (l.drop i).headD 0

/-- Rotate right. -/
def ror (w : Word) (n : Nat) : Word := w.rotateRight n

/-- The message schedule of a block of 16 words, latest first. -/
def shaSchedule (m : List Word) : List Word :=
  (List.range 48).foldl (fun w _ =>
    let a := nthW w 14
    let b := nthW w 1
    let s0 := ror a 7 ^^^ ror a 18 ^^^ (a >>> 3)
    let s1 := ror b 17 ^^^ ror b 19 ^^^ (b >>> 10)
    (nthW w 15 + s0 + nthW w 6 + s1) :: w) m.reverse

/-- One round on the eight working words. -/
def shaRound (v : List Word) (k w : Word) : List Word :=
  match v with
  | [a, b, c, d, e, f, g, h] =>
    let t1 := h + (ror e 6 ^^^ ror e 11 ^^^ ror e 25) + ((e &&& f) ^^^ (~~~ e &&& g)) + k + w
    let t2 := (ror a 2 ^^^ ror a 13 ^^^ ror a 22) + ((a &&& b) ^^^ (a &&& c) ^^^ (b &&& c))
    [t1 + t2, a, b, c, d + t1, e, f, g]
  | _ => v

/-- The hash value after a block of 16 words. -/
def shaBlock (h m : List Word) : List Word :=
  let v := (shaK.zip (shaSchedule m).reverse).foldl (fun v p => shaRound v p.1 p.2) h
  (h.zip v).map (fun p => p.1 + p.2)

/-- The words of a message of whole words, most significant byte first. -/
def beWords : List Byte → List Word
  | a :: b :: c :: d :: t => (a ++ b ++ c ++ d) :: beWords t
  | _ => []

/-- The padded message as bytes: one bit, zeros to 56 modulo 64, the length in bits. -/
def shaPad (l : List Byte) : List Byte :=
  let n := l.length
  l ++ [0x80] ++ List.replicate ((119 - n % 64) % 64) 0 ++ (toBytes 8 (8 * n)).reverse

/-- SHA-256 of a message, as 32 bytes. -/
def sha256 (l : List Byte) : List Byte :=
  let w := beWords (shaPad l)
  let h := (List.range (w.length / 16)).foldl (fun h i => shaBlock h ((w.drop (16 * i)).take 16)) shaH
  h.flatMap (fun x => (wordBytes x).reverse)

/-- HMAC-SHA-256 with a key of at most 64 bytes. -/
def hmac (key msg : List Byte) : List Byte :=
  let k := key ++ List.replicate (64 - key.length) 0
  sha256 (k.map (fun b => b ^^^ 0x5C) ++ sha256 (k.map (fun b => b ^^^ 0x36) ++ msg))

end Sys2Proof.Machine
end

