-- ==== Sys2Proof/Machine/State.lean ====
section
/-! DEFINITION. The state of the TH-4032 as plain data: every register, counter, queue, mode and pin the spec gives
the device, each unit's in a structure of its own, and the queue of the commands that wait. Field defaults are the
reset values; log 5 and log 6 name those the spec does not state. -/
namespace Sys2Proof.Machine

/-- The response of an access (R16, R542, R543): completed, bus error, domain violation. -/
inductive Resp where
  | ok
  | busError
  | domain
  | ecc        -- the word read carries an uncorrectable error (R669)
deriving DecidableEq, Repr

/-- What an access answers: the data, a bus error or a domain violation with its SUB code, or that its target is busy. -/
inductive Acc where
  | ok (v : Word)
  | bus (sub : Nat)
  | dom (sub : Nat)
  | wait
deriving DecidableEq, Repr

/-- Mode and domain of a request (R429, R542). -/
structure Req where
  sup : Bool
  trusted : Bool
deriving DecidableEq, Repr

/-- The phase of the reset controller (R169 to R175; log 5). -/
inductive Phase where
  | unpowered   -- before VDD33 reaches the start of the stable oscillator (R169)
  | coldHold    -- the hold of a cold reset, before fuse load
  | fuseLoaded  -- the hold of a cold reset, after fuse load
  | bootRead    -- end of cold reset; C0 has not yet read the boot header
  | run         -- no device reset in progress
  | warm        -- a warm reset in progress
  | off         -- OFF mode
deriving DecidableEq, Repr

/-- The power states of R136 to R145 that PWR_MODE.CUR reports, DOZE apart (it follows from the cores, R137). -/
inductive PMode where
  | run
  | park
  | sleep
deriving DecidableEq, Repr

/-- One cadence compare (R75 to R79) with the level of its pin output (R196); `late` is the tick of a late match. -/
structure Cmp where
  val : DWord := 0
  held : Word := 0
  ctl : Word := 0
  late : Option Nat := none
  out : Bool := false
deriving DecidableEq, Repr

/-- The cadence domain (R64 to R82). `snap` holds the upper-word snapshots, keyed by 16 * pair + initiator (R73). -/
structure Time where
  now : DWord := 0
  src : Bool := false
  pllLock : Bool := true
  qual : Bool := true
  stat : Word := 0
  fbcnt : Nat := 0
  cmp : Tab Cmp := []
  snap : Tab Word := []
deriving DecidableEq, Repr

/-- A calendar value (R87), in plain numbers. -/
structure Cal where
  year : Nat := 2000
  mon : Nat := 1
  day : Nat := 1
  hour : Nat := 0
  min : Nat := 0
  sec : Nat := 0
deriving DecidableEq, Repr

/-- The real-time clock (R83 to R106): the backup domain and the snapshot registers; `secTicks` is the count of
RTC_TICKS at the last second event or the change to tick mode; `cmdEdges` counts the edges since RTC_CMD was written (R91). -/
structure Rtc where
  ticks : BitVec 48 := 0
  presc : BitVec 15 := 0
  secTicks : BitVec 48 := 0
  cal : Cal := {}
  vblo : Bool := false
  tlost : Bool := false
  dst : Bool := false
  refused : Bool := false
  calstale : Bool := false
  range : Bool := false
  onBat : Bool := false
  cmd : Option Nat := none
  cmdEdges : Nat := 0
  snapTime : Word := 0
  snapDate : Word := 0x2000C101
  snapTicks : BitVec 48 := 0
  sentinel : BitVec 16 := 0xA5C3
deriving DecidableEq, Repr

/-- The ECC state of one memory word (R669, R674): good, one bit wrong (corrected when read), uncorrectable or
poisoned. -/
inductive Ecc where
  | good
  | single
  | bad
deriving DecidableEq, Repr

/-- What one ledger record that fell due holds beside the values read when it is written (R149). -/
inductive LedgerDue where
  | aging (pace : Nat)
  | timeLost
  | paceLow (low : Nat)
deriving DecidableEq, Repr

/-- The pace regulation, the power states and the ledger (R116 to R160); `ecc0` and `ecc1` hold the ECC state of the
doublewords of the ledger's pages under their numbers (R665). `wake`, PWR_VCORE.WAKE, is 0 before the first SLEEP and after OFF
(R153; DESIGN CHOICE, log 6). `winAt` is the tick of the last Kestrel window end,
`asks` the core whose halt by SLEEP is to become a sleep request (R140). -/
structure Pwr where
  mode : PMode := .run
  req : Nat := 0
  vcode : Nat := 30
  wake : Nat := 0
  winAt : Nat := 0
  asks : Option Nat := none
  paceNow : Nat := 0
  paceRef : Nat := 0
  temp : Byte := 0
  hiRun : Nat := 0
  loRun : Nat := 0
  underRun : Nat := 0
  okRun : Nat := 0
  episode : Bool := false
  epLow : Nat := 0
  lowHour : Bool := false
  under : Bool := false
  below : Bool := false
  ceil : Bool := false
  vmin : Bool := false
  ramp : Bool := false
  wokeEarly : Bool := false
  safeAct : Bool := false
  parkWait : Bool := false
  wakeSrc : Word := 0
  ceilCnt : Word := 0
  belowCnt : Nat := 0
  vdd33ok : Bool := true
  vcoreok : Bool := true
  vddalo : Bool := false
  vddaForce : Bool := false
  opHours : Nat := 0
  avgSum : Nat := 0
  avgCnt : Nat := 0
  avgOn : Bool := false
  due : List LedgerDue := []
  page0 : List Word := []
  page1 : List Word := []
  ecc0 : Tab Ecc := []
  ecc1 : Tab Ecc := []
deriving DecidableEq, Repr

/-- The requests that units which a device reset has stopped have still made in its period (R163): Owl's count reaches RST_OWL_TO
in it; the floor below which the next window's count starts an episode with the action RESET; the service tool has full
level. -/
structure RstLate where
  owl : Bool := false
  floor : Option Nat := none
  tool : Bool := false
deriving DecidableEq, Repr

/-- The reset controller, the pins and the boot status (R161 to R209). `per` is the stable-oscillator period of the last reset
requests with their cause bits (R163), `reset400` says that the row t = 400 of the running warm reset has been done (R172),
`reload` that the fuse reload of row 2,400 has been done, `stack` is STACK of the boot header (R201, R416). `gpIn` holds the
pad levels, `gpAt` the tick since which GP0 to GP7 have them, `gpFilt` the filtered levels of R386; `gpExt` the levels the
board last gave to the pads named in `gpDrv`, and `padOut` what the device last put on each pad (R195). -/
structure Rst where
  phase : Phase := .bootRead
  cause : Word := 1
  hold : BitVec 4 := 0xE
  inrst : BitVec 4 := 0
  unitBusy : BitVec 11 := 0
  boot : Word := 0
  rstLow : Bool := false
  safeLow : Bool := false
  rstout : Bool := false
  rstoutAt : Nat := 2000
  offWake : Bool := false
  warmAt : Nat := 0
  claim : BitVec 96 := 0
  gpOut : BitVec 24 := 0
  gpIn : BitVec 24 := 0
  gpFilt : BitVec 8 := 0
  gpAt : Tab Nat := []
  gpExt : BitVec 24 := 0
  gpDrv : BitVec 24 := 0
  padOut : Tab Nat := []
  fuseUp : Bool := true
  per : Option (Nat × Word) := none
  late : RstLate := {}
  reset400 : Bool := true
  reload : Bool := true
  stack : Word := 0
deriving DecidableEq, Repr

/-- Owl, the window watchdog (R182 to R188): the ticks counted up to tick `since`, whether it has counted from there on
(log 21), and whether a refresh sequence is open. -/
structure Owl where
  ticks : Nat := 0
  since : Nat := 0
  on : Bool := false
  isOpen : Bool := false
deriving DecidableEq, Repr

/-- A running sequence of a converter (R212, R218, R221, R222). -/
structure SnsRun where
  start : Nat
  avg : Nat
  inp : Bool
  alt : Bool
  fmt : Bool
  ofs : Word
  gain : Word
  short : Bool
  vlo : Bool
  auxVlo : Bool
  mainDone : Bool
  auxDone : Bool
deriving DecidableEq, Repr

/-- A calibration request of a converter (R229 to R235): steps completed, sums of the codes, the running step,
the tick at which the wait expires, the end of the last completed step. -/
structure SnsCal where
  step : Nat := 0
  sumG : Nat := 0
  sumR : Nat := 0
  running : Option Nat := none
  expire : Nat := 0
deriving DecidableEq, Repr

/-- One converter with its comparators (R210 to R235). `inV` and `inRef` are the input at SNSn and the reference voltage the
comparators see; `hAt` and `lAt` the ticks of the last changes of the raw outputs; `coefAt` the tick of the last write of the
coefficients, with what they were before it (R221). -/
structure SnsCh where
  run : Option SnsRun := none
  cal : Option SnsCal := none
  calEnd : Option Nat := none
  rawH : Bool := false
  rawL : Bool := false
  filtH : Bool := false
  filtL : Bool := false
  inV : Nat := 0
  inRef : Nat := 1
  hAt : Nat := 0
  lAt : Nat := 0
  settle : Option Nat := none
  res : Word := 0
  aux : Word := 0
  stat : Word := 0
  miss : Nat := 0
  ofs : Word := 0
  gain : Word := 0x8000
  coefAt : Nat := 0
  ofsOld : Word := 0
  gainOld : Word := 0x8000
  handed : BitVec 16 := 0
  handedVlo : Bool := false
deriving DecidableEq, Repr

/-- What a tracker did in tick `tick` (R242, R247, R255): the direction of its count, whether an index came and whether it was
captured, and the count, the direction, the time, the flags and the pending interrupt before it. -/
structure TrkTick where
  tick : Nat := 0
  count : Option Bool := none
  index : Bool := false
  idx : Bool := false
  pos : Word := 0
  prev : Option Bool := none
  edgeTs : DWord := 0
  stat : Word := 0
  irq : Bool := false
deriving DecidableEq, Repr

/-- One tracker (R236 to R247). `a`, `b`, `z` are the filtered levels, `pins` the pin levels of A, B, Z in bits 0 to 2 and
`pinAt` the ticks of their last changes, `due` the filtered levels that earlier levels of the pins still make: tick, input,
level; `refAt` is the tick in which a swap last changed the mode. -/
structure TrkCh where
  pins : BitVec 3 := 0
  pinAt : Tab Nat := []
  due : List (Nat × Nat × Bool) := []
  refAt : Option Nat := none
  did : TrkTick := {}
  a : Bool := false
  b : Bool := false
  z : Bool := false
  prev : Option Bool := none
  hall : Nat := 0
  pos : Word := 0
  stat : Word := 0
  idxPos : Word := 0
  idxTs : DWord := 0
  edgeTs : DWord := 0
  errQ : Nat := 0
  errI : Nat := 0
deriving DecidableEq, Repr

/-- The shape of a period (R272, R276). -/
inductive Shape where
  | low
  | high
  | normal
deriving DecidableEq, Repr

/-- One PWM channel (R258 to R301). `cfg` to `smp` are the parameters in force (R292); `bt` is the tick of the last
boundary; `dutyAt` is the tick of the last write of PWM_DUTY with the value before that tick (R43), `pendOld` the pending
value before the tick `pendAt` of the last load-all (R269); `firstAt` the tick in which FIRST was recorded (R287), `hardAt` the
tick in which a hard trip sets HARD (R280); `since` is
the step of the last change of H_ref, `hFell` and `lFell` are the steps at which the outputs last went low (none: longer
ago than any dead time). -/
structure PwmCh where
  en : Bool := false
  first : Option Nat := none
  bt : Nat := 0
  cfg : Word := 0
  per : Word := 0
  dt : Word := 0
  minp : Word := 0
  pol : Word := 0
  smp : Word := 0
  raw : Word := 0
  on : Nat := 0
  duty : Word := 0
  dutyAt : Nat := 0
  dutyOld : Word := 0
  pend : Option Word := none
  pendOld : Option Word := none
  pendAt : Nat := 0
  carry : Int := 0
  shape : Shape := .low
  t : Nat := 0
  periods : Nat := 0
  stat : Word := 0
  trip : Word := 0
  firstAt : Nat := 0
  hardAt : Option Nat := none
  running : Bool := false
  href : Bool := false
  since : Option Nat := none
  edgePos : Nat := 0
  outH : Bool := false
  outL : Bool := false
  unitHold : Bool := false
  short : Nat := 0
  hFell : Option Nat := none
  lFell : Option Nat := none
deriving DecidableEq, Repr

/-- The states of a loop slot (R303). -/
inductive SlotSt where
  | off
  | idle
  | queued
  | running
  | held
  | parked
  | fault
deriving DecidableEq, Repr

/-- What an evaluation reads at its start (R45, R310, R339, R360): descriptor, coefficient page, the map of its arena, inputs,
reference, LOSE and OVRD; `trigAt` is the tick of its trigger (R334). -/
structure LeRun where
  desc : List Word
  page : List Word
  map : Word
  trigAt : Nat
  m : List Int
  r : Int
  lose : Bool
  ovrd : Bool
  bump : Bool
  stop : Bool      -- the slot has been disabled: the writes to PWM_DUTY are discarded (R306)
deriving DecidableEq, Repr

/-- The internal state of the two laws (R302, R360, R366). -/
structure LawSt where
  i : Int := 0
  f : Int := 0
  xprev : Int := 0
  eprev : Int := 0
  m1prev : Int := 0
  sprev : Int := 0
  x : List Int := []
  xtprev : List Int := []
  rprev : Int := 0
  vprev : List Int := []
  off : List Int := []
  first : Bool := true
  u0 : Int := 0
  u1 : Int := 0
  u2 : Int := 0
deriving DecidableEq, Repr

/-- One loop slot (R302 to R338). `mirror` is the record that waits, under its address (R324). -/
structure LeSlot where
  st : SlotSt := .off
  lane : Nat := 0
  law : LawSt := {}
  bump : Bool := false
  clr : Bool := false
  trigAt : Nat := 0
  run : Option LeRun := none
  done : Bool := false
  fecnt : Nat := 0
  fcode : Nat := 0
  lose : Bool := false
  ovrd : Bool := false
  stat : Word := 0
  cntOvr : Nat := 0
  cntDl : Nat := 0
  mirror : Option (Nat × Word × Word) := none
deriving DecidableEq, Repr

/-- The loop engine (R302 to R383). `win` holds the winner of an arena plus 1, 0 while it has none; `chg` marks an arena
whose change of winner no write has followed yet (R329). -/
structure Le where
  slot : Tab LeSlot := []
  win : Tab Nat := []
  chg : Tab Bool := []
  bistBusy : Bool := false
  bistRes : Nat := 0
  laneFail : BitVec 4 := 0
deriving DecidableEq, Repr

/-- What a route output does. -/
inductive OutKind where
  | rise
  | fall
deriving DecidableEq, Repr

/-- A delivery in flight (R393): its route, what the output does, the tick in which it does so, the destination kind and
mask it was formed with. -/
structure Flight where
  route : Nat
  out : OutKind
  tick : Nat
  kind : Nat
  mask : Word
deriving DecidableEq, Repr

/-- The signals of a route around tick `tick`, in which it was last evaluated (R388, R389): the gated signal in the tick
before, in that tick and from the next tick on; the output in the tick before, in that tick, in the next and in those
that follow, while no source changes; `ref` holds when the route takes g of that tick as its reference (R404). -/
structure RouteSig where
  tick : Nat := 0
  ref : Bool := false
  g0 : Bool := false
  g1 : Bool := false
  g2 : Bool := false
  o0 : Bool := false
  o1 : Bool := false
  o2 : Bool := false
  o3 : Bool := false
deriving DecidableEq, Repr

/-- The event router (R384 to R413). `dl` is the delivered level of each route, with kind and mask, `roseAt` the tick of the
output whose rise was delivered last; `cnt` counts the rises of its output up to tick `cntAt` - 1 without a bound, and
EVR_RT_CNT shows at most 0xFFFF. -/
structure Evr where
  sw : BitVec 16 := 0
  sig : Tab RouteSig := []
  fly : List Flight := []
  dl : Tab (Option (Nat × Word)) := []
  roseAt : Tab Nat := []
  cnt : Tab Nat := []
  cntAt : Tab Nat := []
  lock : BitVec 64 := 0
deriving DecidableEq, Repr

/-- A reservation of a source for a core (R565, R566). -/
structure Reserve where
  src : Nat
  withdrawn : Bool
deriving DecidableEq, Repr

/-- The interrupt controller (R554 to R585). `act` maps a source to the core it is active on and the priority
recorded at its claim. -/
structure Intc where
  pend : BitVec 193 := 0
  lvl : BitVec 8 := 0
  act : Tab (Option (Nat × Nat)) := []
  resv : Tab (Option Reserve) := []
  last : Nat := 0
  thr : Tab Nat := []
  badDone : Word := 0
  badInfo : Word := 0
deriving DecidableEq, Repr

/-- The MESI state of a held D-cache line (R587); I is the absence of the line. -/
inductive LineSt where
  | s
  | e
  | m
deriving DecidableEq, Repr

/-- A D-cache line: its state, its 32 bytes (byte 0 lowest), the doublewords that are uncorrectable or poisoned in it (R675)
and those that read with one bit wrong (R665, R669). -/
structure DLine where
  st : LineSt
  data : BitVec 256
  bad : BitVec 4
  one : BitVec 4 := 0
deriving DecidableEq, Repr

/-- A line in an eviction buffer (R592): its address, and its data when it left state M. -/
structure Evict where
  addr : Nat
  dirty : Option (BitVec 256 × BitVec 4)
deriving DecidableEq, Repr

/-- Whether a core executes (R137, R178, R481). -/
inductive RunSt where
  | running
  | asleep      -- halted by SLEEP
  | held        -- held by RST_CORECTL.HOLD or after a boot failure
  | inReset     -- core reset in progress
  | bootWait    -- C0 before it has read the boot header
deriving DecidableEq, Repr

/-- A repetition in progress (R485 to R497): repetitions left, interruptible form, the address of the follower, and
the follower once it has arrived. -/
structure Rep where
  left : Nat
  isI : Bool
  repPc : Word
  resumed : Bool
  follower : Option Instr
deriving DecidableEq, Repr

/-- One Genha core (R414 to R467, R838 to R844). `g` holds g1 to g31 under their numbers and the shadow bank's g1 to
g15 under 32 + k; `haltReq` a HALT that waits for the end of a REP (R838); `ice` holds the ECC state of the I-cache's
doublewords under their numbers (R665); `hand` holds ENTRY and STACK of the program the core is to restart in, `handed` that it
has recorded its state (R810, R811). -/
structure Core where
  st : RunSt := .held
  halted : Bool := false
  stepping : Bool := false
  haltReq : Bool := false
  bpSkip : Bool := false
  pc : Word := 0
  g : Tab Word := []
  status : Word := 3
  estat : Word := 0
  epc : Word := 0
  ecause : Word := 0
  faddr : Word := 0
  vbase : Word := 0
  tsbp : Word := 0
  rpc : Word := 0
  acc : DWord := 0
  accst : Word := 0
  icount : DWord := 0
  icountHi : Word := 0
  rep : Option Rep := none
  dc : Tab (Option DLine) := []
  ic : Tab (Option (BitVec 256)) := []
  ice : Tab Ecc := []
  ev : List Evict := []
  hand : Option (Word × Word) := none
  handed : Bool := false
deriving DecidableEq, Repr

/-- One merge-buffer entry (R676): its doubleword address, its bytes and the mask of the bytes written. -/
structure Merge where
  addr : Nat
  data : DWord
  mask : BitVec 8
  last : Nat
deriving DecidableEq, Repr

/-- The memories (R53, R665 to R703). `undefPage` and `undefDw` name flash with undefined contents (R174, R696), as
1 plus the free-value index its bytes are taken from; `sAt` and `fAt` are the ticks in which the intervals of the two walkers
of the scrubber end (R685). -/
structure Mem where
  cells : List Host.Cell := []
  ecc : Tab Ecc := []
  undefPage : Tab Nat := []
  undefDw : Tab Nat := []
  merge : List Merge := []
  sPos : Nat := 0
  fPos : Nat := 0
  sAt : Nat := 200
  fAt : Nat := 20000
  sPass : Nat := 0
  fPass : Nat := 0
  flWeak : Word := 0
  flWeakCnt : Nat := 0
  ce : Tab Nat := []
  ue : Tab Nat := []
  ceAddr : Word := 0
  ueAddr : Word := 0
  ueInfo : Word := 0
  idle : BitVec 8 := 0
  idleClr : BitVec 8 := 0
  bistBusy : Bool := false
  bistReg : Nat := 0
  bistRes : Nat := 0
  bistFail : Word := 0
deriving DecidableEq, Repr

/-- The flash controller (R690 to R696): the command accepted, whether it waits for the ledger record that is being written
(R694), the unlock sequence, the flags. -/
structure Flash where
  cmd : Option (Nat × Nat × DWord) := none
  held : Bool := false
  key : Nat := 0
  done : Bool := false
  err : Bool := false
  ecode : Nat := 0
deriving DecidableEq, Repr

/-- The fuse array, its shadows and the fuse programmer (R704 to R709); `authBad` says that the last load met an uncorrectable word
among those of R706 that decide the access level. -/
structure Fuse where
  arr : Tab Word := []
  bad : Tab Ecc := []
  written : BitVec 128 := 0
  shadow : Tab Word := []
  prog : Option (Nat × Word) := none
  res : Nat := 0
  authBad : Bool := false
  lce : Bool := false
  lerr : Bool := false
  lceW : Nat := 0
  lerrW : Nat := 0
deriving DecidableEq, Repr

/-- One queue (R596 to R610): QUE_CFG, the words held (head first), the ring position of the head, the flags
[25:16] of QUE_STAT, the counters. -/
structure Que where
  cfg : Word
  words : List Word := []
  head : Nat := 0
  flags : Word := 0
  overs : Nat := 0
  unders : Nat := 0
deriving DecidableEq, Repr

/-- One lock (R612 to R616). -/
structure Lock where
  holder : Option (Fin 4) := none
  orph : Bool := false
deriving DecidableEq, Repr

/-- The lock unit. -/
structure Locks where
  l : Tab Lock := []
  badGive : Word := 0
  badInfo : Word := 0
deriving DecidableEq, Repr

/-- One buffer of the shed (R618). -/
structure Buf where
  owner : Nat := 7
  gen : Nat := 0
deriving DecidableEq, Repr

/-- The buffer shed (R618 to R627): the free list in order, the buffers, the flags. -/
structure Shed where
  free : List Nat := List.range 1024
  buf : Tab Buf := []
  err : Word := 0
  errInfo : Word := 0
  errCnt : Word := 0
  lowMark : Nat := 1024
deriving DecidableEq, Repr

/-- The states of a DMA channel (R640). -/
inductive DmaSt where
  | idle
  | armed
  | pending
  | running
deriving DecidableEq, Repr

/-- One DMA channel (R640 to R657): working copies, remaining elements, elements left in the run, flags; `buf` holds the
elements that have been read and not yet written, oldest first, each with the error code of its read (R649, R653); `fail` holds the
error of an element while those already in flight behind it complete: its code, DMA_CSRC, DMA_CDST and REM (R653). -/
structure DmaCh where
  st : DmaSt := .idle
  csrc : Word := 0
  cdst : Word := 0
  cfg : Word := 0
  rem : Nat := 0
  runLeft : Nat := 0
  flags : Word := 0
  ecode : Nat := 0
  trust : Bool := false
  stop : Nat := 0
  buf : List (Word × Nat) := []
  fail : Option (Nat × Word × Word × Nat) := none
deriving DecidableEq, Repr

/-- Violation records and lockup records of the SYS block (R543, R545, R529, R712). -/
structure SysRec where
  domViol : Word := 0
  domAddr : Word := 0
  domInfo : Word := 0
  domTick : Option DWord := none
  lockup : Tab Word := []
  lockupPc : Tab Word := []
  lockViol : Word := 0
  lockVAddr : Word := 0
  lockVInfo : Word := 0
  lockTick : Option DWord := none
deriving DecidableEq, Repr

/-- One port of the link (R727, R728, R745, R750): up, in code-group alignment, twice the last cable delays (newest
first), their mean with its VALID bit, the running probe, the tick at which the frame it sends ends, whether that frame came
in at the other port, and whether the port is turned: its frames leave by the other port (R750, R752). -/
structure PortSt where
  up : Bool := false
  aligned : Bool := false
  meas : List Nat := []
  dly : Nat := 0
  valid : Bool := false
  probeAt : Option Nat := none
  txEnd : Nat := 0
  cross : Bool := false
  turned : Bool := false
deriving DecidableEq, Repr

/-- Where a stored errand stands (R761). -/
inductive ErrandSt where
  | stored      -- waits for the OD engine
  | forwarded   -- pushed to LINK_FWDQ, waits for OD_ANSWER
  | answered
  | collected
deriving DecidableEq, Repr

/-- A stored errand of a member (R761): its tag, the time of its REQ, its shed buffer with its generation, where it stands, and
whether a COLLECT in the tick of expiry has stopped its hold timer (R82, R762). -/
structure Errand where
  tag : Byte
  at' : Nat
  buf : Nat
  gen : Nat
  st : ErrandSt
  fwdAt : Nat
  kept : Bool := false
deriving DecidableEq, Repr

/-- What a port sent last (the effect of a frame or a set on the outputs, R726 to R728, R732 to R738, R750 to R754): of the idle
sets, /I2/ (true) or /I1/. -/
inductive Sent where
  | nothing
  | idle (i2 : Bool)
  | yard (f : YardFrame)
  | errand (f : ErrFrame)
  | abort
  | probe
  | delayReply (t : BitVec 24)
  | ringProbe
  | resetCmd (s1 s2 : RcSet)
deriving DecidableEq, Repr

/-- The head's errand on the ring (R763): its handle, the tick of its /SE/, its tag, the copies still to return, and whether one
that no node answered has returned. -/
structure HeadErr where
  handle : Nat
  at' : Nat
  tag : Byte
  left : Nat
  back : Bool := false
deriving DecidableEq, Repr

/-- A yard event to come (R749): its stream, the ring time TY + LINK_YEV[k], the tick in which the header is complete, and
whether that tick comes after the one the event belongs to. -/
structure YardEv where
  k : Nat
  target : Int
  hdr : Nat
  late : Bool
deriving DecidableEq, Repr

/-- The end of a yard that a member is processing (R739, R769, R770): the tick of /T/, the port that receives it, whether its CRC
is correct, its stream, and the IN writes of its map as /SY/ found it (none: its stall is not moved). -/
structure YardEnd where
  at' : Nat
  port : Port
  ok : Bool
  k : Nat
  ins : Option (List (Nat × Word))
deriving DecidableEq, Repr

/-- What the link controller and the OD engine have still to do: for want of a tag (R131) bytes to write, with a word to push to
LINK_HQ.RXQ after them, or an answer to take from the buffer of the errand with a tag; at a shed in reset a REQ to store. -/
inductive LinkWork where
  | put (who : Who) (addr : Nat) (bytes : List Byte) (push : Option Word)
  | ans (tag : Byte)
  | store (f : ErrFrame)
deriving DecidableEq, Repr

/-- The link controller (R724 to R775). `addr` is the address in force, `addrNext` one written that waits for the next /SY/ or
/SE/ (R756); `rpAt` is the tick in which the head's /RP/ follows a yard (R752). -/
structure Link where
  la : PortSt := {}
  lb : PortSt := {}
  sentA : Sent := .idle false
  sentB : Sent := .idle false
  rc : Bool := false
  fb : Bool := false
  head : Bool := false
  sync : Bool := false
  prevOk : Option Nat := none
  goodAt : Option Nat := none
  errf : Word := 0
  addr : Byte := 0
  addrNext : Option Byte := none
  pos : Byte := 0
  auto' : Bool := false
  hdly : BitVec 24 := 0
  tofs : DWord := 0
  rate : Word := 0
  ta : Option DWord := none
  yevDue : List YardEv := []
  ends : List YardEnd := []
  yseq : Tab (BitVec 16) := []
  ecnt : Tab Nat := []
  outPrev : Tab Word := []
  errands : List Errand := []
  work : List LinkWork := []
  rcAt : Option Nat := none
  -- head only (R751, R752, R763, R764)
  hseq : Tab (BitVec 16) := []
  hdue : Tab (Option Nat) := []
  hret : Tab Word := []
  rdly : BitVec 24 := 0
  flight : Option HeadErr := none
  rpWait : Bool := false
  rpAt : Option Nat := none
  healFrom : Option Nat := none
  closed : Bool := false
deriving DecidableEq, Repr

/-- The OD engine (R776 to R794). -/
structure Od where
  stat : Word := 0
  answered : Nat := 0
  refused : Nat := 0
  last : Word := 0
  intCh : Word := 0
  intSl : Word := 0
deriving DecidableEq, Repr

/-- The states of the swap machine (R800). -/
inductive SwapSt where
  | idle
  | check
  | ready
deriving DecidableEq, Repr

/-- The swap logic (R795 to R812). `mode`, `stream` and `at'` are read at ARM; `hit` says that the yard event of the swap
point has come (R802); `exch` that the last swap was an exchange (R808). -/
structure Swap where
  st : SwapSt := .idle
  mode : Nat := 0
  stream : Nat := 0
  at' : DWord := 0
  hit : Bool := false
  exch : Bool := false
  result : Nat := 0
  rearm : Bool := false
  reason : Nat := 0
  reasons : Word := 0
  gen : BitVec 16 := 0
deriving DecidableEq, Repr

/-- The TAP instructions (R822). -/
inductive TapIr where
  | extest
  | samplePreload
  | idcode
  | clamp
  | highz
  | dbgacc
  | bypass
deriving DecidableEq, Repr

/-- The per-core debug registers that hardware changes (R838 to R845). -/
structure DbgCore where
  cause : Nat := 0
  bp : Nat := 0
  wp : Nat := 0
  rerr : Bool := false
deriving DecidableEq, Repr

/-- The debug port (R822 to R860): `ir` is the code the 5-bit instruction register holds; `accAt` is the tick of the last access through
DBGACC, `waitAt` one in which ACK WAIT has been captured (R828). -/
structure Dbg where
  ir : BitVec 5 := 2
  bsref : Bool := false
  cells : Tab (BitVec 3) := []
  shown : Option (Tab (BitVec 3)) := none
  ack : Nat := 1
  accAt : Option Nat := none
  waitAt : Option Nat := none
  data : Word := 0
  level : Nat := 2
  fails : Nat := 0
  locked : Bool := false
  dlyEnd : Option Nat := none
  chal : Tab Word := []
  chv : Bool := false
  resp : Tab Word := []
  check : Option (Nat × Bool) := none
  res : Nat := 0
  frz : Bool := false
  onHalt : Bool := false
  inForce : Bool := false
  frzAt : Nat := 0
  evt : Word := 0
  maddr : Word := 0
  mdata : Word := 0
  mbusy : Option (Bool × Nat × Bool × Word × Word) := none
  merr : Nat := 0
  movr : Bool := false
  core : Tab DbgCore := []
deriving DecidableEq, Repr

/-- A boundary of channel `n`: the channel before and after it, its pending interrupt and the flags noted in PWM_STAT before it. -/
structure BoundNote where
  n : Nat
  c0 : PwmCh
  c1 : PwmCh
  irq : Bool
  flags : Word
deriving DecidableEq, Repr

/-- What took place in tick `tick`, for the rules that order what falls in one tick: the W1C bits hardware set, by
register (R28), the interrupt sources raised (R584), the event sources pulsed (R385), the soft trips requested (R298),
the groups loaded (R271), the channels at a boundary with what they were before and after it (R292, R297), the slots that
took a trigger with what they and their pending interrupt were before it (R350), the shadow words written with
what they held before (R25), the swap state before those writes, READY where it was READY at one of them, whether the yard event that a swap waits for came (R816), the
routes locked (R409), the core of a reservation withdrawn with
the priority of its source and whether only its pending state went (R566, R569), the reference and the PLL lock before a RESTORE (R115), the compares that matched with what they were
before (R79), the GP pins whose filtered level changed (R143), the pace
target before a write (R123), whether PARK was requested by R129, with whether the device was in RUN before (R158), whether a
wake source ended SLEEP (R144), whether a ledger record fell due (R694), the delivered outputs before the deliveries of the
tick and the destinations that have acted in it (R390, R411), the active values before a set swap (R769), the
DMA channels whose trigger was dropped, with whether TOVR and the source's pending bit were 0 before (R647). -/
structure Same where
  tick : Nat := 0
  flags : Tab Word := []
  irqs : BitVec 193 := 0
  pulses : List Nat := []
  soft : BitVec 32 := 0
  loads : BitVec 8 := 0
  bounds : List BoundNote := []
  trigs : List (Nat × LeSlot × Bool) := []
  undo : List (Nat × Word × Ecc) := []
  undoSt : Option SwapSt := none
  yard : Bool := false
  locks : BitVec 64 := 0
  gone : List (Nat × Nat × Bool) := []
  restore : Option (Bool × Bool) := none
  hits : List (Nat × Cmp) := []
  gpEdge : BitVec 8 := 0
  tgt : Option Word := none
  park : Option Bool := none
  woke : Bool := false
  recDue : Bool := false
  dl0 : Option (Tab (Option (Nat × Word))) := none
  acted : List (Nat × Nat) := []
  before : Option (Tab Word) := none
  drops : List (Nat × Bool × Bool) := []
deriving DecidableEq, Repr

/-- A request at a register that waits (R131, R181, R452): its initiator, its address, the word it writes (none: it reads),
whether it holds a tag, mode and domain of its instruction (R429), and whether the initiator's own engine made it, which then
takes its answer. -/
structure Wait where
  who : Who
  addr : Nat
  put : Option Word
  tag : Bool
  req : Req
  eng : Bool := false
deriving DecidableEq, Repr

/-- Where the access stands that an initiator's own engine makes: none is under way, it holds a tag, it waits for one, it
has been made while the engine waited, at an address, with the word written if it was a write, and with its answer. -/
inductive Eng where
  | idle
  | held
  | barred
  | answered (addr : Nat) (put : Option Word) (r : Acc)
deriving DecidableEq, Repr

/-- The whole device but its queue of commands. `rw` holds the plain live registers under their addresses, `shadow`
and `active` the two copies of the registers of the sets under the addresses of the shadow view (R22, R23). -/
structure Device where
  time : Time := {}
  rtc : Rtc := {}
  pwr : Pwr := {}
  rst : Rst := {}
  owl : Owl := {}
  sns : Tab SnsCh := []
  trk : Tab TrkCh := []
  pwm : Tab PwmCh := []
  le : Le := {}
  evr : Evr := {}
  intc : Intc := {}
  core : Tab Core := []
  mem : Mem := {}
  flash : Flash := {}
  fuse : Fuse := {}
  que : Tab Que := []
  lock : Locks := {}
  shed : Shed := {}
  dma : Tab DmaCh := []
  link : Link := {}
  od : Od := {}
  swap : Swap := {}
  dbg : Dbg := {}
  sys : SysRec := {}
  waits : List Wait := []
  fabEng : Tab Eng := []
  fabWaitCnt : Tab Word := []
  rw : Tab Word := []
  shadow : Tab Word := []
  active : Tab Word := []
  spent : Tab Bool := []
  rdata : Tab Word := []
  resp : Tab Resp := []
  same : Same := {}
  free : Nat := 0
deriving DecidableEq, Repr

/-- The state: the device and the commands that wait, first in, first out. -/
structure State where
  dev : Device
  pending : List Instr
deriving DecidableEq, Repr

/-- No command stops the machine: every command of the table has an effect, and a command whose condition does not
hold changes nothing (log 3). The one constructor is raised by nothing; it stands so that the type has a name. -/
inductive Fault where
  /-- Raised by no command (log 3): safe. -/
  | none
deriving DecidableEq, Repr

/-- Refusals. -/
inductive Refusal where
  /-- A command without a meaning yet, by its mnemonic: raised by the dispatch alone. Safe: the model stops. -/
  | notModelled (mnemonic : String)
deriving DecidableEq, Repr

/-- What an unlisted core reads as: C0 waits for its boot header, C1 to C3 are held (R170, R178). -/
def core0 (c : Nat) : Core := { st := if c = 0 then .bootWait else .held }

/-- What an unlisted queue reads as: enabled with 16 granules from 16q (R600). -/
def que0 (q : Nat) : Que := { cfg := BitVec.ofNat 32 (0x00108000 + 16 * q) }

/-- What an unlisted word of the fuse array and of its shadows reads as: word 0 holds GRADE = 1, every other word is
unprogrammed and reads 0 (R703; log 6). -/
def fuse0 (w : Nat) : Word := if w = 0 then 1 else 0

/-- What an unlisted byte reads as: flash is erased, every SRAM holds zero (R169, R671; log 6). -/
def byte0 (a : Nat) : Byte := if a < 0x00400000 then 0xFF else 0

/-- The machine right after reset: the end of cold reset, the tick in which TBASE_NOW starts from 0 (R170), with the
boot header not yet read (log 5). -/
def State.reset : State := { dev := {}, pending := [] }


end Sys2Proof.Machine
end

