-- ==== Sys2Proof/Machine/Laws.lean ====
section
/-! DEFINITION. The two control laws bit for bit (R356 to R383): PID and state feedback with observer. -/
namespace Sys2Proof.Machine

/-- Word `i` of a descriptor or a page that was read at the start of an evaluation. -/
def nth (l : List Word) (i : Nat) : Word := l.getD i 0

/-- The signed 16-bit field [hi:lo] of a word (Q1.15). -/
def q15 (w : Word) (lo : Nat) : Int := sxI 16 (wf w (lo + 15) lo)
/-- The Q3.12 field from bit `lo` of a word (R11). -/
def q312f (w : Word) (lo : Nat) : Int := sxI 15 (wf w (lo + 15) lo)
/-- The Q3.12 halfword at byte offset `o` of a coefficient page (R364). -/
def coef (pg : List Word) (o : Nat) : Int := q312f (nth pg (o / 4)) (if o % 4 = 2 then 16 else 0)

def sumTo (n : Nat) (f : Nat → Int) : Int := (List.range n).foldl (fun a i => a + f i) 0
/-- Entry `i` of a state vector; an entry never written is 0 (R369). -/
def at0 (l : List Int) (i : Nat) : Int := l.getD i 0
def vec (n : Nat) (f : Nat → Int) : List Int := (List.range n).map f

/-- Descriptor fields (R307). -/
def dLaw (w : List Word) : Nat := wf (nth w 0) 1 0
def dNst (w : List Word) : Nat := wf (nth w 0) 4 2
def dNout (w : List Word) : Nat := wf (nth w 0) 6 5
def dNin (w : List Word) : Nat := wf (nth w 0) 8 7
def dYmin (w : List Word) : Int := q15 (nth w 6) 0
def dYmax (w : List Word) : Int := q15 (nth w 6) 16
/-- lim of R356. -/
def limY (w : List Word) (a : Int) : Int := min (max a (dYmin w)) (dYmax w)

/-- The PID base term from an error, a filter state and m1, with the coefficients of `w` (R360, R373). -/
def pidBase (w : List Word) (e f m1 : Int) : Int :=
  q312f (nth w 8) 0 * e + q312f (nth w 9) 0 * f + (if dNin w ≥ 1 then q312f (nth w 11) 0 * m1 else 0)
    + q15 (nth w 11) 16 * 4096

/-- The integrator limits in accumulator units (R359). -/
def pidClamp (w : List Word) (a : Int) : Int := clampI a (q15 (nth w 10) 0 * 4096) (q15 (nth w 10) 16 * 4096)

/-- The bumpless change of a PID slot (R373, R375). -/
def bumpPid (w : List Word) (s : LawSt) : LawSt :=
  if s.first then s else { s with i := pidClamp w (s.i + s.sprev - pidBase w s.eprev s.f s.m1prev) }

/-- One PID evaluation (R360 to R362). -/
def evalPid (w : List Word) (m : List Int) (r : Int) (sat bump : Bool) (s : LawSt) : LawSt :=
  let s := if bump then bumpPid w s else s
  let m0 := at0 m 0
  let m1 := if dNin w ≥ 1 then at0 m 1 else 0
  let e := r - m0
  let x := if wb (nth w 12) 4 then -m0 else e
  let dx := if s.first then 0 else x - s.xprev
  let af : Int := wf (nth w 9) 30 16
  let f := s.f + rnd (af * (dx - s.f)) 15
  let base := pidBase w e f m1
  let di := rnd (q312f (nth w 8) 16 * e) (wf (nth w 12) 3 0)
  let y0 := limY w (sat16 (rnd (base + s.i) 12))
  let frozen := sat || (decide (y0 = dYmax w) && decide (0 < di)) || (decide (y0 = dYmin w) && decide (di < 0))
  let i := if frozen then s.i else pidClamp w (s.i + di)
  let u0 := limY w (sat16 (rnd (base + i) 12))
  { s with i := i, f := f, xprev := x, eprev := e, m1prev := m1, sprev := base, first := false,
           u0 := u0, u1 := 0, u2 := 0 }

/-- A reference gain NRj (R363). -/
def sfNr (w : List Word) (j : Nat) : Int :=
  match j with | 0 => q312f (nth w 8) 0 | 1 => q312f (nth w 8) 16 | _ => q312f (nth w 9) 0

/-- The pre-limit output j from a corrected state and a reference, before the offset (R366, R374). -/
def sfV (w pg : List Word) (xt : List Int) (r : Int) (j : Nat) : Int :=
  sat16 (rnd (sfNr w j * r - sumTo (dNst w) (fun i => coef pg (0xCC + 2 * (6 * j + i)) * at0 xt i)) 12)

/-- What steps 1 and 2 of R366 give: the corrected state, the pre-limit outputs, the outputs, the offsets. -/
structure SfOut where
  xt : List Int
  v : List Int
  u : List Int
  off : List Int
deriving DecidableEq, Repr

/-- Correction and control of a state-feedback evaluation (R366 steps 1 and 2, R374). -/
def sfControl (w pg : List Word) (m : List Int) (r : Int) (bump : Bool) (s : LawSt) : SfOut :=
  let nst := dNst w
  let nm := dNin w + 1
  let no := dNout w + 1
  let nu := vec nm (fun l =>
    at0 m l - sat16 (rnd (sumTo nst (fun i => coef pg (0x9C + 2 * (6 * l + i)) * at0 s.x i)) 12))
  let xt := vec nst (fun i =>
    sat16 (rnd (at0 s.x i * 4096 + sumTo nm (fun l => coef pg (0x6C + 2 * (4 * i + l)) * at0 nu l)) 12))
  let off := if bump && !s.first then
      vec 3 (fun j => if j < no then at0 s.vprev j - sfV w pg s.xtprev s.rprev j else at0 s.off j) else s.off
  let v := vec no (fun j => sat16 (sfV w pg xt r j + at0 off j))
  let bk : Int := wf (nth w 9) 30 16
  let off := vec 3 (fun j =>
    if j < no then
      (if 0 ≤ at0 off j then sarI (at0 off j * bk) 15 else -(sarI (-(at0 off j) * bk) 15))
    else at0 off j)
  { xt := xt, v := v, u := v.map (limY w), off := off }

/-- Prediction of a state-feedback evaluation (R366 step 3, R367, R368); `ua` are the outputs applied.  The values of outputs
this evaluation does not compute are 0 for the next one and in the mirror (DESIGN CHOICE, log 114: R366 and R374 give none). -/
def sfPredict (w pg : List Word) (r : Int) (sat : Bool) (o : SfOut) (ua : List Int) (s : LawSt) : LawSt :=
  let nst := dNst w
  let hold := sat || o.u != o.v
  let x := vec nst (fun i =>
    sat16 (rnd (sumTo nst (fun k => coef pg (2 * (6 * i + k)) * at0 o.xt k)
      + sumTo (dNout w + 1) (fun j => coef pg (0x48 + 2 * (3 * i + j)) * at0 ua j)
      + (if hold then 0 else coef pg (0xF0 + 2 * i) * r)) 12))
  { s with x := x, xtprev := o.xt, rprev := r, vprev := o.v, off := o.off, first := false,
           u0 := at0 o.u 0, u1 := at0 o.u 1, u2 := at0 o.u 2 }

/-- The transforms of an output entry (R321): the duty as a 16-bit pattern. -/
def xform (xf : Nat) (u : Int) : Nat :=
  toBits 16 (match xf with
    | 0 => u
    | 1 => if u = -32768 then 32767 else -u
    | 2 => sarI (u + 0x8000) 1
    | _ => sarI (0x7FFF - u) 1)

/-- The tracker input of R311. -/
def trackerInput (pos pref : Word) (m : Nat) (psh : Nat) : Int :=
  let d := sxI 32 (pos - pref).toNat
  let d := if 0 < m ∧ 2 * d ≥ (m : Int) then d - m else d
  let d := if 0 < m ∧ 2 * d < -(m : Int) then d + m else d
  clampI (sarI d psh) (-32768) 32767

end Sys2Proof.Machine
end

