-- ==== Sys2Proof/Config.lean ====
section
/-! DEFINITION. The free values: what the spec leaves open. Each is an opaque constant without a body, applied to
State's free counter (log 7), so that no proof can see what it is. -/
namespace Sys2Proof.Config

/-- A byte of flash with undefined contents (R174, R696; log 8). -/
opaque freeByte : Nat → Byte
/-- The way of a full D-cache set that a line fill replaces (R445 names no rule; log 9). -/
opaque victimWay : Nat → Fin 4
/-- A random word of the authentication challenge (R835; log 10). -/
opaque challengeWord : Nat → Word
/-- Whether an average whose exact value is not whole is rounded up (R147, R745; log 11). -/
opaque roundUp : Nat → Bool
/-- What a fuse word holds after a program whose read-back failed (R708; log 15). -/
opaque failedFuse : Nat → Word
/-- The word of an OUT entry whose read its unit answers with an error (R744 names none; log 17). -/
opaque outWord : Nat → Word
/-- By what the CRC of a frame received with a wrong CRC differs from the right one when it is sent on (R734 says only
that it is wrong; log 18). -/
opaque crcError : Nat → Word
/-- LINK_RATE when the rate error does not fit the register (R747; log 19). -/
opaque rateWord : Nat → Word
/-- A byte of a stall area that the head could not read from its buffer (R764; log 20). -/
opaque stallByte : Nat → Byte
/-- Whether a CHECK in open mode matches (R831 obtains no level by a check there; log 23). -/
opaque openMatch : Nat → Bool
/-- What is read where the spec states no value: a ledger record beyond the count, a field that names an owner where
there is none, a selection of the core register window that names no register (log 27). -/
opaque noValue : Nat → Word
/-- The level of an activity pin of the link in a tick, of LB where the first argument holds: R196 states none (log 40). -/
opaque linkActivity : Bool → Nat → Bool
/-- How many edges of the 32.768 kHz clock have come since the last command of the backup domain when an RTC command is
applied: that clock has no fixed relation to TBASE_NOW (R84, R91; log 65). -/
opaque rtcEdges : Nat → Nat

/-- Whether VDD33 is below 3.15 V when a fuse program is asked for (R707): no register shows it (log 16). -/
opaque vdd33Low : Nat → Bool
/-- How many single-bit and uncorrectable errors a fuse word has after a program whose read-back failed: 0 none, 1 a single
one, 2 an uncorrectable one (R708 does not say; log 15). -/
opaque failedFuseEcc : Nat → Fin 3
/-- How many elements beyond one a DMA channel with SINC = 1 keeps in flight: R649 says up to 4 in all (log 98). -/
opaque dmaAhead : Nat → Fin 4
/-- What an input cell of the boundary register samples at an undriven PWM pin without a pull (R195, R824; log 104). -/
opaque padSample : Nat → Bool
/-- Whether the access before has not completed when the service tool's next one comes in the same tick (R828; log 105). -/
opaque dbgBusy : Nat → Bool

end Sys2Proof.Config
end

