-- ==== Sys2Proof/Machine/RegTable.lean ====
section
/-! DEFINITION. The registers that hold plain values: where they lie, which bits a write stores and what they hold
after reset (R12 to R24 and the register tables of the chapters). Registers that hardware changes have a home of
their own in State and are handled by their unit. -/
namespace Sys2Proof.Machine

/-- The base addresses of the register blocks (R54). -/
def bSYS : Nat := 0x40000000
def bPWR : Nat := 0x40010000
def bRST : Nat := 0x40020000
def bTBASE : Nat := 0x40030000
def bRTC : Nat := 0x40040000
def bINTC : Nat := 0x40050000
def bEVR : Nat := 0x40060000
def bDMA : Nat := 0x40070000
def bQUE : Nat := 0x40080000
def bSHED : Nat := 0x40090000
def bLOCK : Nat := 0x400A0000
def bMEM : Nat := 0x400B0000
def bFLASH : Nat := 0x400C0000
def bFUSE : Nat := 0x400D0000
def bSNS : Nat := 0x40100000
def bTRK : Nat := 0x40110000
def bPWM : Nat := 0x40120000
def bLE : Nat := 0x40130000
def bLERAM : Nat := 0x40140000
def bLINK : Nat := 0x40200000
def bOD : Nat := 0x40210000
def bDBG : Nat := 0x40400000

/-- The bases of all register blocks. -/
def blocks : List Nat :=
  [bSYS, bPWR, bRST, bTBASE, bRTC, bINTC, bEVR, bDMA, bQUE, bSHED, bLOCK, bMEM, bFLASH, bFUSE,
   bSNS, bTRK, bPWM, bLE, bLERAM, bLINK, bOD, bDBG]

/-- The base of the 64 KiB block an address lies in. -/
def blkOf (a : Nat) : Nat := a - a % 0x10000

/-- One row of a register table: `count` registers from `base`, `stride` bytes apart, the bits a write stores, and
the reset value. -/
structure Row where
  base : Nat
  stride : Nat := 4
  count : Nat := 1
  mask : Nat
  reset : Nat := 0
deriving DecidableEq, Repr

/-- Whether a register of the row lies at offset `o`. -/
def Row.has (r : Row) (o : Nat) : Bool :=
  decide (r.base ≤ o) && decide ((o - r.base) % r.stride = 0) && decide ((o - r.base) / r.stride < r.count)

/-- The plain live registers of a block (Swap code L, and RW fields of registers without one). -/
def liveRows (b : Nat) : List Row :=
  if b = bSYS then [
    { base := 0x0104, mask := 0x33 }, { base := 0x0108, mask := 0xFFFFFFFF }, { base := 0x010C, mask := 0xFFFFFFFF }]
  else if b = bPWR then [
    { base := 0x0000, mask := 0x80007FF3, reset := 0x200 }, { base := 0x000C, mask := 0x0107FFFF },
    { base := 0x0020, mask := 0xFFFF, reset := 0x8FC }, { base := 0x002C, mask := 0xFFFF },
    { base := 0x0074, mask := 0x3FF }]
  else if b = bRST then [
    { base := 0x0010, count := 4, mask := 0xFFFFFFFF }, { base := 0x0034, mask := 1 },
    { base := 0x0040, mask := 1 }, { base := 0x0044, mask := 0xFFFF }, { base := 0x0048, mask := 0xFFFF },
    { base := 0x004C, mask := 0xFFFF }, { base := 0x0200, count := 96, mask := 0x7F7 }]
  else if b = bTBASE then [
    { base := 0x0000, mask := 0x80000003 }, { base := 0x0108, stride := 0x10, count := 6, mask := 0xFFFFFFFF }]
  else if b = bRTC then [
    { base := 0x0000, mask := 3 }, { base := 0x0020, mask := 0x803F7F7F },
    { base := 0x0024, mask := 0xFFFFFF3F, reset := 0x20000101 }, { base := 0x0030, mask := 0x003F7F7F },
    { base := 0x0034, mask := 0x1F3F, reset := 0x101 }, { base := 0x0038, mask := 0x1F },
    { base := 0x0040, mask := 0xFFFFFFFF }, { base := 0x0044, mask := 0xFFFF }]
  else if b = bINTC then [
    { base := 0x0408, stride := 8, count := 192, mask := 0xF0F, reset := 0xF00 },
    { base := 0x040C, stride := 8, count := 192, mask := 0x103, reset := 0x100 }]
  else if b = bEVR then [
    { base := 0x0108, stride := 0x10, count := 64, mask := 0x103, reset := 0x100 }]
  else if b = bDMA then [
    { base := 0x0100, stride := 0x20, count := 16, mask := 0xFFFFFFFF },
    { base := 0x0104, stride := 0x20, count := 16, mask := 0xFFFFFFFF },
    { base := 0x0108, stride := 0x20, count := 16, mask := 0xFFFF },
    { base := 0x010C, stride := 0x20, count := 16, mask := 0xFFFF031F },
    { base := 0x0500, count := 16, mask := 0xF0 }, { base := 0x0600, count := 16, mask := 0x103, reset := 0x100 }]
  else if b = bQUE then [
    { base := 0x0114, stride := 0x20, count := 32, mask := 0xFFFFFFFF, reset := 0xFFFFFFFF },
    { base := 0x011C, stride := 0x20, count := 32, mask := 0x031F0FFF },
    { base := 0x0600, count := 32, mask := 0x103, reset := 0x100 }]
  else if b = bLOCK then [
    { base := 0x010C, stride := 0x10, count := 32, mask := 0x103, reset := 0x100 }]
  else if b = bMEM then [
    { base := 0x0000, mask := 1, reset := 1 }, { base := 0x0010, mask := 3, reset := 3 },
    { base := 0x0014, mask := 0xFFFFFF, reset := 0xC8 }, { base := 0x0018, mask := 0xFFFFFF, reset := 0x4E20 },
    { base := 0x006C, mask := 0x7F }, { base := 0x0080, count := 6, mask := 0xFFFFFFFF, reset := 0xFFFFFFFF },
    { base := 0x0098, mask := 0xFFFF, reset := 0xFFFF }, { base := 0x009C, mask := 1 }]
  else if b = bFLASH then [
    { base := 0x0000, mask := 0x80000001, reset := 1 }, { base := 0x0010, mask := 0x3FFFFF },
    { base := 0x0014, mask := 0xFFFFFFFF, reset := 0xFFFFFFFF },
    { base := 0x0018, mask := 0xFFFFFFFF, reset := 0xFFFFFFFF }]
  else if b = bFUSE then [{ base := 0x0408, mask := 0x7F }, { base := 0x040C, mask := 0xFFFFFFFF }]
  else if b = bSNS then [
    { base := 0x0000, mask := 0xFFFFFF, reset := 0x186A0 }, { base := 0x0700, count := 32, mask := 0x37F }]
  else if b = bTRK then [{ base := 0x0128, stride := 0x40, count := 16, mask := 0x3F }]
  else if b = bPWM then [
    { base := 0x0018, mask := 0x80000001, reset := 1 },
    { base := 0x011C, stride := 0x40, count := 32, mask := 0xFFFF },
    { base := 0x013C, stride := 0x40, count := 32, mask := 0x11F }]
  else if b = bLE then [
    { base := 0x0104, stride := 0x20, count := 32, mask := 0xFFFF },
    { base := 0x0108, stride := 0x20, count := 32, mask := 0xFFFFFFFF },
    { base := 0x0118, stride := 0x20, count := 32, mask := 0x1FF },
    { base := 0x011C, stride := 0x20, count := 32, mask := 0xFFFFFFFF }]
  else if b = bLINK then [
    { base := 0x0000, mask := 0x80000003, reset := 3 }, { base := 0x000C, mask := 0x70FFF },
    { base := 0x0014, mask := 0x1F }, { base := 0x0050, count := 4, mask := 0xFFFFFF, reset := 0x3E8 },
    { base := 0x00A0, mask := 0xFFFFFF, reset := 0x3D0900 },
    { base := 0x0200, stride := 0x10, count := 4, mask := 0x0FFF0003 },
    { base := 0x0204, stride := 0x10, count := 4, mask := 0xFFFFFF },
    { base := 0x0208, stride := 0x10, count := 4, mask := 0xFFFFFFFF },
    { base := 0x020C, stride := 0x10, count := 4, mask := 0xFFFFFFFF },
    { base := 0x0250, mask := 0x1F1F }, { base := 0x0254, mask := 0xFFFFFF, reset := 0x30D40 },
    { base := 0x0258, mask := 0xFFFFFF, reset := 0x1E8480 }]
  else if b = bOD then [
    { base := 0x0000, mask := 1 }, { base := 0x0008, mask := 0xFFFFFF, reset := 0x30D40 }]
  else if b = bDBG then [
    { base := 0x004C, mask := 0xF }, { base := 0x0100, stride := 0x40, count := 4, mask := 0x300 },
    { base := 0x0108, stride := 0x40, count := 4, mask := 0x7FF },
    { base := 0x0110, stride := 0x40, count := 4, mask := 0xFFFFFFFD },
    { base := 0x0114, stride := 0x40, count := 4, mask := 0xFFFFFFFD },
    { base := 0x0118, stride := 0x40, count := 4, mask := 0xFFFFFFFD },
    { base := 0x011C, stride := 0x40, count := 4, mask := 0xFFFFFFFD },
    { base := 0x0120, stride := 0x40, count := 4, mask := 0xFFFFFFFF },
    { base := 0x0124, stride := 0x40, count := 4, mask := 0xF0F },
    { base := 0x0128, stride := 0x40, count := 4, mask := 0xFFFFFFFF },
    { base := 0x012C, stride := 0x40, count := 4, mask := 0xF0F },
    { base := 0x0130, stride := 0x40, count := 4, mask := 0xFFFFFFFF },
    { base := 0x0134, stride := 0x40, count := 4, mask := 0xFFFFFFFF },
    { base := 0x0138, stride := 0x40, count := 4, mask := 0xFFFFFFFF }]
  else []

/-- The registers of the sets of a block (Swap code S, R795), LE RAM apart. -/
def setRows (b : Nat) : List Row :=
  if b = bSYS then [
    { base := 0x0120, mask := 0x7F07FF }, { base := 0x0124, mask := 0xFFFFFFFF },
    { base := 0x0128, mask := 0xFFFFFF }, { base := 0x012C, mask := 0xFFFFFFFF },
    { base := 0x0130, mask := 0xFFFFFFFF }]
  else if b = bEVR then [
    { base := 0x0020, mask := 0xFFFFFFFF },
    { base := 0x0100, stride := 0x10, count := 64, mask := 0x8733FFFF },
    { base := 0x0104, stride := 0x10, count := 64, mask := 0xFFFFFFFF }]
  else if b = bFLASH then [{ base := 0x0020, mask := 1 }]
  else if b = bSNS then [
    { base := 0x0100, stride := 0x20, count := 32, mask := 0x33F },
    { base := 0x0104, stride := 0x20, count := 32, mask := 0x0FFF0FFF, reset := 0x0FFF0000 },
    { base := 0x0108, stride := 0x20, count := 32, mask := 0xF3F }]
  else if b = bTRK then [
    { base := 0x0100, stride := 0x40, count := 16, mask := 0xF7F },
    { base := 0x0104, stride := 0x40, count := 16, mask := 0xFFFFFFFF }]
  else if b = bPWM then [
    { base := 0x0100, stride := 0x40, count := 32, mask := 0x1F },
    { base := 0x0104, stride := 0x40, count := 32, mask := 0xFFFF },
    { base := 0x0108, stride := 0x40, count := 32, mask := 0x03FF03FF },
    { base := 0x010C, stride := 0x40, count := 32, mask := 0xFF },
    { base := 0x0110, stride := 0x40, count := 32, mask := 3 },
    { base := 0x0114, stride := 0x40, count := 32, mask := 0x00F1FFFF },
    { base := 0x0118, stride := 0x40, count := 32, mask := 0x7F, reset := 0x60 }]
  else if b = bLE then [{ base := 0x0040, count := 8, mask := 0x831F831F }]
  else if b = bLINK then [
    { base := 0x0060, count := 4, mask := 0xFFFF07FF },
    { base := 0x0400, stride := 8, count := 64, mask := 0xFFFFFF1F },
    { base := 0x0404, stride := 8, count := 64, mask := 0xFFFFFFFF }]
  else []

/-- The row of an offset, if one lists it. -/
def findRow (l : List Row) (o : Nat) : Option Row := l.find? (fun r => r.has o)

/-- What a plain live register holds after reset. -/
def liveReset (a : Nat) : Word :=
  match findRow (liveRows (blkOf a)) (a % 0x10000) with
  | some r => wd r.reset
  | none => 0

/-- What a register of the sets holds after reset, in both copies (LE RAM: zero, R169). -/
def setReset (a : Nat) : Word :=
  if blkOf a = bSNS then (if a % 0x20 = 4 then 0x0FFF0000 else 0)
  else if blkOf a = bPWM then (if a % 0x40 = 0x18 then 0x60 else 0)
  else 0

/-- The writable bits of a word of a slot descriptor (R307, R359, R363): reserved bits are never stored (R17). -/
def descMask (i : Nat) : Nat :=
  match i with
  | 0 => 0x03FFFDFF | 1 => 0x7F7F7F7F | 2 => 0xB31FB31F | 3 => 0xB31FB31F | 4 => 0x03FFFFFF
  | 5 => 0x1F1FFFFF | 6 => 0xFFFFFFFF | 8 => 0xFFFFFFFF | 9 => 0x7FFFFFFF | 10 => 0xFFFFFFFF
  | 11 => 0xFFFFFFFF | 12 => 0x3F | _ => 0

/-- A halfword that holds a Q3.12 coefficient: bit 14 is the sign, and a read returns it in bit 15 too (R11). -/
def q312 (h : Nat) : Nat := h % 0x8000 + (if h.testBit 14 then 0x8000 else 0)

/-- What LE RAM stores of a word written at offset `o`: reserved bits 0 (R17), Q3.12 fields sign-extended (R11). -/
def leRamWord (o : Nat) (v : Word) : Word :=
  let lo := wf v 15 0
  let hi := wf v 31 16
  if o < 0x800 then
    let i := o % 0x40 / 4
    let m := v &&& wd (descMask i)
    if i = 8 then wd (q312 lo + 0x10000 * q312 hi)
    else if i = 9 ∨ i = 11 then wd (q312 lo + 0x10000 * wf m 31 16)
    else m
  else if o % 0x100 = 0xFC then 0
  else wd (q312 lo + 0x10000 * q312 hi)

/-- The stored form of a word written to a register of the sets at shadow-view address `a`, if one lies there. -/
def setWord (a : Nat) (v : Word) : Option Word :=
  let o := a % 0x10000
  if blkOf a = bLERAM then
    (if o < 0x2000 ∧ o % 4 = 0 then some (leRamWord o v) else none)
  else
    match findRow (setRows (blkOf a)) o with
    | some r => some (v &&& wd r.mask)
    | none => none

/-- Whether a register of the sets lies at shadow-view address `a`. -/
def isSet (a : Nat) : Bool := (setWord a 0).isSome

/-- Addresses of registers named in the chapters. -/
def aRtCfg (r : Nat) : Nat := bEVR + 0x100 + 0x10 * r
def aRtMask (r : Nat) : Nat := bEVR + 0x104 + 0x10 * r
def aRtOwn (r : Nat) : Nat := bEVR + 0x108 + 0x10 * r
def aSnsCfg (n : Nat) : Nat := bSNS + 0x100 + 0x20 * n
def aSnsThr (n : Nat) : Nat := bSNS + 0x104 + 0x20 * n
def aSnsCmp (n : Nat) : Nat := bSNS + 0x108 + 0x20 * n
def aSnsIen (n : Nat) : Nat := bSNS + 0x700 + 4 * n
def aTrkCfg (n : Nat) : Nat := bTRK + 0x100 + 0x40 * n
def aTrkMod (n : Nat) : Nat := bTRK + 0x104 + 0x40 * n
def aTrkIen (n : Nat) : Nat := bTRK + 0x128 + 0x40 * n
def aPwm (n i : Nat) : Nat := bPWM + 0x100 + 0x40 * n + 4 * i
def aPwmGctl : Nat := bPWM + 0x18
def aLe (n i : Nat) : Nat := bLE + 0x100 + 0x20 * n + 4 * i
def aArena (k : Nat) : Nat := bLE + 0x40 + 4 * k
def aDesc (n i : Nat) : Nat := bLERAM + 0x40 * n + 4 * i
def aPage (p i : Nat) : Nat := bLERAM + 0x800 + 0x100 * p + 4 * i
def aScfg (s : Nat) : Nat := bINTC + 0x400 + 8 * s
def aIown (s : Nat) : Nat := bINTC + 0x404 + 8 * s
def aDma (k i : Nat) : Nat := bDMA + 0x100 + 0x20 * k + 4 * i
def aDmaIen (k : Nat) : Nat := bDMA + 0x500 + 4 * k
def aDmaOwn (k : Nat) : Nat := bDMA + 0x600 + 4 * k
def aQueEw (q : Nat) : Nat := bQUE + 0x114 + 0x20 * q
def aQueIen (q : Nat) : Nat := bQUE + 0x11C + 0x20 * q
def aQueOwn (q : Nat) : Nat := bQUE + 0x600 + 4 * q
def aLockOwn (n : Nat) : Nat := bLOCK + 0x10C + 0x10 * n
def aAttr (j : Nat) : Nat := bMEM + 0x80 + 4 * j
def aPinCfg (p : Nat) : Nat := bRST + 0x200 + 4 * p
def aEntry (c : Nat) : Nat := bRST + 0x10 + 4 * c
def aBootSel : Nat := bRST + 0x34
def aOwlCtl : Nat := bRST + 0x40
def aOwlTo : Nat := bRST + 0x44
def aOwlWin : Nat := bRST + 0x48
def aOwlEw : Nat := bRST + 0x4C
def aPwrCtl : Nat := bPWR
def aPaceTgt : Nat := bPWR + 0x20
def aSwBank : Nat := bFLASH + 0x20
def aDbgC (c i : Nat) : Nat := bDBG + 0x100 + 0x40 * c + 4 * i

end Sys2Proof.Machine
end

