-- ==== Sys2Proof/Machine/Ops.lean ====
section
/-! DEFINITION. The shared operations over the state: access to the plain registers and the arrays of units, time,
interrupt requests, the event router's evaluation, violation records. -/
namespace Sys2Proof.Machine

/-- How a meaning answers: the next state, with the queue as it is. -/
def State.run (s : State) (f : Device → Device) : Host.Outcome State Fault Refusal :=
  .next { s with dev := f s.dev }

/-- The initiator index of R133. -/
def whoIdx : Who → Nat
  | .core c => c.val
  | .loop => 4
  | .link => 5
  | .dma _ => 6
  | .od => 7
  | .debug => 8

/-! ### Tags (R130 to R133) -/

/-- The number of tags initiator `i` may hold (R130). -/
def tagCap (i : Nat) : Nat := if i < 6 then 8 else if i = 6 then 4 else 2

/-- Where the access of initiator `i`'s engine stands. -/
def Device.engOf (d : Device) (i : Nat) : Eng := d.fabEng.get (fun _ => .idle) i
/-- Set it. -/
def Device.setEng (d : Device) (i : Nat) (e : Eng) : Device := { d with fabEng := d.fabEng.set (fun _ => .idle) i e }

/-- The elements that the DMA channels have in flight (R649). -/
def Device.dmaInFlight (d : Device) : Nat := (d.dma.map (fun e => e.2.buf.length)).foldl (fun n m => n + m) 0

/-- The tags initiator `i` holds: those of its register requests, that of its engine's access, those of the DMA elements in
flight (R130). -/
def Device.tagsOf (d : Device) (i : Nat) : Nat :=
  (d.waits.filter (fun w => w.tag && !w.eng && decide (whoIdx w.who = i))).length + (if d.engOf i = .held then 1 else 0)
    + (if i = 6 then d.dmaInFlight else 0)

/-- An access of initiator `i`'s engine gets no tag (R131). -/
def Device.tagBars (d : Device) (i : Nat) : Bool := decide (d.engOf i ≠ .held) && decide (tagCap i ≤ d.tagsOf i)

/-- A request of initiator `i` has waited at the cap (R131, R133). -/
def Device.countWait (d : Device) (i : Nat) : Device :=
  { d with fabWaitCnt := d.fabWaitCnt.set (fun _ => 0) i (wd (satInc 32 (d.fabWaitCnt.get (fun _ => 0) i).toNat)) }

/-- The access of initiator `i`'s engine does not complete yet: it holds a tag, or waits for one at the cap (R131). -/
def Device.engWait (d : Device) (i : Nat) : Device :=
  if d.tagBars i then (if d.engOf i = .barred then d else (d.countWait i).setEng i .barred) else d.setEng i .held

/-- A request of initiator `i` waits for a tag. -/
def Device.queued (d : Device) (i : Nat) : Bool := d.waits.any (fun w => !w.tag && decide (whoIdx w.who = i))

/-- The initiator whose tag a piece of work waits for; one that waits for the shed waits for none. -/
def LinkWork.tagOf : LinkWork → Option Nat
  | .put who _ _ _ => some (whoIdx who)
  | .ans _ => some 7
  | .store _ => none

/-- Work of initiator `i` waits for a tag. -/
def Device.worksFor (d : Device) (i : Nat) : Bool := d.link.work.any (fun w => decide (w.tagOf = some i))

/-- An initiator's next request has no tag: at the cap of its tags, or behind one that waits there (R131). -/
def Device.noTag (d : Device) (i : Nat) : Bool := d.queued i || d.worksFor i || decide (tagCap i ≤ d.tagsOf i)

/-- A register write that waits at its unit: it is accepted and completes later (R181); at the cap it waits for its tag first
(R131). -/
def Device.postReq (d : Device) (who : Who) (a : Nat) (v : Word) (r : Req) : Device :=
  let bar := d.noTag (whoIdx who)
  let d := if bar then d.countWait (whoIdx who) else d
  { d with waits := d.waits ++ [{ who := who, addr := a, put := some v, tag := !bar, req := r }] }

/-- A block of memory accesses of initiator `i` waits: at the cap of its tags, or behind one that waits there (R131). -/
def Device.mustWait (d : Device) (i : Nat) : Bool := d.tagBars i || d.worksFor i

/-- The work `w` of initiator `i` waits for a tag and is counted (R131). -/
def Device.workLater (d : Device) (i : Nat) (w : LinkWork) : Device :=
  let d := d.countWait i
  { d with link := { d.link with work := d.link.work ++ [w] } }

/-- An engine's access stands at its unit (R890): it stays there when its command is sent again. -/
def Device.addJoin (d : Device) (w : Wait) : Device :=
  if d.waits.any (fun x => x.eng && decide (whoIdx x.who = whoIdx w.who)) then d else { d with waits := d.waits ++ [w] }

/-- The answer that has come for the access at `a` which the engine of initiator `i` makes again. -/
def Device.engTake (d : Device) (i a : Nat) (put : Option Word) : Option Acc :=
  match d.engOf i with
  | .answered b p r => if b = a ∧ p = put then some r else none
  | _ => none

/-- The engine of initiator `i` makes its access anew: an answer that has come for it stays. -/
def Device.engBegin (d : Device) (i : Nat) : Device :=
  match d.engOf i with | .held | .barred => d.setEng i .idle | _ => d

/-- The access of initiator `i`'s engine has ended. -/
def Device.engDone (d : Device) (i : Nat) : Device := if d.engOf i = .idle then d else d.setEng i .idle

/-! ### Plain registers -/

/-- The plain live register at address `a`. -/
def Device.lv (d : Device) (a : Nat) : Word := d.rw.get liveReset a
/-- Store a plain live register (masked by its caller). -/
def Device.setLv (d : Device) (a : Nat) (v : Word) : Device := { d with rw := d.rw.set liveReset a v }
/-- The active copy of the register of the sets at shadow-view address `a` (R22). -/
def Device.act (d : Device) (a : Nat) : Word := d.active.get setReset a
/-- The shadow copy of the register of the sets at shadow-view address `a`. -/
def Device.shd (d : Device) (a : Nat) : Word := d.shadow.get setReset a

/-! ### Arrays of units -/

def Device.snsC (d : Device) (n : Nat) : SnsCh := d.sns.get (fun _ => {}) n
def Device.setSns (d : Device) (n : Nat) (c : SnsCh) : Device := { d with sns := d.sns.set (fun _ => {}) n c }
def Device.trkC (d : Device) (n : Nat) : TrkCh := d.trk.get (fun _ => {}) n
def Device.setTrk (d : Device) (n : Nat) (c : TrkCh) : Device := { d with trk := d.trk.set (fun _ => {}) n c }
def Device.pwmC (d : Device) (n : Nat) : PwmCh := d.pwm.get (fun _ => {}) n
def Device.setPwm (d : Device) (n : Nat) (c : PwmCh) : Device := { d with pwm := d.pwm.set (fun _ => {}) n c }
def Device.slotC (d : Device) (n : Nat) : LeSlot := d.le.slot.get (fun _ => {}) n
def Device.setSlot (d : Device) (n : Nat) (c : LeSlot) : Device :=
  { d with le := { d.le with slot := d.le.slot.set (fun _ => {}) n c } }
def Device.coreC (d : Device) (c : Nat) : Core := d.core.get core0 c
def Device.setCore (d : Device) (c : Nat) (k : Core) : Device := { d with core := d.core.set core0 c k }
def Device.queC (d : Device) (q : Nat) : Que := d.que.get que0 q
def Device.setQue (d : Device) (q : Nat) (k : Que) : Device := { d with que := d.que.set que0 q k }
def Device.lockC (d : Device) (n : Nat) : Lock := d.lock.l.get (fun _ => {}) n
def Device.setLock (d : Device) (n : Nat) (k : Lock) : Device :=
  { d with lock := { d.lock with l := d.lock.l.set (fun _ => {}) n k } }
def Device.bufC (d : Device) (i : Nat) : Buf := d.shed.buf.get (fun _ => {}) i
def Device.setBuf (d : Device) (i : Nat) (b : Buf) : Device :=
  { d with shed := { d.shed with buf := d.shed.buf.set (fun _ => {}) i b } }
def Device.dmaC (d : Device) (k : Nat) : DmaCh := d.dma.get (fun _ => {}) k
def Device.setDma (d : Device) (k : Nat) (c : DmaCh) : Device := { d with dma := d.dma.set (fun _ => {}) k c }
def Device.cmpC (d : Device) (k : Nat) : Cmp := d.time.cmp.get (fun _ => {}) k
def Device.setCmp (d : Device) (k : Nat) (c : Cmp) : Device :=
  { d with time := { d.time with cmp := d.time.cmp.set (fun _ => {}) k c } }
def Device.dbgC (d : Device) (c : Nat) : DbgCore := d.dbg.core.get (fun _ => {}) c
def Device.setDbgC (d : Device) (c : Nat) (k : DbgCore) : Device :=
  { d with dbg := { d.dbg with core := d.dbg.core.set (fun _ => {}) c k } }
/-- A fuse word as loaded (R705). -/
def Device.fuseW (d : Device) (w : Nat) : Word := d.fuse.shadow.get fuse0 w

/-! ### Time -/

/-- TBASE_NOW as a number. -/
def Device.nowN (d : Device) : Nat := d.time.now.toNat
/-- Move TBASE_NOW forward to tick `t` when it lies ahead (log 3). -/
def Device.advTo (d : Device) (t : Nat) : Device :=
  if d.nowN < t then { d with time := { d.time with now := BitVec.ofNat 64 t } } else d

/-- LINK_HPER[k] of the head, in ticks (R764). -/
def Device.hper (d : Device) (k : Nat) : Nat := wf (d.lv (bLINK + 0x204 + 0x10 * k)) 23 0
/-- The tick in which the next yard of stream `k` falls due. -/
def Device.hdueOf (d : Device) (k : Nat) : Option Nat := d.link.hdue.get (fun _ => none) k
def Device.setHdue (d : Device) (k : Nat) (t : Option Nat) : Device :=
  { d with link := { d.link with hdue := d.link.hdue.set (fun _ => none) k t } }

/-- The yards that fell due in crystal fallback are not sent (R766): the next one of each stream is the first after it. -/
def Device.yardsSkip (d : Device) : Device :=
  (List.range 4).foldl (fun d k =>
    match d.hdueOf k with
    | some t =>
      let p := d.hper k
      if t < d.nowN ∧ p ≠ 0 then d.setHdue k (some (t + p * ((d.nowN - t + p - 1) / p))) else d
    | none => d) d

/-- What has taken place in the present tick so far. -/
def Device.here (d : Device) : Same := if d.same.tick = d.nowN then d.same else { tick := d.nowN }
/-- Note something that takes place in the present tick. -/
def Device.note (d : Device) (f : Same → Same) : Device := { d with same := f d.here }

/-- A fresh free-value index (log 7). -/
def Device.fresh (d : Device) : Device := { d with free := d.free + 1 }

/-! ### What an access returns -/

/-- Record the data and the response of an initiator's access. -/
def Device.answer (d : Device) (who : Who) (v : Word) (r : Resp) : Device :=
  { d with rdata := d.rdata.set (fun _ => 0) (whoIdx who) v, resp := d.resp.set (fun _ => .ok) (whoIdx who) r }

/-! ### Interrupt requests -/

/-- Source `s` is a level source (R554). -/
def isLevelSrc (s : Nat) : Bool := decide (181 ≤ s) && decide (s ≤ 188)

/-- The pending bit of an edge source. -/
def Device.setPend (d : Device) (s : Nat) (b : Bool) : Device :=
  { d with intc := { d.intc with
      pend := if b then d.intc.pend ||| BitVec.twoPow 193 s else d.intc.pend &&& ~~~ (BitVec.twoPow 193 s) } }

/-- Source `s` is raised in the tick of the PCLR that withdrew its reservation: it has stayed pending, and the reservation
stands (R566, R584). -/
def Device.unwithdraw (d : Device) (s : Nat) : Device :=
  let sc := d.lv (aScfg s)
  let here := fun (c : Nat) => d.here.gone.any (fun x => decide (x.1 = c) && x.2.2) && decide (wf sc 3 0 ≠ 0) && wb sc (8 + c)
  { d with intc := { d.intc with resv := d.intc.resv.map (fun x => (x.1, x.2.map (fun r =>
      if decide (r.src = s) && here x.1 then { r with withdrawn := false } else r))) } }

/-- A unit raises interrupt source `s` (R555): an edge source becomes or stays pending. -/
def Device.raiseIrq (d : Device) (s : Nat) : Device :=
  if 1 ≤ s ∧ s ≤ 192 ∧ isLevelSrc s = false then
    ((d.note (fun h => { h with irqs := h.irqs ||| BitVec.twoPow 193 s })).setPend s true).unwithdraw s
  else d

/-- Raise source `s` when `b` holds. -/
def Device.raiseIf (d : Device) (b : Bool) (s : Nat) : Device := if b then d.raiseIrq s else d

/-- Whether hardware setting the bits `set` of a status word raises its source: a bit that changes from 0 to 1 has
its enable bit 1 (R894). -/
def newFlag (old set ien : Word) : Bool := (set &&& ~~~ old &&& ien) != 0

/-- The bits of the W1C register at `a` that hardware has set in the present tick. -/
def Device.hwBits (d : Device) (a : Nat) : Word := d.here.flags.get (fun _ => 0) a

/-- Hardware sets the bits `b` of the W1C register at `a` in the present tick (R28). -/
def Device.hwFlag (d : Device) (a : Nat) (b : Word) : Device :=
  d.note (fun h => { h with flags := h.flags.set (fun _ => 0) a (h.flags.get (fun _ => 0) a ||| b) })

/-- Hardware sets the bits `b` of the W1C register at `a`, which held `old`; source `s` is raised by the enable bits
`ien` (R28, R894). -/
def Device.flagUp (d : Device) (a : Nat) (old b ien : Word) (s : Nat) : Device :=
  (d.hwFlag a b).raiseIf (newFlag old b ien) s

/-- The bits of the W1C register at `a` that a write of `v` clears: none that hardware has set in this tick (R28). -/
def Device.w1c (d : Device) (a : Nat) (v : Word) : Word := v &&& ~~~ (d.hwBits a)

/-- A write of `v` to the W1C register at `a` meets a bit that hardware sets in this tick: its source is raised (R894). -/
def Device.flagKept (d : Device) (a : Nat) (v ien : Word) (s : Nat) : Device :=
  d.raiseIf ((v &&& d.hwBits a &&& ien) != 0) s

/-! ### Violation records (R543, R712, R713) -/

/-- Record a lock violation (R712): counted, the record of one tick held by the highest initiator (R713). -/
def Device.lockViolation (d : Device) (who : Who) (a kind : Nat) : Device :=
  let s := d.sys
  let keep := decide (s.lockTick = some d.time.now) && decide (whoIdx who < wf s.lockVInfo 3 0)
  let s := { s with lockViol := wd (satInc 32 s.lockViol.toNat), lockTick := some d.time.now }
  let s := if keep then s else { s with lockVAddr := wd a, lockVInfo := wd (whoIdx who + 0x100 * kind) }
  { d with sys := s }.raiseIrq 175

/-- Record a domain violation (R543) with its code SUB (R546). -/
def Device.domViolation (d : Device) (who : Who) (a sub : Nat) (wr : Bool) : Device :=
  let s := d.sys
  let keep := decide (s.domTick = some d.time.now) && decide (whoIdx who < wf s.domInfo 3 0)
  let s := { s with domViol := wd (satInc 32 s.domViol.toNat), domTick := some d.time.now }
  let s := if keep then s else
    { s with domAddr := wd a, domInfo := wd (whoIdx who + 0x100 * sub + (if wr then 0x10000 else 0)) }
  { d with sys := s }

/-! ### Mixed registers (R889) -/

/-- A write of a register that holds a WONCE lock in bit 31, RWL fields `rwl` under that lock and plain fields `rw`:
each locked field acts only where the write would change it (R889).  A write that would change both the spent lock and a
locked field is one violation, of KIND 0 (DESIGN CHOICE, log 112: R154, R710 and R889 name no order). -/
def Device.mixedWrite (d : Device) (who : Who) (a : Nat) (rwl rw v : Word) : Device :=
  let p := d.lv a
  let spent := d.spent.get (fun _ => false) a
  let chgL := wb v 31 != wb p 31
  let chgR := (v &&& rwl) != (p &&& rwl)
  let badL := chgL && spent
  let badR := chgR && wb p 31
  let q := maskW rw p v
  let q := if chgR && !badR then maskW rwl q v else q
  let q := if chgL && !badL then setB q 31 (wb v 31) else q
  let d := d.setLv a q
  let d := if chgL && !badL then { d with spent := d.spent.set (fun _ => false) a true } else d
  if badL then d.lockViolation who a 0 else if badR then d.lockViolation who a 1 else d

/-! ### Modes -/

/-- What holds back a warm reset beyond its row `t` ends in the present tick: the later rows move by the same amount (R173,
R174, R709, R893). -/
def Device.warmLag (d : Device) (t : Nat) : Device :=
  if d.rst.phase = .warm then { d with rst := { d.rst with warmAt := max d.rst.warmAt (d.nowN - t) } } else d

/-- VCORE is present: the units outside the backup domain can be signalled. -/
def Device.powered (d : Device) : Bool :=
  match d.rst.phase with
  | .bootRead | .run | .warm => true
  | _ => false

/-- The units outside the backup domain and the reset controller run: no device reset is in progress. -/
def Device.unitsUp (d : Device) : Bool :=
  match d.rst.phase with
  | .bootRead | .run => true
  | _ => false

/-- FREEZE is in force (R826, R849). -/
def Device.frozen (d : Device) : Bool := d.dbg.inForce

/-- The device is in PARK or SLEEP (R136). -/
def Device.parked (d : Device) : Bool := d.pwr.mode != .run

/-- The outputs are in the trip state because of PARK or SLEEP: once the running evaluations have completed (R139). -/
def Device.outOff (d : Device) : Bool := d.parked && !d.pwr.parkWait

/-- SAFE_n is low or the below-floor SAFE action is in force (R891). -/
def Device.safeIn (d : Device) : Bool := d.rst.safeLow || d.pwr.safeAct

/-! ### The event router's evaluation (R384 to R389) -/

/-- The level of an event source apart from its pulses (R384). -/
def Device.srcLevel (d : Device) (s : Nat) : Bool :=
  if s < 32 then false
  else if s < 64 then (d.snsC (s - 32)).filtH
  else if s < 96 then (d.snsC (s - 64)).filtL
  else if s < 224 then false
  else if s < 240 then d.evr.sw.getLsbD (s - 224)
  else if s < 248 then d.rst.gpFilt.getLsbD (s - 240)
  else if s = 249 then d.rst.safeLow
  else if s = 250 then d.pwr.episode
  else false

/-- The gated signal of a route with configuration `cfg` under the source levels `lv` (R388). -/
def routeG (cfg : Word) (lv : Nat → Bool) : Bool :=
  wb cfg 31 && (if wb cfg 16 then lv (wf cfg 7 0) && (lv (wf cfg 15 8) != wb cfg 17) else lv (wf cfg 7 0))

/-- The output of a route from the gated signal before and in the tick (R389). -/
def routeOut (cfg : Word) (g0 g1 : Bool) : Bool :=
  match wf cfg 21 20 with
  | 0 => g1
  | 1 => !g0 && g1
  | 2 => g0 && !g1
  | _ => g0 != g1

/-- The configuration of route `r` in force. -/
def Device.rtCfg (d : Device) (r : Nat) : Word := d.act (aRtCfg r)

/-- The gated signal in the tick before tick `x`. -/
def RouteSig.gBefore (t : RouteSig) (x : Nat) : Bool :=
  if x ≤ t.tick then t.g0 else if x = t.tick + 1 then t.g1 else t.g2

/-- The output in the tick before tick `x`. -/
def RouteSig.oBefore (t : RouteSig) (x : Nat) : Bool :=
  if x ≤ t.tick then t.o0 else if x = t.tick + 1 then t.o1 else if x = t.tick + 2 then t.o2 else t.o3

/-- The output in the ticks that differ, from the tick of the evaluation on. -/
def RouteSig.outs (t : RouteSig) : List (Nat × Bool) := [(t.tick, t.o1), (t.tick + 1, t.o2), (t.tick + 2, t.o3)]

/-- The output rises in tick `x` (R389). -/
def RouteSig.rises (t : RouteSig) (x : Nat) : Bool :=
  (decide (x = t.tick) && !t.o0 && t.o1) || (decide (x = t.tick + 1) && !t.o1 && t.o2)
    || (decide (x = t.tick + 2) && !t.o2 && t.o3)

/-- How often the output rises from tick `a` on and before tick `b`. -/
def RouteSig.risesIn (t : RouteSig) (a b : Nat) : Nat :=
  ((List.range 3).filter (fun i => decide (a ≤ t.tick + i) && decide (t.tick + i < b) && t.rises (t.tick + i))).length

/-- The signals of a route with configuration `cfg` in tick `x` with source levels `lv1`, followed by ticks with levels
`lv2`, from its signals before (R388, R389); with `ref` it takes g of the tick as its reference (R404). -/
def RouteSig.next (t : RouteSig) (cfg : Word) (lv1 lv2 : Nat → Bool) (x : Nat) (ref : Bool) : RouteSig :=
  let g1 := routeG cfg lv1
  let g2 := routeG cfg lv2
  let g0 := if ref then g1 else t.gBefore x
  { tick := x, ref := ref, g0 := g0, g1 := g1, g2 := g2,
    o0 := t.oBefore x, o1 := routeOut cfg g0 g1, o2 := routeOut cfg g1 g2, o3 := routeOut cfg g2 g2 }

/-- What is sent for an output whose level was sent as `sent` and that takes the levels `l` in their ticks. -/
def outSends (route kind : Nat) (mask : Word) : Option Bool → List (Nat × Bool) → List Flight
  | _, [] => []
  | sent, (x, o) :: l =>
    if sent = some o then outSends route kind mask sent l
    else { route := route, out := if o then .rise else .fall, tick := x, kind := kind, mask := mask }
      :: outSends route kind mask (some o) l

/-- The level of route `r`'s output that its destinations have seen once the deliveries `fly` have come; none where only some of them
have it (R405). -/
def Device.sentLevel (d : Device) (fly : List Flight) (r : Nat) : Option Bool :=
  match (fly.filter (fun f => decide (f.route = r))).getLast? with
  | some f => some (decide (f.out = .rise))
  | none =>
    match d.evr.dl.get (fun _ => none) r with
    | none => some false
    | some v => if v = (wf (d.rtCfg r) 26 24, d.act (aRtMask r)) then some true else none

/-- The rises of route `r`'s output before tick `b` (R389). -/
def Device.rtCount (d : Device) (r b : Nat) : Nat :=
  d.evr.cnt.get (fun _ => 0) r + (d.evr.sig.get (fun _ => {}) r).risesIn (d.evr.cntAt.get (fun _ => 0) r) b

/-- Route `r` takes the signals `t` from tick `x` on: its count up to there, and what it sends in place of what it was to send
from that tick on (R389, R393). -/
def Device.putSig (d : Device) (r x : Nat) (t : RouteSig) : Device :=
  let cfg := d.rtCfg r
  let fly := d.evr.fly.filter (fun f => !(decide (f.route = r) && decide (x ≤ f.tick)))
  let new := if wf cfg 26 24 = 0 then [] else
    outSends r (wf cfg 26 24) (d.act (aRtMask r)) (d.sentLevel fly r) t.outs
  { d with evr := { d.evr with
      sig := d.evr.sig.set (fun _ => {}) r t,
      cnt := d.evr.cnt.set (fun _ => 0) r (d.rtCount r x),
      cntAt := d.evr.cntAt.set (fun _ => 0) r (max x (d.evr.cntAt.get (fun _ => 0) r)),
      fly := fly ++ new } }

/-- Evaluate route `r` in the present tick with levels `lv1`, followed by ticks with levels `lv2`. -/
def Device.evalRoute (d : Device) (lv1 lv2 : Nat → Bool) (r : Nat) : Device :=
  let t := d.evr.sig.get (fun _ => {}) r
  d.putSig r d.nowN (t.next (d.rtCfg r) lv1 lv2 d.nowN (t.ref && decide (t.tick = d.nowN)))

/-- The routes that are enabled or still carry a signal. -/
def Device.liveRoutes (d : Device) : List Nat :=
  (List.range 64).filter (fun r =>
    wb (d.rtCfg r) 31 || (let t := d.evr.sig.get (fun _ => {}) r; t.g0 || t.g1 || t.g2 || t.o0 || t.o1 || t.o2 || t.o3))

/-- The level of source `s` as the routes see it in the present tick (R384, R385). -/
def Device.srcSeen (d : Device) (s : Nat) : Bool := d.srcLevel s || d.here.pulses.elem s

/-- Raise the pulse sources `ps` in the present tick; with none, the routes see the present levels (R385). The router stands
still while a device reset is in progress. -/
def Device.raiseEvents (d : Device) (ps : List Nat) : Device :=
  if !d.unitsUp then d else
  let d := if ps = [] then d else d.note (fun h => { h with pulses := h.pulses ++ ps })
  let lv2 := fun s => d.srcLevel s
  let lv1 := fun s => d.srcSeen s
  d.liveRoutes.foldl (fun d' r => d'.evalRoute lv1 lv2 r) d

/-- Raise one event source. -/
def Device.raiseEvent (d : Device) (s : Nat) : Device := d.raiseEvents [s]

/-- A level source has changed: the routes see it. -/
def Device.levelsChanged (d : Device) : Device := d.raiseEvents []

/-- A ledger record falls due (R148, R694): with none due before, the power manager begins to write it in this tick. -/
def Device.recDue (d : Device) (x : LedgerDue) : Device :=
  let d := if d.pwr.due = [] then d.note (fun h => { h with recDue := true }) else d
  { d with pwr := { d.pwr with due := d.pwr.due ++ [x] } }

end Sys2Proof.Machine
end

