-- ==== Sys2Proof/Machine/Mem.lean ====
section
/-! DEFINITION. The memories (R53, R442 to R445, R587 to R595, R665 to R703): bytes and ECC, domains, the merge
buffer, the coherent D-caches with their eviction buffers, the scrubber, the self-test. -/
namespace Sys2Proof.Machine

/-! ### Regions (R53, R665, R666, R701) -/

/-- The region an address lies in, under its MEM_IDLE bit number: 0, 1 flash banks, 2 main SRAM, 3 shed data, 4 + c
local SRAM of core c (R53, R701). -/
def memRegion (a : Nat) : Option Nat :=
  if a < 0x200000 then some 0
  else if a < 0x400000 then some 1
  else if 0x10000000 ≤ a ∧ a < 0x10080000 then some 2
  else if 0x20000000 ≤ a ∧ a < 0x20020000 then some 3
  else if 0x10100000 ≤ a ∧ a < 0x10140000 then some (4 + (a - 0x10100000) / 0x10000)
  else none

/-- The first and the last address plus 1 of a region. -/
def regionBounds (r : Nat) : Nat × Nat :=
  match r with
  | 0 => (0, 0x200000) | 1 => (0x200000, 0x400000) | 2 => (0x10000000, 0x10080000) | 3 => (0x20000000, 0x20020000)
  | _ => (0x10100000 + (r - 4) * 0x10000, 0x10110000 + (r - 4) * 0x10000)

/-- The address lies in register blocks' space, whether or not a block stands there (R55). -/
def isRegSpace (a : Nat) : Bool := decide (0x40000000 ≤ a) && decide (a < 0x40500000)

/-- The memory kind of R673 of an address of a memory region. -/
def eccKind (a : Nat) : Nat :=
  match memRegion a with
  | some 0 => 0 | some 1 => 0 | some 2 => 1 | some 3 => 3 | _ => 2

/-- The address is cached by the D-caches (R442). -/
def isCached (a : Nat) : Bool := match memRegion a with | some r => decide (r < 4) | none => false
/-- The address lies in main SRAM or shed data, behind the merge buffer and the directory (R587, R676). -/
def isShared (a : Nat) : Bool := match memRegion a with | some r => decide (r = 2) || decide (r = 3) | none => false

/-- The granule of the address is trusted (R666, R714). -/
def Device.memTrusted (d : Device) (a : Nat) : Bool :=
  match memRegion a with
  | some 0 | some 1 => wb (d.lv (aAttr (a / 0x100000))) (a / 0x8000 % 32)
  | some 2 => wb (d.lv (aAttr 4)) ((a - 0x10000000) / 0x4000)
  | some 3 => wb (d.lv (aAttr 6)) ((a - 0x20000000) / 0x2000)
  | some _ => wb (d.lv (aAttr 5)) ((a - 0x10100000) / 0x2000)
  | none => true

/-- The address lies in a region marked idle (R701). -/
def Device.memIdle (d : Device) (a : Nat) : Bool :=
  match memRegion a with | some r => d.mem.idle.getLsbD r | none => false

/-- The bank of the address is being programmed or erased (R695). -/
def Device.flashBusy (d : Device) (a : Nat) : Bool :=
  match d.flash.cmd with
  | some (_, t, _) => !d.flash.held && decide (a < 0x400000) && decide (a / 0x200000 = t / 0x200000)
  | none => false

/-- A command that has been accepted targets bank `b` (R700, R702). -/
def Device.flashTargets (d : Device) (b : Nat) : Bool :=
  match d.flash.cmd with
  | some (_, t, _) => decide (t / 0x200000 = b)
  | none => false

/-! ### Bytes and doublewords -/

/-- The byte stored at an address; undefined flash contents are free values (log 8). -/
def Device.rdByte (d : Device) (a : Nat) : Byte :=
  let p := d.mem.undefPage.get (fun _ => 0) (a / 0x2000)
  let w := d.mem.undefDw.get (fun _ => 0) (a / 8)
  if a < 0x400000 ∧ p ≠ 0 then Config.freeByte ((p - 1) * 0x400000 + a)
  else if a < 0x400000 ∧ w ≠ 0 then Config.freeByte ((w - 1) * 0x400000 + a)
  else Tab.get byte0 d.mem.cells a

/-- Store a byte. -/
def Device.wrByte (d : Device) (a : Nat) (b : Byte) : Device :=
  { d with mem := { d.mem with cells := Tab.set byte0 d.mem.cells a b } }

/-- The doubleword at an address, little-endian (R8). -/
def Device.rdDw (d : Device) (a : Nat) : DWord :=
  BitVec.ofNat 64 (leNat ((List.range 8).map (fun i => d.rdByte (a + i))))

/-- Store a doubleword. -/
def Device.wrDw (d : Device) (a : Nat) (v : DWord) : Device :=
  (List.range 8).foldl (fun d i => d.wrByte (a + i) ((v >>> (8 * i)).setWidth 8)) d

/-- The ECC state of the doubleword at `a`. -/
def Device.eccOf (d : Device) (a : Nat) : Ecc := d.mem.ecc.get (fun _ => .good) a
/-- Put the ECC state of a word. -/
def Device.setEcc (d : Device) (a : Nat) (e : Ecc) : Device :=
  { d with mem := { d.mem with ecc := d.mem.ecc.set (fun _ => .good) a e } }

/-- The address of the doubleword an address lies in. -/
def dwOf (a : Nat) : Nat := a - a % 8

/-- `old` with `n` bytes from byte `o` replaced by the low bytes of `v`. -/
def insBytes (old : DWord) (o n : Nat) (v : Nat) : DWord :=
  let m : DWord := BitVec.ofNat 64 ((2 ^ (8 * n) - 1) * 2 ^ (8 * o))
  (old &&& ~~~ m) ||| (BitVec.ofNat 64 (v * 2 ^ (8 * o)) &&& m)

/-- `n` bytes from byte `o` of a doubleword. -/
def exBytes (v : DWord) (o n : Nat) : Word := wd (v.toNat / 2 ^ (8 * o) % 2 ^ (8 * n))

/-! ### Error accounting (R673) -/

/-- A correction in memory kind `k` at `a` (R673). -/
def Device.countCe (d : Device) (k a : Nat) : Device :=
  let m := d.mem
  ({ d with mem := { m with ce := m.ce.set (fun _ => 0) k (satInc 16 (m.ce.get (fun _ => 0) k)), ceAddr := wd a } }).raiseIf
    (wb (d.lv (bMEM + 0x6C)) k) 173

/-- An uncorrectable error in memory kind `k` at `a`, met by initiator `init` with source `src` (R673, R714). -/
def Device.countUe (d : Device) (k a init src : Nat) : Device :=
  let m := d.mem
  ({ d with mem := { m with
    ue := m.ue.set (fun _ => 0) k (satInc 16 (m.ue.get (fun _ => 0) k)),
    ueAddr := wd a, ueInfo := wd (k + 0x10 * init + 0x100 * src) } }).raiseIrq 174

/-- The ECC check of the doubleword at `a` (R669, R670): corrected where one bit is wrong; true where uncorrectable. -/
def Device.eccCheck (d : Device) (a init src : Nat) : Device × Bool :=
  match d.eccOf a with
  | .good => (d, false)
  | .single => ((if a < 0x400000 then d else d.setEcc a .good).countCe (eccKind a) a, false)
  | .bad => (d.countUe (eccKind a) a init src, true)

/-! ### The merge buffer (R676 to R681) -/

/-- MEM_MERGE_CTL.EN. -/
def Device.mergeOn (d : Device) : Bool := wb (d.lv bMEM) 0

/-- The entry that holds the doubleword at `a`. -/
def Device.mergeAt (d : Device) (a : Nat) : Option Merge := d.mem.merge.find? (fun m => decide (m.addr = a))

/-- The bits of the bytes of a mask. -/
def maskBits (m : BitVec 8) : DWord :=
  BitVec.ofNat 64 ((List.range 8).foldl (fun s i => if m.getLsbD i then s + 0xFF * 2 ^ (8 * i) else s) 0)

/-- Memory's doubleword under an entry's bytes (R680). -/
def Merge.over (m : Merge) (v : DWord) : DWord := (v &&& ~~~ (maskBits m.mask)) ||| (m.data &&& maskBits m.mask)

/-- A read-modify-write of the doubleword at `a` by `f` (R676, R679, R681): it is written poisoned where its read is
uncorrectable. -/
def Device.rmw (d : Device) (a init src : Nat) (f : DWord → DWord) : Device :=
  let r := d.eccCheck a init src
  (r.1.wrDw a (f (d.rdDw a))).setEcc a (if r.2 then .bad else .good)

/-- Flush an entry (R678, R679): a full one is written without a read. In a region marked idle no access is made (R701). -/
def Device.mergeFlushE (d : Device) (m : Merge) : Device :=
  let d := { d with mem := { d.mem with merge := d.mem.merge.filter (fun x => decide (x.addr ≠ m.addr)) } }
  if d.memIdle m.addr then d
  else if m.mask = 0xFF then (d.wrDw m.addr m.data).setEcc m.addr .good else d.rmw m.addr 15 2 m.over

/-- Flush the entry that holds the doubleword at `a`. -/
def Device.mergeFlushAt (d : Device) (a : Nat) : Device :=
  match d.mergeAt a with | some m => d.mergeFlushE m | none => d

/-- Flush every entry. -/
def Device.mergeFlushAll (d : Device) : Device := d.mem.merge.foldl (fun d m => d.mergeFlushE m) d

/-- A narrow write of `n` bytes at `a` enters the merge buffer (R676 to R678). -/
def Device.mergeWrite (d : Device) (a n v : Nat) : Device :=
  let b := dwOf a
  let bits : BitVec 8 := BitVec.ofNat 8 ((2 ^ n - 1) * 2 ^ (a - b))
  match d.mergeAt b with
  | some m =>
    let m' := { m with data := insBytes m.data (a - b) n v, mask := m.mask ||| bits, last := d.nowN }
    let d := { d with mem := { d.mem with merge := d.mem.merge.map (fun x => if x.addr = b then m' else x) } }
    if m'.mask = 0xFF then d.mergeFlushE m' else d
  | none =>
    let d := match d.mem.merge with
      | m :: _ => if 4 ≤ d.mem.merge.length then d.mergeFlushE m else d
      | [] => d
    { d with mem := { d.mem with
      merge := d.mem.merge ++ [{ addr := b, data := insBytes 0 (a - b) n v, mask := bits, last := d.nowN }] } }

/-- A write of `n` bytes at `a` to SRAM by initiator `init`, below the caches. -/
def Device.physWrite (d : Device) (init a n v : Nat) : Device :=
  let b := dwOf a
  if n = 8 then ((d.mergeFlushAt b).wrDw b (BitVec.ofNat 64 v)).setEcc b .good
  else if isShared a && d.mergeOn then d.mergeWrite a n v
  else d.rmw b init 0 (fun o => insBytes o (a - b) n v)

/-- A read of the doubleword at `a`, below the caches (R669, R680): the word, and whether it is uncorrectable. -/
def Device.physRead (d : Device) (init a : Nat) : Device × DWord × Bool :=
  let r := d.eccCheck a init 0
  let v := d.rdDw a
  (r.1, (match (if isShared a then d.mergeAt a else none) with | some m => m.over v | none => v), r.2)

/-! ### D-caches and directory (R587 to R594) -/

/-- The line number of an address. -/
def lineOf (a : Nat) : Nat := a / 32

/-- The line `l` in the D-cache of core `c`. -/
def Device.dline (d : Device) (c l : Nat) : Option DLine := (d.coreC c).dc.get (fun _ => none) l
/-- Put a line of the D-cache of core `c`. -/
def Device.setDline (d : Device) (c l : Nat) (x : Option DLine) : Device :=
  d.setCore c { d.coreC c with dc := (d.coreC c).dc.set (fun _ => none) l x }

/-- Doubleword `i` of a line. -/
def lineDw (w : BitVec 256) (i : Nat) : DWord := (w >>> (64 * i)).setWidth 64
/-- The line of four doublewords. -/
def lineFrom (f : Nat → DWord) : BitVec 256 := (f 3 ++ f 2) ++ (f 1 ++ f 0)
/-- `w` with doubleword `i` replaced. -/
def lineSet (w : BitVec 256) (i : Nat) (v : DWord) : BitVec 256 := lineFrom (fun j => if j = i then v else lineDw w j)

/-- Write a line back (R591, R675): a poisoned doubleword is written poisoned and counted. In a region marked idle no access
is made (R701). -/
def Device.lineWrite (d : Device) (l : Nat) (w : BitVec 256) (bad : BitVec 4) : Device :=
  if d.memIdle (32 * l) then d
  else (List.range 4).foldl (fun d i =>
    let a := 32 * l + 8 * i
    let d := d.physWrite 15 a 8 (lineDw w i).toNat
    if bad.getLsbD i then (d.setEcc a .bad).countUe 6 a 15 3 else d) d

/-- Line `l`, held as `x`, is read out of its cache: single-bit errors are corrected (R669, R673). -/
def Device.lineFix (d : Device) (l : Nat) (x : DLine) : Device :=
  (bitsOf x.one.toNat 4).foldl (fun d i => d.countCe 6 (32 * l + 8 * i)) d

/-- Line `l`, held as `x`, is read out of its cache and written back. -/
def Device.lineOut (d : Device) (l : Nat) (x : DLine) : Device := (d.lineFix l x).lineWrite l x.data x.bad

/-- The directory acknowledges an eviction: a dirty line is written (R592). -/
def Device.evictDone (d : Device) (e : Evict) : Device :=
  match e.dirty with | some (w, bad) => d.lineWrite e.addr w bad | none => d

/-- The directory acknowledges the oldest eviction of core `c` (R592). -/
def Device.evictAck (d : Device) (c : Nat) : Device :=
  match (d.coreC c).ev with
  | e :: t => (d.setCore c { d.coreC c with ev := t }).evictDone e
  | [] => d

/-- A snoop completes every eviction of line `l` in flight (R593). -/
def Device.snoopEv (d : Device) (l : Nat) : Device :=
  (List.range 4).foldl (fun d c =>
    match (d.coreC c).ev.find? (fun e => decide (e.addr = l)) with
    | some e => (d.setCore c { d.coreC c with ev := (d.coreC c).ev.filter (fun x => decide (x.addr ≠ l)) }).evictDone e
    | none => d) d

/-- A read of line `l` from outside the caches but `me`: a dirty copy is written to memory and stays in S; an exclusive
copy turns to S when another core takes the line (R588, R590). A poisoned doubleword stays marked in the copy. -/
def Device.shareLine (d : Device) (l : Nat) (me : Option Nat) : Device :=
  (List.range 4).foldl (fun d c =>
    if me = some c then d
    else
      match d.dline c l with
      | some x =>
        match x.st with
        | .m =>
          let d := d.lineOut l x
          d.setDline c l (some { x with st := .s, one := 0 })
        | .e => if me.isSome then d.setDline c l (some { x with st := .s }) else d
        | .s => d
      | none => d) (d.snoopEv l)

/-- A write of line `l` from outside the caches but `me`: every other copy is invalidated, a dirty one written first
(R589, R591). -/
def Device.killLine (d : Device) (l : Nat) (me : Option Nat) : Device :=
  (List.range 4).foldl (fun d c =>
    if me = some c then d
    else
      match d.dline c l with
      | some x => (if x.st = .m then d.lineOut l x else d).setDline c l none
      | none => d) (d.snoopEv l)

/-- Another D-cache than that of core `c` holds line `l`. -/
def Device.heldElse (d : Device) (c l : Nat) : Bool :=
  (List.range 4).any (fun k => decide (k ≠ c) && (d.dline k l).isSome)

/-- The lines of the set of line `l` that core `c` holds. -/
def Device.setLines (d : Device) (c l : Nat) : List Nat :=
  ((d.coreC c).dc.map (fun e => e.1)).filter (fun k => decide (k % 128 = l % 128))

/-- Evict line `v` of core `c` (R592, R594): flash lines leave without a report; a full buffer waits for an
acknowledgement first. -/
def Device.evict (d : Device) (c v : Nat) : Device :=
  match d.dline c v with
  | none => d
  | some x =>
    let d := d.setDline c v none
    if 32 * v < 0x400000 then d
    else
      let d := if x.st = .m then d.lineFix v x else d
      let d := if 2 ≤ (d.coreC c).ev.length then d.evictAck c else d
      d.setCore c { d.coreC c with
        ev := (d.coreC c).ev ++ [{ addr := v, dirty := if x.st = .m then some (x.data, x.bad) else none }] }

/-- Core `c` allocates line `l` (R445): a full set evicts one way, a free value (log 9). -/
def Device.allocLine (d : Device) (c l : Nat) (x : DLine) : Device :=
  let s := d.setLines c l
  let d := if 4 ≤ s.length then (d.evict c ((s.drop (Config.victimWay d.free).val).headD 0)).fresh else d
  d.setDline c l (some x)

/-- Read line `l` below the caches: its words, and which doublewords are uncorrectable. -/
def Device.physLine (d : Device) (init l : Nat) : Device × BitVec 256 × BitVec 4 :=
  let step := fun (s : Device × List DWord × Nat) i =>
    let r := s.1.physRead init (32 * l + 8 * i)
    (r.1, s.2.1 ++ [r.2.1], s.2.2 + if r.2.2 then 2 ^ i else 0)
  let r := (List.range 4).foldl step (d, [], 0)
  (r.1, lineFrom (fun i => (r.2.1.drop i).headD 0), BitVec.ofNat 4 r.2.2)

/-- A line fill of core `c` (R588, R530): a fill that carries an uncorrectable error allocates nothing. -/
def Device.fillLine (d : Device) (c l : Nat) : Device × Option DLine :=
  let shared := isShared (32 * l)
  let d := if shared then d.shareLine l (some c) else d
  let r := d.physLine c l
  if r.2.2 ≠ 0 then (r.1, none)
  else
    let x : DLine := { st := if shared && !d.heldElse c l then .e else .s, data := r.2.1, bad := 0 }
    (r.1.allocLine c l x, some x)

/-- An access of core `c` to doubleword `i` of line `l`, held as `x`: a single-bit error is corrected in the cache (R669,
R670, R673). The line as it is then. -/
def Device.cacheFix (d : Device) (c l i : Nat) (x : DLine) : Device × DLine :=
  if x.one.getLsbD i then
    let x := { x with one := x.one &&& ~~~ (BitVec.twoPow 4 i) }
    ((d.setDline c l (some x)).countCe 6 (32 * l + 8 * i), x)
  else (d, x)

/-- A load of `n` bytes at `a` by core `c` from a cached region (R442, R588, R675): an uncorrectable error in a clean line
invalidates it, and memory serves the load. -/
def Device.cacheLoad (d : Device) (c a n : Nat) : Device × Acc :=
  let l := lineOf a
  let i := a / 8 % 4
  let miss := fun (d : Device) =>
    if d.flashBusy a then (d, Acc.wait)
    else
      match d.fillLine c l with
      | (d', some x) => (d', Acc.ok (exBytes (lineDw x.data i) (a % 8) n))
      | (d', none) => (d', Acc.bus 2)
  match d.dline c l with
  | some x =>
    if x.bad.getLsbD i then
      let d := d.countUe 6 (dwOf a) c 0
      (if x.st = .m then (d, .bus 2) else miss (d.setDline c l none))
    else ((d.cacheFix c l i x).1, .ok (exBytes (lineDw x.data i) (a % 8) n))
  | none => miss d

/-- A store of `n` bytes at `a` by core `c` to main SRAM or shed data (R445, R589, R532, R675): an uncorrectable doubleword of
a dirty line stays poisoned, a clean line with one is invalidated. -/
def Device.cacheStore (d : Device) (c a n v : Nat) : Device :=
  let l := lineOf a
  let i := a / 8 % 4
  let put := fun (d : Device) (x : DLine) =>
    d.setDline c l (some { x with st := .m, data := lineSet x.data i (insBytes (lineDw x.data i) (a % 8) n v) })
  let miss := fun (d : Device) =>
    match (d.killLine l (some c)).fillLine c l with
    | (d', some x) => put d' x
    | (d', none) => d'.physWrite c a n v
  match d.dline c l with
  | some x =>
    let d := if x.bad.getLsbD i then d.countUe 6 (dwOf a) c 0 else d
    if x.bad.getLsbD i ∧ x.st ≠ .m then miss (d.setDline c l none)
    else
      let r := d.cacheFix c l i x
      put (if x.st = .s then r.1.killLine l (some c) else r.1) r.2
  | none => miss d

/-! ### Accesses of initiators (R435, R442, R535, R668, R683, R684, R701) -/

/-- The checks of a memory access before it is made: no target, domain (recorded), alignment, idle region, a store to
flash; none where it may proceed. -/
def Device.memGate (d : Device) (who : Who) (trusted wr : Bool) (a n : Nat) : Device × Option Acc :=
  if (memRegion a).isNone then (d, some (.bus 0))
  else if d.memTrusted a && !trusted then (d.domViolation who a 0 wr, some (.dom 0))
  else if a % n ≠ 0 then (d, some (.bus 1))
  else if d.memIdle a then (d, some (.bus 3))
  else if wr && decide (a < 0x400000) then (d, some (.bus 3))
  else (d, none)

/-- The core of an initiator. -/
def coreOf : Who → Option Nat
  | .core c => some c.val
  | _ => none

/-- A read of `n` bytes (1, 2, 4) at `a` by an initiator. -/
def Device.memRead (d : Device) (who : Who) (trusted : Bool) (a n : Nat) : Device × Acc :=
  match d.memGate who trusted false a n with
  | (d, some e) => (d, e)
  | (d, none) =>
    match coreOf who, isCached a with
    | some c, true => d.cacheLoad c a n
    | _, _ =>
      if d.flashBusy a then (d, .wait)
      else
        let d := if isShared a then d.shareLine (lineOf a) none else d
        let r := d.physRead (whoIdx who) (dwOf a)
        if r.2.2 then (r.1, .bus 2) else (r.1, .ok (exBytes r.2.1 (a % 8) n))

/-- A write of `n` bytes (1, 2, 4, and 8 for the loop engine's mirror record) at `a` by an initiator. -/
def Device.memWrite (d : Device) (who : Who) (trusted : Bool) (a n v : Nat) : Device × Acc :=
  match d.memGate who trusted true a n with
  | (d, some e) => (d, e)
  | (d, none) =>
    match coreOf who, isShared a with
    | some c, true => (d.cacheStore c a n v, .ok 0)
    | _, _ =>
      let d := if isShared a then d.killLine (lineOf a) none else d
      (d.physWrite (whoIdx who) a n v, .ok 0)

/-! ### I-caches (R442, R446, R531) -/

/-- Invalidate the I-cache line `l`. -/
def Core.dropI (k : Core) (l : Nat) : Core := { k with ic := k.ic.del l, ice := Tab.keep (fun j => decide (j / 4 ≠ l)) k.ice }
/-- Invalidate the whole I-cache. -/
def Core.dropIAll (k : Core) : Core := { k with ic := [], ice := [] }

/-- Core `c` fills the I-cache line of the cached address `a`; false where the fetch is uncorrectable, none where it waits for
its bank or for a tag (R131, R531, R595, R695). -/
def Device.fetchMiss (d : Device) (c a : Nat) : Device × Option Bool :=
  let l := lineOf a
  if d.flashBusy a || d.tagBars c then (d, none)
  else
    let d := if isShared a then d.shareLine l none else d
    let r := d.physLine c l
    if r.2.2 ≠ 0 then (r.1, some false)
    else
      let k := r.1.coreC c
      let s := (k.ic.map (fun e => e.1)).filter (fun j => decide (j % 128 = l % 128))
      let full := decide (4 ≤ s.length)
      let k := if full then k.dropI ((s.drop (Config.victimWay r.1.free).val).headD 0) else k
      let d := r.1.setCore c { k with ic := k.ic.set (fun _ => none) l (some r.2.1) }
      (if full then d.fresh else d, some true)

/-- A fetch by core `c` at `a` in a fetchable region: the I-cache line is held afterwards; false where the fetch is
uncorrectable, none where it waits. A line of the I-cache is checked: a single-bit error is corrected, an uncorrectable one
invalidates the line, and memory serves the fetch (R531, R669, R675, R689). -/
def Device.fetchLine (d : Device) (c a : Nat) : Device × Option Bool :=
  let k := d.coreC c
  if isCached a then
    (match k.ic.get (fun _ => none) (lineOf a) with
     | some _ =>
       match k.ice.get (fun _ => .good) (a / 8) with
       | .good => (d, some true)
       | .single =>
         ((d.setCore c { k with ice := k.ice.set (fun _ => .good) (a / 8) .good }).countCe 6 (dwOf a), some true)
       | .bad => ((d.setCore c (k.dropI (lineOf a))).countUe 6 (dwOf a) c 0).fetchMiss c a
     | none => d.fetchMiss c a)
  else
    let r := d.physRead c (dwOf a)
    (r.1, some (!r.2.2))

/-! ### Cache maintenance (R448, R450) -/

/-- Clean a D-cache line of core `c`: a dirty one is written back and stays valid, with its marks of uncorrectable doublewords; `inv`
invalidates it too (R448). -/
def Device.cleanLine (d : Device) (c l : Nat) (inv : Bool) : Device :=
  match d.dline c l with
  | some x =>
    if x.st = .m then (d.lineOut l x).setDline c l (if inv then none else some { x with st := .e, one := 0 })
    else if inv then d.setDline c l none
    else d
  | none => d

/-- Clean the whole D-cache of core `c`. -/
def Device.cleanAll (d : Device) (c : Nat) (inv : Bool) : Device :=
  ((d.coreC c).dc.map (fun e => e.1)).foldl (fun d l => d.cleanLine c l inv) d

/-- The evictions of core `c` in flight complete. -/
def Device.evictsOut (d : Device) (c : Nat) : Device :=
  (List.range (d.coreC c).ev.length).foldl (fun d _ => d.evictAck c) d

/-- Write back every dirty line and every eviction in flight of core `c` and invalidate its caches (R176, R177). -/
def Device.cachesOut (d : Device) (c : Nat) : Device :=
  let d := (d.evictsOut c).cleanAll c true
  d.setCore c (d.coreC c).dropIAll

/-- The operation OP of CACHEOP on core `c` (R448). -/
def Device.cacheOp (d : Device) (c : Nat) (v : Word) : Device :=
  let l := wf v 31 5
  let k := d.coreC c
  match wf v 2 0 with
  | 1 => d.setCore c (k.dropI l)
  | 2 => d.setCore c k.dropIAll
  | 3 => d.cleanLine c l false
  | 4 => d.cleanLine c l true
  | 5 => d.cleanAll c false
  | 6 => d.cleanAll c true
  | _ => d

/-! ### Scrubber (R685 to R689) -/

/-- The key of ECC word `p` of the SRAM walker, with its region's idle bit where it has one: main SRAM, local SRAMs,
shed data, queue RAM, LE RAM (both views). -/
def scrubKey (p : Nat) : Nat × Option Nat :=
  if p < 0x10000 then (0x10000000 + 8 * p, some 2)
  else if p < 0x18000 then (0x10100000 + 8 * (p - 0x10000), some (4 + (p - 0x10000) / 0x2000))
  else if p < 0x1C000 then (0x20000000 + 8 * (p - 0x18000), some 3)
  else if p < 0x1C800 then (0x100000000 + (p - 0x1C000), none)
  else
    let w := p - 0x1C800
    (bLERAM + 4 * (w % 0x800) + (if 0x800 ≤ w then 0x8000 else 0), none)

/-- The words of a pass of the SRAM walker and of the flash walker. -/
def scrubWords : Nat := 0x1D800
def flashWords : Nat := 0x80000

/-- The starts of the parts the SRAM walker may skip as idle, in order. -/
def scrubParts : List Nat := [0, 0x10000, 0x12000, 0x14000, 0x16000, 0x18000, 0x1C000]

/-- The next position at or after `p` outside idle regions, as (position, passes ended). -/
def Device.scrubSkip (d : Device) (p : Nat) : Nat :=
  scrubParts.foldl (fun p s =>
    match (scrubKey p).2 with
    | some r => if d.mem.idle.getLsbD r && decide (s ≤ p) then ((scrubParts.find? (fun t => decide (p < t))).getD p) else p
    | none => p) p

/-- The memory kind of a word of the SRAM walker, and the address MEM_CEADDR shows for it (R673). -/
def scrubKind (key : Nat) : Nat × Nat :=
  if 0x100000000 ≤ key then (4, key - 0x100000000)
  else if bLERAM ≤ key then (5, key)
  else (eccKind key, key)

/-- The SRAM walker reads its next word (R685, R686). -/
def Device.scrubSram (d : Device) : Device :=
  let p := d.scrubSkip d.mem.sPos
  let key := (scrubKey p).1
  let d := if isShared key then d.mergeFlushAt key else d
  let k := scrubKind key
  let d := match d.eccOf key with
    | .good => d
    | .single => (d.setEcc key .good).countCe k.1 k.2
    | .bad => d.countUe k.1 k.2 15 1
  let wrap := decide (scrubWords ≤ p + 1)
  { d with mem := { d.mem with
    sPos := if wrap then 0 else p + 1, sPass := if wrap then (d.mem.sPass + 1) % 0x10000 else d.mem.sPass } }

/-- The intervals of the two walkers in ticks. -/
def Device.scrubInt (d : Device) (flash : Bool) : Nat := wf (d.lv (bMEM + if flash then 0x18 else 0x14)) 23 0

/-- The SRAM walker is at work (R685). -/
def Device.sramWalks (d : Device) : Bool := d.powered && wb (d.lv (bMEM + 0x10)) 0

/-- The interval of the SRAM walker that ends in the present tick or has ended: its word is read, and the next interval ends
one interval later; a read that comes late makes no later one skip its word (R685, R688). -/
def Device.scrubSramNow (d : Device) : Device :=
  let t := d.mem.sAt + d.scrubInt false
  let d := d.scrubSram
  { d with mem := { d.mem with sAt := t } }

/-- The flash walker reads its next doubleword (R685, R687). -/
def Device.scrubFlash (d : Device) : Device :=
  let skip := fun p => if d.mem.idle.getLsbD (p / 0x40000) then (p / 0x40000 + 1) % 2 * 0x40000 else p
  let p := skip d.mem.fPos
  let both := d.mem.idle.getLsbD 0 && d.mem.idle.getLsbD 1
  if both then d
  else
    let wrapped := decide (p < d.mem.fPos)
    let a := 8 * p
    let d := match d.eccOf a with
      | .good => d
      | .single =>
        let d := d.countCe 0 a
        { d with mem := { d.mem with flWeak := wd a, flWeakCnt := satInc 16 d.mem.flWeakCnt } }
      | .bad => d.countUe 0 a 15 1
    let wrap := decide (flashWords ≤ p + 1)
    { d with mem := { d.mem with
      fPos := if wrap then 0 else p + 1,
      fPass := (d.mem.fPass + (if wrapped then 1 else 0) + (if wrap then 1 else 0)) % 0x10000 } }

/-- The flash controller programs or erases: a command is accepted and has begun (R693, R694). -/
def Device.flashRuns (d : Device) : Bool := d.flash.cmd.isSome && !d.flash.held

/-- The flash walker is at work: it pauses while the flash controller programs or erases (R685, R689). -/
def Device.flashWalks (d : Device) : Bool := d.powered && wb (d.lv (bMEM + 0x10)) 1 && !d.flashRuns

/-- The interval of the flash walker that ends in the present tick or has ended (R685, R688). -/
def Device.scrubFlashNow (d : Device) : Device :=
  let t := d.mem.fAt + d.scrubInt true
  let d := d.scrubFlash
  { d with mem := { d.mem with fAt := t } }

/-- A write of MEM_SCRUB_CTL: the interval of a walker that is switched on begins (R685; DESIGN CHOICE, log 96). -/
def Device.scrubCtlWrite (d : Device) (v : Word) : Device :=
  let old := d.lv (bMEM + 0x10)
  let m := d.mem
  let m := { m with
    sAt := if wb v 0 && !wb old 0 then d.nowN + d.scrubInt false else m.sAt,
    fAt := if wb v 1 && !wb old 1 then d.nowN + d.scrubInt true else m.fAt }
  { d with mem := m }.setLv (bMEM + 0x10) (v &&& 3)

/-! ### Idle marks and self-test (R701 to R703) -/

/-- The merge entries that hold a doubleword of region `r` are flushed (R678). -/
def Device.mergeFlushRegion (d : Device) (r : Nat) : Device :=
  (d.mem.merge.filter (fun m => decide (memRegion m.addr = some r))).foldl (fun d m => d.mergeFlushE m) d

/-- A region's contents become zero with valid ECC. -/
def Device.zeroRegion (d : Device) (r : Nat) : Device :=
  let b := regionBounds r
  let out := fun (a : Nat) => decide (a < b.1) || decide (b.2 ≤ a)
  { d with mem := { d.mem with cells := Tab.keep out d.mem.cells, ecc := Tab.keep out d.mem.ecc } }

/-- The run bank: the active FLASH_SWBANK.BANK (R698). -/
def Device.runBank (d : Device) : Nat := wf (d.act aSwBank) 0 0

/-- Region `r` may not be marked idle (R702). -/
def Device.noIdle (d : Device) (r : Nat) : Bool :=
  if r < 2 then decide (r = d.runBank) || d.flashTargets r
  else if 4 ≤ r then decide ((d.coreC (r - 4)).st ≠ .held)
  else false

/-- A write of MEM_IDLE (R702, R703). -/
def Device.idleWrite (d : Device) (v : Word) : Device :=
  let m := d.mem
  let under := fun r => m.bistBusy && decide (m.bistReg = r)
  let n := bitsFrom 8 (fun r => if wb v r then m.idle.getLsbD r || !d.noIdle r else m.idle.getLsbD r && under r)
  let c := bitsFrom 8 (fun r => !wb v r && m.idle.getLsbD r && under r)
  { d with mem := { m with idle := BitVec.ofNat 8 n, idleClr := BitVec.ofNat 8 c } }

/-- A write of MEM_BIST (R703). -/
def Device.bistWrite (d : Device) (v : Word) : Device :=
  let m := d.mem
  let r := wf v 6 4
  if !wb v 0 then d
  else if m.idle.getLsbD r && !m.bistBusy then { d with mem := { m with bistBusy := true, bistReg := r, bistRes := 0 } }
  else { d with mem := { m with bistRes := 3 } }

/-- The self-test ends (R703): `failAt` is the first failing address. -/
def execMemBistDone (failAt : Option Word) (s : State) : Host.Outcome State Fault Refusal :=
  s.run (fun d =>
    if d.mem.bistBusy then
      let d := if 2 ≤ d.mem.bistReg then (d.mergeFlushRegion d.mem.bistReg).zeroRegion d.mem.bistReg else d
      let m := d.mem
      { d with mem := { m with
        bistBusy := false, bistRes := if failAt.isSome then 2 else 1, bistFail := failAt.getD m.bistFail,
        idle := m.idle &&& ~~~ m.idleClr, idleClr := 0 } }
    else d)

/-! ### Registers (R714) -/

/-- The directory acknowledges an eviction of core `c` (R592). -/
def execEvictionAck (c : Fin 4) (s : State) : Host.Outcome State Fault Refusal := s.run (fun d => d.evictAck c)

/-- A write of MEM_MERGE_CTL (R678, R681). -/
def Device.mergeCtlWrite (d : Device) (v : Word) : Device :=
  let d := if wb v 8 || !wb v 0 then d.mergeFlushAll else d
  d.setLv bMEM (v &&& 1)

/-- A write at offset `o` of the MEM block that does more than store. -/
def Device.memRegWrite (d : Device) (who : Who) (o : Nat) (v : Word) : Option Device :=
  let m := d.mem
  if o = 0 then some (d.mergeCtlWrite v)
  else if o = 0x10 then some (d.scrubCtlWrite v)
  else if o = 0x14 ∨ o = 0x18 then some (d.setLv (bMEM + o) (wd (max 1 (wf v 23 0))))
  else if o = 0x24 then some { d with mem := { m with flWeakCnt := wf v 15 0 } }
  else if 0x40 ≤ o ∧ o < 0x5C then
    let k := (o - 0x40) / 4
    some { d with mem := { m with ce := m.ce.set (fun _ => 0) k (wf v 15 0), ue := m.ue.set (fun _ => 0) k (wf v 31 16) } }
  else if 0x80 ≤ o ∧ o < 0x9C then
    let v := if o = 0x98 then v &&& 0xFFFF else v
    let a := bMEM + o
    some (if wb (d.lv (bMEM + 0x9C)) 0 then d.lockViolation who a 1 else d.setLv a v)
  else if o = 0x9C then
    let a := bMEM + o
    some (if d.spent.get (fun _ => false) a then d.lockViolation who a 0
      else { (d.setLv a (v &&& 1)) with spent := d.spent.set (fun _ => false) a true })
  else if o = 0xA0 then some (d.idleWrite v)
  else if o = 0xA4 then some (d.bistWrite v)
  else none

/-- A read at offset `o` of the MEM block. -/
def Device.memRegRead (d : Device) (o : Nat) : Option Word :=
  let m := d.mem
  if o = 0 then some (d.lv bMEM ||| wd (0x10000 * m.merge.length))
  else if o = 0x1C then some (wd (m.sPass + 0x10000 * m.fPass))
  else if o = 0x20 then some m.flWeak
  else if o = 0x24 then some (wd m.flWeakCnt)
  else if 0x40 ≤ o ∧ o < 0x5C then
    let k := (o - 0x40) / 4
    some (wd (m.ce.get (fun _ => 0) k + 0x10000 * m.ue.get (fun _ => 0) k))
  else if o = 0x60 then some m.ceAddr
  else if o = 0x64 then some m.ueAddr
  else if o = 0x68 then some m.ueInfo
  else if o = 0xA0 then some (m.idle.setWidth 32)
  else if o = 0xA4 then some (wd (0x10 * m.bistReg + 0x200 * m.bistRes) ||| boolW m.bistBusy 8)
  else if o = 0xA8 then some m.bistFail
  else none

end Sys2Proof.Machine
end

