-- ==== Sys2Proof/Machine/Intc.lean ====
section
/-! DEFINITION. The interrupt controller (R554 to R585): pending and active sources, offers, reservation, claim,
completion, doorbells. An offer is no state of its own: it is decided anew from the state whenever it is looked at
(R564). -/
namespace Sys2Proof.Machine

/-- INTC_SCFG[s], the stored fields PRIO and TGT. -/
def Device.scfg (d : Device) (s : Nat) : Word := d.lv (aScfg s)
/-- PRIO of source `s`. -/
def Device.prio (d : Device) (s : Nat) : Nat := wf (d.scfg s) 3 0
/-- TRUST of source `s` (R541). -/
def Device.srcTrust (d : Device) (s : Nat) : Bool := wb (d.lv (aIown s)) 8
/-- The core source `s` is active on, with the priority recorded at its claim. -/
def Device.actOf (d : Device) (s : Nat) : Option (Nat × Nat) := d.intc.act.get (fun _ => none) s
/-- The reservation core `c` holds. -/
def Device.resvOf (d : Device) (c : Nat) : Option Reserve := d.intc.resv.get (fun _ => none) c

/-- Source `s` is pending (R555, R556). -/
def Device.srcPending (d : Device) (s : Nat) : Bool :=
  if isLevelSrc s then d.intc.lvl.getLsbD (s - 181) && (d.actOf s).isNone else d.intc.pend.getLsbD s

/-- The sources in number order. -/
def sources : List Nat := (List.range 192).map (fun i => i + 1)

/-- The running priority of core `c` (R559). -/
def Device.runPrio (d : Device) (c : Nat) : Nat :=
  d.intc.act.foldl (fun m e => match e.2 with | some (k, p) => if k = c then max m p else m | none => m)
    (d.intc.thr.get (fun _ => 0) c)

/-- Source `s` is reserved for a core, and not withdrawn. -/
def Device.isReserved (d : Device) (s : Nat) : Bool :=
  (List.range 4).any (fun c => match d.resvOf c with | some r => decide (r.src = s) && !r.withdrawn | none => false)

/-- The pending sources that are neither active nor reserved and have PRIO not 0, in the order of R563. -/
def Device.waiting (d : Device) : List Nat :=
  let w := sources.filter (fun s =>
    d.srcPending s && decide (d.prio s ≠ 0) && (d.actOf s).isNone && !d.isReserved s)
  (List.range 15).flatMap (fun i => w.filter (fun s => decide (d.prio s = 15 - i)))

/-- Core `c` is no candidate because of its state: core reset, hold, lockup, a debug halt, a step with STEPIRQ = 0
(R562, R840). -/
def Device.coreShut (d : Device) (c : Nat) : Bool :=
  let k := d.coreC c
  k.halted || (k.stepping && !wb (d.lv (aDbgC c 0)) 9) ||
    (match k.st with | .running | .asleep => false | _ => true)

/-- Core `c` is a candidate for source `s` (R562), with STATUS.IE taken as 1 when `ie` holds (R481). -/
def Device.candidate (d : Device) (s c : Nat) (ie : Bool) : Bool :=
  let st := (d.coreC c).status
  wb (d.scfg s) (8 + c) && !d.coreShut c && (ie || wb st 2) && (d.srcTrust s || !wb st 1)
    && decide (d.runPrio c < d.prio s) && (d.resvOf c).isNone

/-- The order of the cores counted from the core of the last delivery (R563). -/
def Device.turn (d : Device) (c : Nat) : Nat := (c + 3 - d.intc.last % 4) % 4

/-- The candidate of `l` with the lowest running priority, ties broken by turn (R563). -/
def Device.pickCore (d : Device) (l : List Nat) : Option Nat :=
  l.foldl (fun b c =>
    match b with
    | none => some c
    | some x =>
      if d.runPrio c < d.runPrio x ∨ (d.runPrio c = d.runPrio x ∧ d.turn c < d.turn x) then some c else some x) none

/-- The offers of R563 as (source, core) pairs; `ie` marks a core whose IE is taken as 1. -/
def Device.offersWith (d : Device) (ie : Nat → Bool) : List (Nat × Nat) :=
  d.waiting.foldl (fun o s =>
    let l := (List.range 4).filter (fun c => d.candidate s c (ie c) && !o.any (fun p => decide (p.2 = c)))
    match d.pickCore l with
    | some c => o ++ [(s, c)]
    | none => o) []

/-- The source offered to core `c` (R563). -/
def Device.offerOf (d : Device) (c : Nat) : Option Nat :=
  ((d.offersWith (fun _ => false)).find? (fun p => decide (p.2 = c))).map (fun p => p.1)

/-- An interrupt is pending for core `c` in the sense of R481: it would be delivered to it with IE = 1. -/
def Device.pendingFor (d : Device) (c : Nat) : Bool :=
  (d.offersWith (fun k => decide (k = c))).any (fun p => decide (p.2 = c))

/-- Withdraw reserved sources that stopped being pending or deliverable (R566); `p` gives the priority they had. -/
def Device.withdrawCheck (d : Device) (p : Nat → Nat) : Device :=
  (List.range 4).foldl (fun d c =>
    match d.resvOf c with
    | some r =>
      let held := decide (d.prio r.src ≠ 0) && wb (d.scfg r.src) (8 + c)
      if r.withdrawn || d.srcPending r.src && held then d
      else { d.note (fun h => { h with gone := (c, p r.src, held) :: h.gone }) with intc := { d.intc with resv := d.intc.resv.set (fun _ => none) c (some { r with withdrawn := true }) } }
    | none => d) d

/-- The pending request of edge source `s` goes with what raised it: a reservation of the source is withdrawn (R566). -/
def Device.unpend (d : Device) (s : Nat) : Device :=
  ((d.note (fun h => { h with irqs := h.irqs &&& ~~~ (BitVec.twoPow 193 s) })).setPend s false).withdrawCheck d.prio

/-- A rule of the present tick takes back the bits `b` that hardware has set in the W1C register at `a`, and with them the
request of source `s`, unless `keep` holds. -/
def Device.flagDown (d : Device) (a : Nat) (b : Word) (s : Nat) (keep : Bool) : Device :=
  let d := d.note (fun h => { h with flags := h.flags.set (fun _ => 0) a (h.flags.get (fun _ => 0) a &&& ~~~ b) })
  if keep then d else d.unpend s

/-- Core `c` accepts source `s`: it is reserved and LAST takes the core (R565). -/
def Device.reserve (d : Device) (c s : Nat) : Device :=
  { d with intc := { d.intc with
      resv := d.intc.resv.set (fun _ => none) c (some { src := s, withdrawn := false }), last := c } }

/-- The source a claim of core `c` returns, with its priority (R568): a withdrawal of the same tick comes after the claim
(R569). -/
def Device.claimable (d : Device) (c : Nat) : Option (Nat × Nat) :=
  match d.resvOf c with
  | some r =>
    if r.withdrawn then (d.here.gone.find? (fun x => decide (x.1 = c))).map (fun x => (r.src, x.2.1))
    else some (r.src, d.prio r.src)
  | none => none

/-- A claim by core `c` (R568, R569). -/
def Device.claim (d : Device) (c : Nat) : Device × Nat :=
  let d' := { d with intc := { d.intc with resv := d.intc.resv.set (fun _ => none) c none } }
  match d.claimable c with
  | some (s, p) =>
    let d' := { d' with intc := { d'.intc with act := d'.intc.act.set (fun _ => none) s (some (c, p)) } }
    (if isLevelSrc s then d' else d'.setPend s false, s)
  | none => (d', if (d.resvOf c).isSome then 0x3FF else 0)

/-- The source a claim of core `c` would return. -/
def Device.claimSrc (d : Device) (c : Nat) : Option Nat := (d.claimable c).map (fun x => x.1)

/-- A completion of number `id` by core `c` (R570, R571). -/
def Device.complete (d : Device) (c id : Nat) : Device :=
  if id = 0 ∨ id = 0x3FF then d
  else
    match d.actOf id with
    | some (k, _) =>
      if k = c then { d with intc := { d.intc with act := d.intc.act.set (fun _ => none) id none } }
      else { d with intc := { d.intc with
        badDone := wd (satInc 32 d.intc.badDone.toNat), badInfo := wd (id + 0x10000 * c) } }
    | none => { d with intc := { d.intc with
        badDone := wd (satInc 32 d.intc.badDone.toNat), badInfo := wd (id + 0x10000 * c) } }

/-- A write of INTC_SCFG[s]: PRIO and TGT are stored; PSET sets and PCLR, applied last, clears the pending state of an
edge source, but for one raised in this tick (R558, R566, R584). -/
def Device.scfgWrite (d : Device) (s : Nat) (v : Word) : Device :=
  let p := d.prio
  let d := d.setLv (aScfg s) (v &&& 0xF0F)
  let d := if wb v 16 && !isLevelSrc s then d.setPend s true else d
  let d := if wb v 17 && !isLevelSrc s && !d.here.irqs.getLsbD s then d.setPend s false else d
  d.withdrawCheck p

/-- The inputs of the level sources take the values `l` (R556, R566). -/
def Device.levelInputs (d : Device) (l : BitVec 8) : Device :=
  ({ d with intc := { d.intc with lvl := l } }).withdrawCheck d.prio

/-- A core reset of core `c` releases its reservation and makes its active sources pending again (R574). -/
def Device.intcCoreReset (d : Device) (c : Nat) : Device :=
  let d := { d with intc := { d.intc with
    resv := d.intc.resv.set (fun _ => none) c none } }
  sources.foldl (fun d s =>
    match d.actOf s with
    | some (k, _) =>
      if k = c then
        let d := { d with intc := { d.intc with act := d.intc.act.set (fun _ => none) s none } }
        if isLevelSrc s then d else d.setPend s true
      else d
    | none => d) d

/-- INTC_SCFG[s] as read (R579). -/
def Device.scfgRead (d : Device) (s : Nat) : Word :=
  d.scfg s ||| boolW (d.srcPending s) 24 ||| boolW (d.actOf s).isSome 25
    ||| (match d.actOf s with | some (c, _) => wd (c * 0x4000000) | none => 0) ||| boolW (isLevelSrc s) 28

/-- A read at offset `o` of the INTC block without effect. -/
def Device.intcRead (d : Device) (o : Nat) : Option Word :=
  if o = 0 then some (wd d.intc.last)
  else if 0x30 ≤ o ∧ o < 0x40 then
    let c := (o - 0x30) / 4
    some (wd (d.intc.thr.get (fun _ => 0) c + 0x100 * d.runPrio c))
  else if 0x40 ≤ o ∧ o < 0x50 then
    let c := (o - 0x40) / 4
    some (match d.resvOf c with
      | some r => wd (r.src + 0x10000)
      | none => match d.offerOf c with | some s => wd s | none => 0)
  else if o = 0x50 then some d.intc.badDone
  else if o = 0x54 then some d.intc.badInfo
  else if 0x80 ≤ o ∧ o < 0x9C then
    let w := (o - 0x80) / 4
    some (wd (bitsFrom 32 (fun i => decide (1 ≤ 32 * w + i) && decide (32 * w + i ≤ 192) && d.srcPending (32 * w + i))))
  else if 0xA0 ≤ o ∧ o < 0xBC then
    let w := (o - 0xA0) / 4
    some (wd (bitsFrom 32 (fun i => (d.actOf (32 * w + i)).isSome)))
  else if 0x408 ≤ o ∧ o < 0xA08 ∧ o % 8 = 0 then some (d.scfgRead ((o - 0x400) / 8))
  else none

/-- A write at offset `o` of the INTC block that is not checked by core: INTC_SCFG, INTC_BADDONE (R558, R578). -/
def Device.intcWrite (d : Device) (o : Nat) (v : Word) : Option Device :=
  if o = 0x50 then some { d with intc := { d.intc with badDone := v } }
  else if 0x408 ≤ o ∧ o < 0xA08 ∧ o % 8 = 0 then some (d.scfgWrite ((o - 0x400) / 8) v)
  else none

end Sys2Proof.Machine
end

