-- ==== Sys2Proof/Machine/Pwm.lean ====
section
/-! DEFINITION. The PWM stage (R258 to R301): boundaries, transfer, short pulses, edges, trips, load-all, and the
writer of a shadow compare register (R44). -/
namespace Sys2Proof.Machine

/-! ### The channels a slot maps (R308, R325) -/

/-- Word `i` of the active descriptor of slot `n`. -/
def Device.desc (d : Device) (n i : Nat) : Word := d.act (aDesc n i)

/-- Output entry `j` of a descriptor given by its words 2 and 3 (R307). -/
def entryOf (w2 w3 : Word) (j : Nat) : Nat :=
  match j with
  | 0 => wf w2 15 0 | 1 => wf w2 31 16 | 2 => wf w3 15 0 | _ => wf w3 31 16

/-- The enabled output entries of the words 2 and 3: channel, transform, law output (R308). -/
def entries (w2 w3 : Word) : List (Nat × Nat × Nat) :=
  (List.range 4).filterMap (fun j =>
    let e := entryOf w2 w3 j
    if e.testBit 15 then some (fld e 4 0, fld e 9 8, fld e 13 12) else none)

/-- The enabled entries of an arena map word; a member carries u0 only (R325). -/
def mapEntries (m : Word) : List (Nat × Nat × Nat) :=
  (if wb m 15 then [(wf m 4 0, wf m 9 8, 0)] else []) ++ (if wb m 31 then [(wf m 20 16, wf m 25 24, 0)] else [])

/-- The entries through which a slot with descriptor words `w0`, `w2`, `w3` writes; `am` gives the arena maps. -/
def slotEntries (w0 w2 w3 : Word) (am : Nat → Word) : List (Nat × Nat × Nat) :=
  if wb w0 24 then mapEntries (am (wf w0 23 21)) else entries w2 w3

/-- The entries of slot `n` in the active set. -/
def Device.slotMap (d : Device) (n : Nat) : List (Nat × Nat × Nat) :=
  slotEntries (d.desc n 0) (d.desc n 2) (d.desc n 3) (fun k => d.act (aArena k))

/-- Slot `n` is enabled: it is not in OFF (R304, R306). -/
def Device.slotOn (d : Device) (n : Nat) : Bool := (d.slotC n).st != .off

/-- The enabled slots. -/
def Device.slotsOn (d : Device) : List Nat := (List.range 32).filter (fun n => d.slotOn n)

/-- The arena of slot `n` in the active set, when the slot is a member of one (R307). -/
def Device.arenaOf (d : Device) (n : Nat) : Option Nat :=
  if wb (d.desc n 0) 24 then some (wf (d.desc n 0) 23 21) else none

/-- The enabled members of arena `a`. -/
def Device.members (d : Device) (a : Nat) : List Nat :=
  d.slotsOn.filter (fun n => decide (d.arenaOf n = some a))

/-- OVRD is 1 for a member of arena `a`, enabled or not (R307, R330). -/
def Device.arenaOvrd (d : Device) (a : Nat) : Bool :=
  (List.range 32).any (fun m => decide (d.arenaOf m = some a) && (d.slotC m).ovrd)

/-- Writes of slot `n` are discarded because of OVRD of the slot, or of any member of its arena (R322, R330). -/
def Device.slotOvrd (d : Device) (n : Nat) : Bool :=
  (d.slotC n).ovrd || (match d.arenaOf n with | some a => d.arenaOvrd a | none => false)

/-- The writer of PWM_DUTY[ch] (R44): 0 firmware, 1 a loop slot, 2 a stall override. -/
def Device.writerOf (d : Device) (ch : Nat) : Nat :=
  match d.slotsOn.find? (fun n => (d.slotMap n).any (fun e => decide (e.1 = ch))) with
  | none => 0
  | some n => if d.slotOvrd n then 2 else 1

/-- Slot `n` is the writer of PWM_DUTY[ch] (R44, R322): it is enabled and maps the channel, and its writes are not discarded. -/
def Device.slotWrites (d : Device) (n ch : Nat) : Bool :=
  d.slotOn n && (d.slotMap n).any (fun e => decide (e.1 = ch)) && !d.slotOvrd n

/-- Whether a write of PWM_DUTY from `who` is the writer's own (R44); the cores, the DMA engine, the OD engine and
the debug master write as firmware (log 12). -/
def isWriter (w : Nat) : Who → Bool
  | .loop => decide (w = 1)
  | .link => decide (w = 2)
  | _ => decide (w = 0)

/-! ### Period and duty (R258, R264) -/

def PwmCh.centre (c : PwmCh) : Bool := wb c.cfg 0
def PwmCh.pre (c : PwmCh) : Nat := wf c.cfg 3 1
def PwmCh.xfer (c : PwmCh) : Bool := wb c.cfg 4
def PwmCh.perN (c : PwmCh) : Nat := wf c.per 15 0
def PwmCh.dtRise (c : PwmCh) : Nat := wf c.dt 9 0
def PwmCh.dtFall (c : PwmCh) : Nat := wf c.dt 25 16
/-- Period length in count units (R258). -/
def PwmCh.units (c : PwmCh) : Nat := if c.centre then 2 * c.perN else c.perN
/-- Period length in ticks (R258). -/
def PwmCh.ticks (c : PwmCh) : Nat := c.units * 2 ^ c.pre
/-- Period length in steps (R258). -/
def PwmCh.steps (c : PwmCh) : Nat := 32 * c.ticks
/-- The counter runs: enabled, past its first boundary, PER not 0 (R260, R262). -/
def PwmCh.counting (c : PwmCh) : Bool := c.en && c.first.isNone && c.perN != 0

/-- The on-time ON formed from a duty word (R264). -/
def dutyOn (raw : Word) (per : Nat) (centre : Bool) : Nat :=
  let lu : Int := if centre then 64 * (per : Int) else 32 * (per : Int)
  let on : Int := if wb raw 31 then sarI (sxI 16 (wf raw 15 0) * lu + 16384) 15 else (wf raw 21 0 : Int)
  let on := clampI on 0 lu
  if centre then on.toNat - on.toNat % 2 else on.toNat

/-- What the short-pulse policy decides for a period (R276, R277): shape, on-time, carry, SHORT, NOFIT. -/
structure PolicyOut where
  shape : Shape
  t : Nat
  c : Int
  short : Bool
  nofit : Bool
deriving DecidableEq, Repr

/-- The short-pulse policy (R275, R276, R277). -/
def policy (pol : Nat) (t0 l hmin lmin : Nat) (c : Int) : PolicyOut :=
  if pol = 2 then
    let t : Int := t0 + c
    if t < hmin then { shape := .low, t := 0, c := t, short := t != 0, nofit := false }
    else if (l : Int) - t < lmin then { shape := .high, t := l, c := t - l, short := t - l != 0, nofit := false }
    else { shape := .normal, t := t.toNat, c := 0, short := false, nofit := false }
  else if t0 = 0 then { shape := .low, t := 0, c := c, short := false, nofit := false }
  else if t0 = l then { shape := .high, t := l, c := c, short := false, nofit := false }
  else if t0 < hmin ∨ (l : Int) - t0 < lmin then
    if pol = 1 ∧ hmin + lmin ≤ l then
      { shape := .normal, t := if t0 < hmin then hmin else l - lmin, c := c, short := true, nofit := false }
    else if t0 < hmin then { shape := .low, t := 0, c := c, short := true, nofit := decide (pol = 1) }
    else { shape := .high, t := l, c := c, short := true, nofit := decide (pol = 1) }
  else { shape := .normal, t := t0, c := c, short := false, nofit := false }

/-- The level changes of H_ref in a period, in steps from the boundary (R272, R274): a normal period whose high time is nothing or
the whole of it keeps its level. -/
def PwmCh.edges (c : PwmCh) : List (Nat × Bool) :=
  match c.shape with
  | .low => [(0, false)]
  | .high => [(0, true)]
  | .normal =>
    if c.t = 0 then [(0, false)]
    else if c.t = c.steps then [(0, true)]
    else if c.centre then [(0, false), ((c.steps - c.t) / 2, true), ((c.steps + c.t) / 2, false)] else [(0, true), (c.t, false)]

/-- H_ref takes level `b` at step `s`; a boundary that keeps the level makes no edge (R274). -/
def PwmCh.setHref (c : PwmCh) (s : Nat) (b : Bool) : PwmCh :=
  if c.href = b then c else { c with href := b, since := some s }

/-- At step `s`, H_ref has had its level for `dt` ticks (R274). -/
def PwmCh.held (c : PwmCh) (dt s : Nat) : Bool :=
  match c.since with
  | some t => decide (t + 32 * dt ≤ s)
  | none => true

/-- The outputs at step `s`, from H_ref and the dead times (R274); an output that goes low did so at H_ref's edge. -/
def PwmCh.drive (c : PwmCh) (s : Nat) : PwmCh :=
  let h := c.href && c.held c.dtRise s
  let l := !c.href && c.held c.dtFall s
  { c with
    outH := h, outL := l,
    hFell := if c.outH && !h then c.since else c.hFell, lFell := if c.outL && !l then c.since else c.lFell }

/-- At step `s` the complement of the high side's (`hi`) or the low side's output has been low for the output's dead
time (R282). -/
def PwmCh.deadMet (c : PwmCh) (hi : Bool) (s : Nat) : Bool :=
  match (if hi then c.lFell else c.hFell) with
  | some t => decide (t + 32 * (if hi then c.dtRise else c.dtFall) ≤ s)
  | none => true

/-- An output is high at step `s`: one whose trip level is high turns on after its dead time (R282). -/
def PwmCh.isHigh (c : PwmCh) (hi : Bool) (s : Nat) : Bool :=
  (if hi then c.outH else c.outL) && (c.running || c.deadMet hi s)

/-- Follow the level changes of H_ref up to position `pos` of the period, then drive the outputs (R272 to R274). -/
def PwmCh.edgeTo (c : PwmCh) (pos : Nat) : PwmCh :=
  let b := 32 * c.bt
  let c := c.edges.foldl (fun c e => if e.1 ≤ pos ∧ c.edgePos ≤ e.1 then c.setHref (b + e.1) e.2 else c) c
  { c.drive (b + pos) with edgePos := pos }

/-- The trip levels HST and LST of a channel, 1 high, 2 high impedance, else low; both high drives both low (R281). -/
def tripLevels (tc : Word) : Nat × Nat :=
  if wf tc 1 0 = 1 ∧ wf tc 3 2 = 1 then (0, 0) else (wf tc 1 0, wf tc 3 2)

/-- PWM_TRIPCFG[n] in force: a swap changes it in the swap tick (R292). -/
def Device.tripCfg (d : Device) (n : Nat) : Word := d.act (aPwm n 6)

/-! ### Flags, trips -/

/-- Set bits of PWM_STAT[n] and raise source 33 + n by PWM_IEN (R293). -/
def Device.pwmFlag (d : Device) (n : Nat) (bits : Word) : Device :=
  let c := d.pwmC n
  (d.setPwm n { c with stat := c.stat ||| bits }).flagUp (aPwm n 12) c.stat bits (d.lv (aPwm n 15)) (33 + n)

/-- The outputs of channel `n` go to the trip state (R281, R282): `outH` and `outL` are the levels they head for; TSBAD
when both trip levels are high. R281 does not say when TSBAD is set: here at the entry into the trip state, and at a boundary or a
change of PWM_TRIPCFG in it, so that a swap to such levels under a running channel sets it at its next trip (DESIGN CHOICE,
log 95). -/
def Device.toTrip (d : Device) (n : Nat) : Device :=
  let c := d.pwmC n
  let tc := d.tripCfg n
  let l := tripLevels tc
  let s := 32 * d.nowN
  let d := d.setPwm n { c with
    running := false, outH := decide (l.1 = 1), outL := decide (l.2 = 1), href := false,
    hFell := if c.isHigh true s && decide (l.1 ≠ 1) then some s else c.hFell,
    lFell := if c.isHigh false s && decide (l.2 ≠ 1) then some s else c.lFell }
  if wf tc 1 0 = 1 ∧ wf tc 3 2 = 1 then d.pwmFlag n 8 else d

/-- FIRST of PWM_TRIPSTAT after the latches changed (R287). -/
def tripFirst (t : Word) : Word := if wf t 3 0 = 0 then 0 else t

/-- Trip latch `k` of channel `n` is set: 0 SAFE, 1 HARD, 2 LOOP, 3 SOFT (R280, R287, R293); of the latches set in one tick
FIRST records the lowest. -/
def Device.latch (d : Device) (n k : Nat) : Device :=
  let c := d.pwmC n
  let none4 := decide (wf c.trip 3 0 = 0)
  let lower := decide (c.firstAt = d.nowN) && decide (k + 1 < wf c.trip 10 8)
  let t := if none4 || lower then putF c.trip 10 8 (k + 1) else c.trip
  let d' := (d.setPwm n { c with trip := t ||| bitW k, firstAt := if none4 then d.nowN else c.firstAt }).toTrip n
  (d'.hwFlag (aPwm n 13) (bitW k)).raiseIf (!wb c.trip k && wb (d.lv (aPwm n 15)) 8) (33 + n)

/-- A hard trip of channel `n` sets HARD in the tick after the filtered output asserts (R280). -/
def Device.hardNow (d : Device) (n : Nat) : Device :=
  match (d.pwmC n).hardAt with
  | some t => if t ≤ d.nowN then (d.setPwm n { d.pwmC n with hardAt := none }).latch n 1 else d
  | none => d

/-- A trip of channel `n` sets latch `k`, after a HARD that is due. -/
def Device.setTrip (d : Device) (n k : Nat) : Device := (d.hardNow n).latch n k

/-- A hard trip of channel `n` in the present tick (R226, R280). -/
def Device.hardTrip (d : Device) (n : Nat) : Device :=
  let c := d.pwmC n
  if c.hardAt.isSome then d else d.setPwm n { c with hardAt := some (d.nowN + 1) }

/-- Every running channel goes to its trip state: PARK, SLEEP, OFF and the end of FREEZE (R139, R851). -/
def Device.tripAll (d : Device) : Device :=
  (List.range 32).foldl (fun d n => if (d.pwmC n).running then d.toTrip n else d) d

/-- A trip-enabled comparator of channel `n` is asserted (R284, R285). -/
def Device.cmpAsserted (d : Device) (n : Nat) : Bool :=
  let k := d.act (aSnsCmp n)
  ((d.snsC n).filtH && wb k 2) || ((d.snsC n).filtL && wb k 3)

/-- A soft-trip request of channel `n` (R280). -/
def Device.softTrip (d : Device) (n : Nat) : Device :=
  if wb (d.tripCfg n) 6 then (d.setTrip n 3).note (fun h => { h with soft := h.soft ||| BitVec.twoPow 32 n }) else d

/-- A loop-fault trip of the groups of the channels `chs`: the LOOP latch of every channel of those groups with
LFEN = 1 (R280, R336). -/
def Device.loopTrip (d : Device) (chs : List Nat) : Device :=
  (List.range 32).foldl (fun d m =>
    if chs.any (fun ch => decide (ch / 4 = m / 4)) && wb (d.tripCfg m) 5 then d.setTrip m 2 else d) d

/-- The PWM stage runs: no device reset and no unit reset of PWM is in progress (R891). -/
def Device.pwmUp (d : Device) : Bool := d.unitsUp && !d.rst.unitBusy.getLsbD 7

/-- The SAFE latch of every channel, while SAFE_n is low or the SAFE action is in force and the PWM stage runs (R891). -/
def Device.safeTrips (d : Device) : Device :=
  if d.safeIn && d.pwmUp then (List.range 32).foldl (fun d n => if wb (d.pwmC n).trip 0 then d else d.setTrip n 0) d else d

/-! ### Boundaries (R259 to R301) -/

/-- Take the parameters of the active set into force (R292). -/
def Device.latchPwm (d : Device) (n : Nat) : Device :=
  d.setPwm n { d.pwmC n with
    cfg := d.act (aPwm n 0), per := d.act (aPwm n 1), dt := d.act (aPwm n 2), minp := d.act (aPwm n 3),
    pol := d.act (aPwm n 4), smp := d.act (aPwm n 5) }

/-- The latches that the PWM stage clears at a boundary (R284, R286). -/
def Device.boundaryClears (d : Device) (n : Nat) : Device :=
  let c := d.pwmC n
  let t := if wb (d.tripCfg n) 4 && !d.cmpAsserted n then setB c.trip 1 false else c.trip
  let t := if !wb (d.lv aPwmGctl) 0 && !d.safeIn then setB t 0 false else t
  d.setPwm n { c with trip := tripFirst t }

/-- PWM_DUTY at the end of the tick before tick `now` (R43). -/
def PwmCh.dutyBefore (c : PwmCh) (now : Nat) : Word := if c.dutyAt = now then c.dutyOld else c.duty

/-- PWM_DUTY is written in tick `now`. -/
def PwmCh.putDuty (c : PwmCh) (now : Nat) (v : Word) : PwmCh :=
  { c with duty := v, dutyAt := now, dutyOld := c.dutyBefore now }

/-- The value `v` moves into force (R264): ON by the period, prescaler and mode of the period that starts. -/
def PwmCh.take (c : PwmCh) (v : Word) : PwmCh := { c with raw := v, on := dutyOn v c.perN c.centre }

/-- The transfer at a boundary (R43, R266, R267, R269), and whether a load-all value took effect. A load-all of the boundary
tick stays pending (R269); without a pending value ON is kept. Where XFER is 0 a pending value is discarded (DESIGN CHOICE,
log 95). -/
def PwmCh.transfer (c : PwmCh) : PwmCh × Bool :=
  if c.xfer then
    let own := decide (c.pendAt = c.bt)
    match (if own then c.pendOld else c.pend) with
    | some v => ({ c.take v with pend := if own then c.pend else none, pendOld := none }, true)
    | none => (c, false)
  else ({ c.take (c.dutyBefore c.bt) with pend := none, pendOld := none }, false)

/-- Channel `n` may show its waveform at this boundary (R283): in PARK one that runs goes on while evaluations are still running
(R139), and none resumes. -/
def Device.canRun (d : Device) (n : Nat) : Bool :=
  decide (wf (d.pwmC n).trip 3 0 = 0) && !d.safeIn && !d.outOff && ((d.pwmC n).running || !d.parked)

/-- The shape of the period that starts, by the policy of R276, at a boundary of any channel with PER not 0; a channel that
resumes at it (`resume`) starts without carry (R278). -/
def Device.shapePeriod (d : Device) (n : Nat) (resume : Bool) : Device :=
  let c := d.pwmC n
  let hmin := 32 * (c.dtRise + wf c.minp 7 0)
  let lmin := (if c.centre then 64 else 32) * (c.dtFall + wf c.minp 7 0)
  let p := policy (wf c.pol 1 0) (c.on * 2 ^ c.pre) c.steps hmin lmin (if resume then 0 else c.carry)
  (d.setPwm n { c with
    shape := p.shape, t := p.t, carry := p.c, edgePos := 0, short := if p.short then satInc 16 c.short else c.short }).pwmFlag
    n (boolW p.short 1 ||| boolW p.nofit 2)

/-- The outputs at the start of the period: a resumed channel takes H_ref from the trip state, and an output high in the
trip state counts its dead time as met (R283). -/
def Device.showPeriod (d : Device) (n : Nat) : Device :=
  let c := d.pwmC n
  let b := 32 * c.bt
  let c :=
    if c.running then c
    else
      let up := match c.edges with | (0, v) :: _ => v | _ => false
      let tl := tripLevels (d.tripCfg n)
      let met := if up then decide (tl.1 = 1) && c.deadMet true b else decide (tl.2 = 1) && c.deadMet false b
      { c with running := true, href := up, since := if met then none else some b }
  d.setPwm n (c.edgeTo 0)

/-- What a period boundary of channel `n`, which was `old`, does in the present tick (R259 to R301). The boundary at which PER = 0
comes into force sets no BND and raises no event (R260; DESIGN CHOICE, log 95). -/
def Device.boundaryDo (d : Device) (n : Nat) (old : PwmCh) : Device :=
  let d := d.latchPwm n
  let c := d.pwmC n
  let fresh := old.first.isSome
  let chg := decide (c.perN ≠ old.perN) || decide (c.pre ≠ old.pre) || c.centre != old.centre
  let d := d.setPwm n { c with
    carry := if fresh || chg then 0 else c.carry, bt := d.nowN, first := none,
    periods := if fresh then 0 else c.periods + 1, edgePos := 0 }
  if (d.pwmC n).perN = 0 then d.toTrip n
  else
    let d := d.boundaryClears n
    let tr := (d.pwmC n).transfer
    let d := d.setPwm n tr.1
    let d := d.shapePeriod n (d.canRun n && !(d.pwmC n).running)
    let d := if d.canRun n then d.showPeriod n else d.toTrip n
    (d.pwmFlag n (1 ||| boolW tr.2 4)).raiseEvent (96 + n)

/-- The period boundary of channel `n`, in the present tick, after a HARD that is due. -/
def Device.boundary (d : Device) (n : Nat) : Device :=
  let d := d.hardNow n
  let old := d.pwmC n
  let x : BoundNote := { n := n, c0 := old, c1 := old, irq := d.intc.pend.getLsbD (33 + n), flags := d.hwBits (aPwm n 12) }
  let d := d.boundaryDo n old
  d.note (fun h => { h with bounds := { x with c1 := d.pwmC n } :: h.bounds })

/-- The bits of a word that was `a` before and `b` after something, and is `c` now, without that something: what has been set and
cleared since then stays. -/
def sinceThen (a b c : Word) : Word := (a &&& ~~~ (b &&& ~~~ c)) ||| (c &&& ~~~ b)

/-- Channel `c`, whose boundary of tick `now` made `c1` of `c0`, without that boundary. -/
def PwmCh.unbound (c c0 c1 : PwmCh) (now : Nat) : PwmCh :=
  let lat := sinceThen c0.trip c1.trip c.trip &&& 0xF
  let late := decide (c.pendAt = now) && decide (c0.pendAt ≠ now)
  { c0 with
    duty := c.duty, dutyAt := c.dutyAt, dutyOld := c.dutyOld,
    trip := tripFirst (lat ||| ((if wf c0.trip 3 0 = 0 then c.trip else c0.trip) &&& 0x700)), firstAt := c.firstAt,
    hardAt := c.hardAt, stat := sinceThen c0.stat c1.stat c.stat, short := if c.short = c1.short then c0.short else c.short,
    pend := if late then c.pend else c0.pend, pendAt := if late then now else c0.pendAt,
    pendOld := if late then c0.pend else c0.pendOld }

/-- The flags that boundary `x` has raised, and the interrupt they asked for, are taken back: what has been raised since then
stays. -/
def Device.boundFlags (d : Device) (x : BoundNote) : Device :=
  let c := d.pwmC x.n
  let ien := d.lv (aPwm x.n 15)
  let since := (c.stat &&& ~~~ x.c1.stat &&& ien) != 0 || (wb ien 8 && (c.trip &&& ~~~ x.c1.trip &&& 0xF) != 0)
  d.flagDown (aPwm x.n 12) (0x1F &&& ~~~ (x.flags ||| (c.stat &&& ~~~ x.c1.stat))) (33 + x.n) (x.irq || since)

/-- Something takes effect in the boundary tick of a channel, whose boundary `x` has been taken already: it is taken anew, as long
as the channel is enabled. A set swap gives the period that starts the new values (R292, R296), from the trip state of the new
PWM_TRIPCFG where the swap has `moved` it (R289); a comparator that asserts keeps HARD set (R284, R297). An interrupt that a core
has already claimed stays delivered (log 2). -/
def Device.boundaryAgain (d : Device) (x : BoundNote) (moved : Bool) : Device :=
  let n := x.n
  let c := d.pwmC n
  if c.en && c.first.isNone then
    let d := (d.boundFlags x).setPwm n (c.unbound x.c0 x.c1 d.nowN)
    (if moved && !x.c0.running then d.toTrip n else d).boundary n
  else d

/-- HARD, which boundary `x` cleared, has stayed set (R284, R297): also where the channel has been disabled since. -/
def Device.hardStays (d : Device) (x : BoundNote) : Device :=
  let c := d.pwmC x.n
  if wb c.trip 1 then d
  else d.setPwm x.n { c with trip := ((c.trip &&& 0xF) ||| 2) ||| (x.c0.trip &&& 0x700), firstAt := x.c0.firstAt }

/-! ### Enable, disable, load-all -/

/-- Enable channel `n` (R261, R262, R278): nothing changes for an enabled channel (R29). In FREEZE the counter of the delay does
not run (R849, R851). -/
def Device.pwmEnable (d : Device) (n : Nat) : Device :=
  if (d.pwmC n).en then d
  else
    let d := d.latchPwm n
    let from' := if d.frozen then d.dbg.frzAt else d.nowN
    d.setPwm n { d.pwmC n with
      en := true, first := some (from' + wf (d.lv (aPwm n 7)) 15 0), carry := 0, unitHold := false, running := false }

/-- Disable channel `n` (R263). -/
def Device.pwmDisable (d : Device) (n : Nat) : Device :=
  if (d.pwmC n).en then
    (d.setPwm n { d.pwmC n with en := false, first := none, carry := 0, pend := none, pendOld := none }).toTrip n
  else d

/-- The load-all of tick `now` at a channel (R267, R269, R270): it captures PWM_DUTY as it was at the end of the tick
before. -/
def PwmCh.load (c : PwmCh) (now : Nat) : PwmCh :=
  { c with
    pend := some (c.dutyBefore now), pendAt := now,
    pendOld := if c.pendAt = now && c.pend.isSome then c.pendOld else c.pend }

/-- A load-all of group `g` (R267, R268, R270, R271). -/
def Device.loadAll (d : Device) (g : Nat) : Device :=
  (List.range 4).foldl (fun d i =>
    let c := d.pwmC (4 * g + i)
    if c.en && c.xfer then d.setPwm (4 * g + i) (c.load d.nowN) else d)
    (d.note (fun h => { h with loads := h.loads ||| BitVec.twoPow 8 g }))

/-- PWM_LAPEND bit `g`: a channel of the group holds a pending value (R267). -/
def Device.laPend (d : Device) (g : Nat) : Bool := (List.range 4).any (fun i => (d.pwmC (4 * g + i)).pend.isSome)

/-- The word a writer stores (R265): a loop slot and a stall override always with FRAC = 1. -/
def dutyWord (who : Who) (v : Word) : Word :=
  match who with
  | .loop | .link => (v &&& 0x003FFFFF) ||| 0x80000000
  | _ => v &&& 0x803FFFFF

/-- PWM_DUTY as read (R11): a fraction is sign-extended through VALUE. -/
def dutyRead (v : Word) : Word := if wb v 31 then 0x80000000 ||| (wI (sxI 16 (wf v 15 0)) &&& 0x003FFFFF) else v

/-- A write of the shadow compare register (R44, R63): only the writer's write is taken. -/
def Device.dutyWrite (d : Device) (who : Who) (n : Nat) (v : Word) : Device :=
  if isWriter (d.writerOf n) who then d.setPwm n ((d.pwmC n).putDuty d.nowN (dutyWord who v)) else d

/-- A soft trip is requested in the present tick (R298, R391, R410): by PWM_SWTRIP or a pulse, or some route of kind 0b011
delivers 1. -/
def Device.softReq (d : Device) (n : Nat) : Bool :=
  d.here.soft.getLsbD n || (wb (d.tripCfg n) 6 &&
    (List.range 64).any (fun r =>
      match d.evr.dl.get (fun _ => none) r with
      | some (k, m) => decide (k = 3) && m.getLsbD n
      | none => false))

/-- A write of PWM_TRIPSTAT[n] (R28, R285, R287, R298, R410): HARD stays while a trip-enabled comparator is asserted, SAFE
while SAFE_n is low or the SAFE action is in force, SOFT while a soft trip is requested, and a latch set in this tick; a
latch that hardware sets in the tick of the write raises source 33 + n (R894). -/
def Device.tripClear (d : Device) (n : Nat) (v : Word) : Device :=
  let d := d.hardNow n
  let c := d.pwmC n
  let req := d.softReq n
  let m := d.w1c (aPwm n 13) (wd (wf v 3 0))
  let m := if d.cmpAsserted n then setB m 1 false else m
  let m := if d.safeIn then setB m 0 false else m
  let m := if req then setB m 3 false else m
  let again := (v &&& d.hwBits (aPwm n 13) &&& 0xF) != 0 || (req && wb v 3 && wb c.trip 3)
  (d.setPwm n { c with trip := tripFirst (c.trip &&& ~~~ m) }).raiseIf (again && wb (d.lv (aPwm n 15)) 8) (33 + n)

/-! ### What registers read -/

/-- The counter and DIR of PWM_CNT[n] (R258, R259). -/
def Device.pwmCnt (d : Device) (n : Nat) : Word :=
  let c := d.pwmC n
  if c.counting then
    let now := if d.frozen then d.dbg.frzAt else d.nowN
    let u := (now - c.bt) / 2 ^ c.pre % c.units
    if c.centre ∧ c.perN < u then wd (2 * c.perN - u + 0x10000) else wd u
  else 0

/-- The outputs show the waveform (R288, R295), custody of the pins apart (DESIGN CHOICE, log 95). -/
def Device.pwmRuns (d : Device) (n : Nat) : Bool :=
  (d.pwmC n).running && !d.safeIn && !d.frozen && !d.outOff

/-- PWM_STAT[n] (R295). -/
def Device.pwmStat (d : Device) (n : Nat) : Word :=
  let c := d.pwmC n
  (c.stat &&& 0x1F) ||| boolW (decide (c.perN = 0)) 5 ||| wd (0x100 * d.writerOf n) ||| boolW (d.pwmRuns n) 12

/-- A channel's next sample point, as ticks after the boundary, when the present period gives one (R290). -/
def PwmCh.sampleOfs (c : PwmCh) : Option Nat :=
  if c.counting && wb c.smp 16 && decide (wf c.smp 15 0 < c.units) && decide (c.periods % (wf c.smp 23 20 + 1) = 0)
  then some (wf c.smp 15 0 * 2 ^ c.pre) else none

/-- A write at offset `o` of the PWM block that does more than store (R261 to R301, R294, R295). -/
def Device.pwmWrite (d : Device) (who : Who) (o : Nat) (v : Word) : Option Device :=
  if o = 0 then some (forEach (bitsOf v.toNat 32) (fun n d => d.pwmEnable n) d)
  else if o = 4 then some (forEach (bitsOf v.toNat 32) (fun n d => d.pwmDisable n) d)
  else if o = 8 then some (forEach (bitsOf v.toNat 8) (fun g d => d.loadAll g) d)
  else if o = 0x10 then some (forEach (bitsOf v.toNat 32) (fun n d => d.softTrip n) d)
  else if o = 0x18 then some (d.mixedWrite who aPwmGctl 1 0 v)
  else if o < 0x100 ∨ 0x900 ≤ o then none
  else
    let n := (o - 0x100) / 0x40
    let c := d.pwmC n
    match o % 0x40 with
    | 0x20 => some (d.dutyWrite who n v)
    | 0x30 => some ((d.setPwm n { c with stat := c.stat &&& ~~~ (d.w1c (aPwm n 12) (v &&& 0x1F)) }).flagKept
        (aPwm n 12) (v &&& 0x1F) (d.lv (aPwm n 15)) (33 + n))
    | 0x34 => some (d.tripClear n v)
    | 0x38 => some (d.setPwm n { c with short := wf v 15 0 })
    | _ => none

/-- A read at offset `o` of the PWM block of a register with a home of its own (R294). -/
def Device.pwmRead (d : Device) (o : Nat) : Option Word :=
  if o = 0 ∨ o = 4 then some (wd (bitsFrom 32 (fun n => (d.pwmC n).en)))
  else if o = 0xC then some (wd (bitsFrom 8 (fun g => d.laPend g)))
  else if o = 0x14 then some (wd (bitsFrom 32 (fun n => decide (wf (d.pwmC n).trip 3 0 ≠ 0))))
  else if o = 0x18 then some (d.lv aPwmGctl ||| boolW d.safeIn 8)
  else if o < 0x100 ∨ 0x900 ≤ o then none
  else
    let n := (o - 0x100) / 0x40
    let c := d.pwmC n
    match o % 0x40 with
    | 0x20 => some (dutyRead c.duty)
    | 0x24 => some (wd c.on)
    | 0x28 => some (d.pwmCnt n)
    | 0x2C => some (wI c.carry)
    | 0x30 => some (d.pwmStat n)
    | 0x34 => some c.trip
    | 0x38 => some (wd c.short)
    | _ => none

/-! ### The events of the stage -/

/-- SAFE_n falls: the SAFE latches are set and source 249 rises (R47, R49, R280, R891). -/
def execSafeAssert (s : State) : Host.Outcome State Fault Refusal :=
  s.run (fun d => ({ d with rst := { d.rst with safeLow := true } }).safeTrips.levelsChanged)

/-- SAFE_n returns high (R194): the latches stay until they are cleared (R283, R286). -/
def execSafeRelease (s : State) : Host.Outcome State Fault Refusal :=
  s.run (fun d => ({ d with rst := { d.rst with safeLow := false } }).levelsChanged)


end Sys2Proof.Machine
end

