-- ==== Sys2Proof/Machine/Le.lean ====
section
/-! DEFINITION. The loop engine (R302 to R355): slots, triggers, lanes, completion, arenas, supervision, faults. -/
namespace Sys2Proof.Machine

/-- Set bits of LE_STAT[n] and raise source 65 + n by LE_IEN (R323). -/
def Device.leFlag (d : Device) (n : Nat) (bits : Word) : Device :=
  let c := d.slotC n
  (d.setSlot n { c with stat := c.stat ||| bits }).flagUp (aLe n 4) c.stat bits (d.lv (aLe n 6)) (65 + n)

/-- Clear the internal state of a slot (R369): a pending bumpless change is discarded. -/
def LeSlot.clearLaw (c : LeSlot) : LeSlot := { c with law := {}, bump := false, clr := false }

/-! ### Triggers (R313 to R317) -/

/-- Slot `n` as it is before the first trigger of the present tick, for a disable of the tick (R350). -/
def Device.noteTrig (d : Device) (n : Nat) : Device :=
  if d.here.trigs.any (fun x => decide (x.1 = n)) then d
  else d.note (fun h => { h with trigs := (n, d.slotC n, d.intc.pend.getLsbD (65 + n)) :: h.trigs })

/-- A trigger reaches slot `n` (R316, R317). -/
def Device.slotTrigger (d : Device) (n : Nat) : Device :=
  if d.parked || d.frozen then d
  else
    let d := d.noteTrig n
    let c := d.slotC n
    match c.st with
    | .idle => d.setSlot n { c with st := .queued, trigAt := d.nowN }
    | .queued | .running => (d.setSlot n { c with cntOvr := satInc 16 c.cntOvr }).leFlag n 2
    | _ => d

/-- A trigger of kind TRIG = `kind` from source `src` (R314, R315): every slot that names it. -/
def Device.triggerBy (d : Device) (kind src : Nat) : Device :=
  d.slotsOn.foldl (fun d n =>
    if wf (d.desc n 0) 11 10 = kind ∧ wf (d.desc n 0) 16 12 = src then d.slotTrigger n else d) d

/-- The router's loop-slot trigger destination `n` (R314, R391). -/
def Device.routerTrigger (d : Device) (n : Nat) : Device :=
  if wf (d.desc n 0) 11 10 = 1 then d.slotTrigger n else d

/-! ### Enable (R304, R305, R341) -/

/-- The channels an enabled slot claims under a set `g` (its descriptor words and arena maps): a member, those of its arena's map
(DESIGN CHOICE, log 107). -/
def claimed (g : Nat → Word) (n : Nat) : List Nat :=
  (slotEntries (g (aDesc n 0)) (g (aDesc n 2)) (g (aDesc n 3)) (fun k => g (aArena k))).map (fun e => e.1)

def noRepeat : List Nat → Bool
  | [] => true
  | a :: t => !t.elem a && noRepeat t

/-- Slot `n` fails the checks of R305 among the enabled slots `on`, under the set `g`. -/
def slotConflict (g : Nat → Word) (on : List Nat) (n : Nat) : Bool :=
  let w0 := g (aDesc n 0)
  let mine := claimed g n
  let member := wb w0 24
  let ar := wf w0 23 21
  let same := fun j => wb (g (aDesc j 0)) 24 && decide (wf (g (aDesc j 0)) 23 21 = ar)
  !noRepeat mine
    || (member && decide (wf w0 6 5 ≠ 0))
    || (member && decide (4 < (on.filter same).length))
    || on.any (fun j => decide (j ≠ n) && !(member && same j) && (claimed g j).any (fun ch => mine.elem ch))

/-- The slots in force would fail R305 with the set `g` (R341). -/
def Device.setConflict (d : Device) (g : Nat → Word) : Bool :=
  d.slotsOn.any (fun n => slotConflict g d.slotsOn n)

/-- EN = 1 written to slot `n` (R304, R305, R353). -/
def Device.slotEnable (d : Device) (n : Nat) : Device :=
  let c := d.slotC n
  if c.st != .off then d
  else if slotConflict d.act ((d.slotsOn.filter (fun j => decide (j ≠ n))) ++ [n]) n then d.leFlag n 0x40
  else d.setSlot n { c.clearLaw with st := .idle, fecnt := 0, lose := false, done := false }

/-! ### Arenas (R325 to R330) -/

/-- A member is eligible (R327). -/
def LeSlot.eligible (c : LeSlot) : Bool :=
  (match c.st with | .idle | .queued | .running => true | _ => false) && c.done

/-- The lower of two candidates; a tie goes to the one found first (R326, R351). -/
def lower (a : Option (Int × Nat)) (b : Int × Nat) : Option (Int × Nat) :=
  match a with
  | none => some b
  | some x => if b.1 < x.1 then some b else some x

/-- The winner of arena `a`, with member `me` counted as eligible with output `u` (R326, R367). -/
def Device.pick (d : Device) (a : Nat) (me : Option (Nat × Int)) : Option (Int × Nat) :=
  ((d.members a).filterMap (fun j =>
    match me with
    | some (n, u) => if j = n then some (u, j) else
        if (d.slotC j).eligible then some ((d.slotC j).law.u0, j) else none
    | none => if (d.slotC j).eligible then some ((d.slotC j).law.u0, j) else none)).foldl lower none

/-- Slot `n`'s write of a duty pattern to PWM_DUTY[ch], always with FRAC = 1 (R265): taken where the slot is the writer (R44,
R322, R339). -/
def Device.slotWrite (d : Device) (n ch pat : Nat) : Device :=
  if d.slotWrites n ch then d.setPwm ch ((d.pwmC ch).putDuty d.nowN (dutyWord .loop (wd (0x80000000 + pat)))) else d

/-- Slot `n` writes `u` through a list of entries (R321). -/
def Device.writeEntries (d : Device) (n : Nat) (es : List (Nat × Nat × Nat)) (u : Nat → Int) : Device :=
  es.foldl (fun d e => d.slotWrite n e.1 (xform e.2.1 (u e.2.2))) d

/-- LOSE of slot `n` by the winner that its arena has (R328). -/
def Device.loseNow (d : Device) (n : Nat) : Bool :=
  match d.arenaOf n with
  | some a => (d.slotC n).eligible && decide (d.le.win.get (fun _ => 0) a ≠ n + 1)
  | none => false

/-- LOSE of slot `n` follows the winner and its eligibility (R328). -/
def Device.loseSync (d : Device) (n : Nat) : Device := d.setSlot n { d.slotC n with lose := d.loseNow n }

/-- Arena `a` selects again: LOSE of every member, the winner, its write through the map `m` when `wr` holds, source 192 + a when the
winner changed (R326 to R330). The first winner of an arena that had none is a change of winner too (R329; DESIGN CHOICE, log 107). -/
def Device.arenaSelect (d : Device) (a : Nat) (wr : Bool) (m : Word) : Device :=
  let p := d.pick a none
  let win := match p with | some (_, j) => j + 1 | none => 0
  let old := d.le.win.get (fun _ => 0) a
  let chg := d.le.chg.get (fun _ => false) a || decide (old ≠ win)
  let d := { d with le := { d.le with
    win := d.le.win.set (fun _ => 0) a win, chg := d.le.chg.set (fun _ => false) a chg } }
  let d := (d.members a).foldl (fun d j => d.loseSync j) d
  match p with
  | none => d
  | some (u, j) =>
    if wr && !d.arenaOvrd a then
      let d := d.writeEntries j (mapEntries m) (fun _ => u)
      if chg then
        ({ d with le := { d.le with chg := d.le.chg.set (fun _ => false) a false } }).raiseEvent (192 + a)
      else d
    else d

/-- Slot `n` has left eligibility: when it was the winner of its arena, the arena selects again at once (R327). -/
def Device.arenaLeft (d : Device) (n : Nat) : Device :=
  match d.arenaOf n with
  | none => d
  | some a =>
    let d := d.setSlot n { d.slotC n with lose := false }
    if d.le.win.get (fun _ => 0) a = n + 1 then d.arenaSelect a true (d.act (aArena a)) else d

/-- The slot as it is without the triggers of tick `now`: `c0` is what it was before the first of them, `f` the flags they set. What
they counted and set is gone, with an evaluation that one of them began; what an older evaluation has done in the tick stands. -/
def LeSlot.untriggered (c c0 : LeSlot) (now : Nat) (f : Word) : LeSlot :=
  let c := { c with cntOvr := c0.cntOvr, stat := c.stat &&& ~~~ f }
  if c.trigAt ≠ now then c
  else
    let c := { c with
      bump := c.bump || c0.bump, clr := c.clr || c0.clr,
      run := match c.run with | some r => if r.trigAt = now then none else some r | none => none }
    if c0.run.isNone then { c with law := c0.law } else c

/-- The triggers of the present tick come after a disable of slot `n` in it (R350; log 110). -/
def Device.untrigger (d : Device) (n : Nat) : Device :=
  match d.here.trigs.find? (fun x => decide (x.1 = n)) with
  | some (_, c0, irq) =>
    let c := d.slotC n
    let gone := c.stat &&& ~~~ c0.stat &&& (if c.trigAt = d.nowN then 0x22 else 2)
    let d := (d.setSlot n (c.untriggered c0 d.nowN gone)).note (fun h => { h with
      trigs := h.trigs.filter (fun x => decide (x.1 ≠ n)) })
    if gone = 0 then d else d.flagDown (aLe n 4) gone (65 + n) (irq || decide ((d.slotC n).stat &&& ~~~ c0.stat &&& d.lv (aLe n 6) ≠ 0))
  | none => d

/-- EN = 0 written to slot `n` (R306, R350): a running evaluation completes with its writes discarded. -/
def Device.slotDisable (d : Device) (n : Nat) : Device :=
  let d := d.untrigger n
  let c := d.slotC n
  if c.st = .off then d
  else
    (d.setSlot n { c with st := .off, lose := false, run := c.run.map (fun r => { r with stop := true }) }).arenaLeft n

/-! ### Faults and supervision (R331 to R337) -/

/-- The slot goes to FAULT with a code; FLTOUT, and the loop-fault trip when asked for (R333, R335). FLTOUT and the output entries are
those of the descriptor's words `w` as they stand stored, in a descriptor with an uncorrectable word too (DESIGN CHOICE, log 107). -/
def Device.slotFault (d : Device) (n code : Nat) (w : List Word) (trip : Bool) : Device :=
  let es := slotEntries (nth w 0) (nth w 2) (nth w 3) (fun k => d.act (aArena k))
  let member := wb (nth w 0) 24
  let flt := wf (nth w 0) 20 19
  let d := (d.setSlot n { d.slotC n with run := none, fcode := code }).leFlag n 0x10
  let d := if flt = 1 ∧ member = false then es.foldl (fun d e => d.slotWrite n e.1 0) d else d
  let d := d.setSlot n { d.slotC n with st := .fault }
  let d := if trip || decide (flt = 2) then d.loopTrip (es.map (fun e => e.1)) else d
  d.arenaLeft n

/-- CLRFLT (R337). -/
def Device.slotClearFault (d : Device) (n : Nat) : Device :=
  let c := d.slotC n
  match c.st with
  | .held | .parked | .fault =>
    let c := { c with st := .idle, fecnt := 0, fcode := 0, done := false }
    d.setSlot n (if wb (d.desc n 0) 17 then c.clearLaw else c)
  | _ => d

/-- CLRST (R338): the internal state is cleared before the next evaluation. -/
def Device.slotClearState (d : Device) (n : Nat) : Device := d.setSlot n { d.slotC n with clr := true }

/-- OVRD of slot `n` takes value `b` (R322): a write of the slot that became visible in the tick in which OVRD becomes 1 is
discarded (R352). -/
def Device.ovrdWrite (d : Device) (n : Nat) (b : Bool) : Device :=
  let was := d.slotOvrd n
  let d := d.setSlot n { d.slotC n with ovrd := b }
  if b && !was && d.slotOn n then
    (d.slotMap n).foldl (fun d e =>
      let c := d.pwmC e.1
      d.setPwm e.1 { c with duty := c.dutyBefore d.nowN }) d
  else d

/-- A write of LE_SLOT_CTL[n]: EN, OVRD, CLRFLT, CLRST (R304, R306, R322, R337, R338, R347). -/
def Device.slotCtlWrite (d : Device) (n : Nat) (v : Word) : Device :=
  let d := d.ovrdWrite n (wb v 1)
  let d := if wb v 0 then d.slotEnable n else d.slotDisable n
  let d := if wb v 8 then d.slotClearFault n else d
  if wb v 9 then d.slotClearState n else d

/-! ### Lanes (R309 to R312, R318) -/

/-- The engine reads the word of LE RAM at the active-view address `k` (R349, R669, R670, R684): corrected where one
bit is wrong; true where uncorrectable. -/
def Device.leCheck (d : Device) (k : Nat) : Device × Bool :=
  match d.eccOf k with
  | .good => (d, false)
  | .single => ((d.setEcc k .good).countCe 5 k, false)
  | .bad => (d.countUe 5 k (whoIdx .loop) 0, true)

/-- The engine reads the words of LE RAM at the addresses `l`; true where one is uncorrectable. -/
def Device.leCheckAll (d : Device) (l : List Nat) : Device × Bool :=
  l.foldl (fun s k => ((s.1.leCheck k).1, s.2 || (s.1.leCheck k).2)) (d, false)

/-- The words of a coefficient page that hold an entry the slot uses (R364, R365); other entries are not read. -/
def pageReads (w : List Word) : List Nat :=
  let s := List.range (dNst w)
  let o := List.range (dNout w + 1)
  let m := List.range (dNin w + 1)
  let at2 := fun (b r : Nat) (xs ys : List Nat) => xs.flatMap (fun i => ys.map (fun k => (b + 2 * (r * i + k)) / 4))
  let used := at2 0 6 s s ++ at2 0x48 3 s o ++ at2 0x6C 4 s m ++ at2 0x9C 6 m s ++ at2 0xCC 6 o s ++ at2 0xF0 1 s [0]
  (List.range 64).filter (fun x => used.elem x)

/-- The descriptor checks at the start of an evaluation (R309). -/
def descBad (w : List Word) : Bool :=
  let es := if wb (nth w 0) 24 then [] else entries (nth w 2) (nth w 3)
  decide (2 ≤ dLaw w)
    || (decide (dLaw w = 0) && decide (dNout w ≠ 0))
    || (decide (dLaw w = 1) && (decide (dNst w = 0) || decide (dNst w = 7) || decide (23 < wf (nth w 5) 20 16)))
    || decide (dNout w = 3)
    || (List.range (dNin w + 1)).any (fun i =>
        let k := fld (nth w 1).toNat (8 * i + 6) (8 * i + 5)
        decide (k = 3) || (decide (k = 1) && decide (15 < fld (nth w 1).toNat (8 * i + 4) (8 * i))))
    || es.any (fun e => decide (dNout w < e.2.2))

/-- Input `i` of slot `n` and its VLO flag (R310 to R312). -/
def Device.slotInput (d : Device) (n : Nat) (w : List Word) (i : Nat) : Int × Bool :=
  let src := fld (nth w 1).toNat (8 * i + 4) (8 * i)
  match fld (nth w 1).toNat (8 * i + 6) (8 * i + 5) with
  | 0 => (sxI 16 (d.snsC src).handed.toNat, (d.snsC src).handedVlo)
  | 1 => (trackerInput (d.trkC src).pos (d.lv (aLe n 2)) (d.act (aTrkMod src)).toNat (wf (nth w 5) 28 24), false)
  | _ => ((d.slotC src).law.u0, false)

/-- The slots whose evaluation occupies a lane. -/
def Device.lanesBusy (d : Device) : List Nat := (List.range 32).filter (fun n => (d.slotC n).run.isSome)

/-- The lowest-numbered free lane (R318). -/
def Device.freeLane (d : Device) : Option Nat :=
  (List.range 4).find? (fun k => !d.lanesBusy.any (fun n => decide ((d.slotC n).lane = k)))

/-- The inputs of slot `n` are read and its evaluation begins, unless an input at VDDALO skips it (R310 to R312). -/
def Device.startEval (d : Device) (n : Nat) (w pg : List Word) : Device :=
  let ins := (List.range (dNin w + 1)).map (fun i => d.slotInput n w i)
  let vlo := ins.any (fun x => x.2)
  let d := if vlo then d.leFlag n 0x20 else d
  let c := d.slotC n
  if vlo && wb (nth w 0) 18 then d.setSlot n { c with st := .idle }
  else d.setSlot n { c with
    st := .running, bump := false,
    run := some { desc := w, page := pg, map := d.act (aArena (wf (nth w 0) 23 21)), trigAt := c.trigAt, m := ins.map (fun x => x.1), r := sxI 16 (wf (d.lv (aLe n 1)) 15 0),
                  lose := c.lose, ovrd := d.slotOvrd n, bump := c.bump, stop := false } }

/-- A lane starts the evaluation of slot `n` (R309 to R312, R318, R335, R339). One that ends here by a fault is no completion (R323;
DESIGN CHOICE, log 107). -/
def Device.startSlot (d : Device) (n lane : Nat) : Device :=
  let c := d.slotC n
  let c := if c.clr then c.clearLaw else c
  let w := (List.range 16).map (fun i => d.desc n i)
  let r := (d.setSlot n { c with lane := lane }).leCheckAll ((List.range 16).map (fun i => aDesc n i + 0x8000))
  let d := r.1
  if r.2 then d.slotFault n 1 w false
  else if descBad w then d.slotFault n 2 w false
  else if dLaw w = 1 then
    let p := wf (nth w 5) 20 16
    let pg := (List.range 64).map (fun i => d.act (aPage p i))
    let q := d.leCheckAll ((pageReads w).map (fun i => aPage p i + 0x8000))
    if q.2 then q.1.slotFault n 1 w false else q.1.startEval n w pg
  else d.startEval n w []

/-! ### Completion (R321 to R334) -/

/-- The new internal state of an evaluation (R360, R366, R367); `arena` is the arena the member writes through. -/
def Device.evaluate (d : Device) (n : Nat) (x : LeRun) (c : LeSlot) (arena : Option Nat) : LawSt :=
  let sat := x.lose || x.ovrd
  if dLaw x.desc = 0 then evalPid x.desc x.m x.r sat x.bump c.law
  else
    let o := sfControl x.desc x.page x.m x.r x.bump c.law
    let ua := match arena with
      | some a => match d.pick a (some (n, at0 o.u 0)) with
        | some (u, _) => u :: o.u.drop 1
        | none => o.u
      | none => o.u
    sfPredict x.desc x.page x.r sat o ua c.law

/-- The completion flags, event, mirror record and trigger chain of slot `n` (R314, R323, R324). -/
def Device.slotDone (d : Device) (n : Nat) : Device :=
  let d := (d.leFlag n 1).raiseEvent (160 + n)
  let c := d.slotC n
  let ma := (d.lv (aLe n 7)).toNat
  let d :=
    if ma = 0 then d
    else if ma % 8 ≠ 0 ∨ ma < 0x10000000 ∨ 0x10080000 ≤ ma then d.leFlag n 0x100
    else
      let w0 := wd (toBits 16 c.law.u0 + 0x10000 * toBits 16 c.law.u1)
      let w1 := wd (toBits 16 c.law.u2 + 0x10000 * (d.nowN % 0x10000))
      let d' := d.setSlot n { c with mirror := some (ma, w0, w1) }
      if c.mirror.isSome then d'.leFlag n 0x80 else d'
  d.triggerBy 3 n

/-- Whether the error of an evaluation exceeds FE_LIMIT (R331): e = r - m0. -/
def LeRun.beyond (x : LeRun) : Bool :=
  let lim : Int := wf (nth x.desc 4) 15 0
  let e := x.r - at0 x.m 0
  decide (lim < e) || decide (lim < -e)

/-- FECNT after the evaluation `x` (R331): it is frozen while LOSE or OVRD is 1. -/
def LeRun.count (x : LeRun) (n : Nat) (frozen : Bool) : Nat :=
  if wf (nth x.desc 4) 23 16 = 0 ∨ frozen = true then n else if x.beyond then min 255 (n + 1) else 0

/-- Slot `n` completes its evaluation (R323, R331 to R334). The evaluation of a slot disabled meanwhile completes with its
duties discarded and without an action of its supervision (R306; log 79); of one that has been enabled again since, the
results are no part of the cleared state. OVRD of any member of its arena freezes FECNT, and the action PARK of an evaluation that is
late with DLACT = 1 writes its duty 0 (R330, R331, R334; DESIGN CHOICE, log 107). -/
def Device.slotComplete (d : Device) (n : Nat) (x : LeRun) : Device :=
  let c := d.slotC n
  let w := x.desc
  let member := wb (nth w 0) 24
  let ar := if member then some (wf (nth w 0) 23 21) else none
  let dl := wf (nth w 5) 15 0
  let miss := decide (dl ≠ 0) && decide (dl < d.nowN - x.trigAt)
  let drop := x.stop || (miss && wb (nth w 0) 25)
  let again := x.stop && decide (c.st ≠ .off)
  let frozen := c.lose || d.slotOvrd n
  let fet := wf (nth w 4) 23 16
  let fe := x.count c.fecnt frozen
  let hit := decide (fet ≠ 0) && !frozen && decide (fet ≤ fe) && !again
  let act := wf (nth w 4) 25 24
  let shut := match ar with | some a => d.arenaOvrd a | none => false
  let law := if again then c.law
    else d.evaluate n x c (if drop || shut || (hit && decide (act ≠ 0)) then none else ar)
  let c := { c with law := law, run := none, done := c.done || !x.stop,
                    cntDl := if miss then satInc 16 c.cntDl else c.cntDl,
                    fecnt := if again then c.fecnt else if hit && decide (act = 0) then 0 else fe,
                    st := if c.st = .running then .idle else c.st }
  let d := d.setSlot n c
  let d := if miss then d.leFlag n 4 else d
  let d := if hit then d.leFlag n 8 else d
  let d :=
    if x.stop then d
    else if hit && decide (act = 3) then d.slotFault n 3 w true
    else if hit && decide (act ≠ 0) then
      let d := if act = 2 ∧ member = false then (entries (nth w 2) (nth w 3)).foldl (fun d e => d.slotWrite n e.1 0) d else d
      (d.setSlot n { d.slotC n with st := if act = 1 then .held else .parked }).arenaLeft n
    else
      match ar with
      | some a => (d.arenaSelect a (!drop) x.map).loseSync n
      | none =>
        if drop then d
        else d.writeEntries n (entries (nth w 2) (nth w 3))
          (fun i => match i with | 0 => law.u0 | 1 => law.u1 | _ => law.u2)
  d.slotDone n

/-! ### PARK, reset, registers -/

/-- The slots at the change from PARK to RUN (R343) and at the end of FREEZE (R851): each slot in IDLE is resumed, so
it is eligible only after its next evaluation, and an arena whose winner left selects again (R327). -/
def Device.slotsResume (d : Device) : Device :=
  let d := (List.range 32).foldl (fun d n =>
    let c := d.slotC n
    if c.st = .idle then
      let c := { c with done := false }
      d.setSlot n (if wb (d.desc n 0) 17 then c.clearLaw else c)
    else d) d
  (List.range 32).foldl (fun d n => if (d.slotC n).st = .idle then d.arenaLeft n else d) d

/-- Every slot to OFF with its internal state cleared; evaluations abandoned (R172, R344). A mirror record that still waits for its write
goes with them (DESIGN CHOICE, log 107). -/
def Device.slotsOff (d : Device) : Device := { d with le := { d.le with slot := [], win := [], chg := [] } }

/-- The state code of R303. -/
def slotCode : SlotSt → Nat
  | .off => 0 | .idle => 1 | .queued => 2 | .running => 3 | .held => 4 | .parked => 5 | .fault => 6

/-- A write at offset `o` of the LE control block that does more than store. LANEFAIL is cleared by a START that begins a test and stays at
one that is refused (R345; DESIGN CHOICE, log 30). -/
def Device.leWrite (d : Device) (who : Who) (o : Nat) (v : Word) : Option Device :=
  if o = 8 then some (forEach (bitsOf v.toNat 32) (fun n d => d.slotTrigger n) d)
  else if o = 0x10 then
    some (if wb v 0 && !d.le.bistBusy then
      (if d.pwr.mode = .park ∧ d.lanesBusy = [] then
        { d with le := { d.le with bistBusy := true, bistRes := 0, laneFail := 0 } }
      else { d with le := { d.le with bistRes := 3 } })
    else d)
  else if o < 0x100 ∨ 0x500 ≤ o then none
  else
    let n := (o - 0x100) / 0x20
    let c := d.slotC n
    match o % 0x20 with
    | 0 => some (if who = .link then d.ovrdWrite n (wb v 1) else d.slotCtlWrite n v)
    | 0x10 => some ((d.setSlot n { c with stat := c.stat &&& ~~~ (d.w1c (aLe n 4) (v &&& 0x1FF)) }).flagKept
        (aLe n 4) v (d.lv (aLe n 6)) (65 + n))
    | 0x14 => some ((d.setSlot n { c with cntOvr := wf v 15 0, cntDl := wf v 31 16 }).note (fun h => { h with
        trigs := h.trigs.map (fun x => if x.1 = n then (x.1, { x.2.1 with cntOvr := wf v 15 0 }, x.2.2) else x) }))
    | _ => none

/-- A read at offset `o` of the LE control block. -/
def Device.leRead (d : Device) (o : Nat) : Option Word :=
  if o = 0 then some (wd (bitsFrom 32 (fun n => decide ((d.slotC n).st = .queued))))
  else if o = 4 then some (wd (bitsFrom 32 (fun n => decide ((d.slotC n).st = .running))))
  else if o = 0xC then some (wd (bitsFrom 32 (fun n => decide ((d.slotC n).st = .fault))))
  else if o = 0x10 then
    some (boolW d.le.bistBusy 8 ||| wd (0x200 * d.le.bistRes) ||| wd (0x1000 * d.le.laneFail.toNat))
  else if 0x60 ≤ o ∧ o < 0x80 then
    let a := (o - 0x60) / 4
    let w := d.le.win.get (fun _ => 0) a
    some (if w = 0 then 0 else wd (w - 1 + 0x80 + 0x10000 * toBits 16 (d.slotC (w - 1)).law.u0))
  else if o < 0x100 ∨ 0x500 ≤ o then none
  else
    let n := (o - 0x100) / 0x20
    let c := d.slotC n
    match o % 0x20 with
    | 0 => some (boolW (d.slotOn n) 0 ||| boolW c.ovrd 1 ||| wd (0x10000 * slotCode c.st)
        ||| wd (if c.st = .running then 0x100000 * c.lane else 0))
    | 0xC => some (wd (toBits 16 c.law.u0 + 0x10000 * c.fecnt))
    | 0x10 => some (c.stat ||| wd (0x10000 * c.fcode) ||| boolW c.lose 20)
    | 0x14 => some (wd (c.cntOvr + 0x10000 * c.cntDl))
    | _ => none

/-! ### The events of the engine -/

/-- The lane and the slot whose evaluation starts next: the lowest QUEUED slot (R318) that holds no lane (DESIGN CHOICE, log 107). Lanes
start nothing in PARK, SLEEP or FREEZE (log 13). -/
def Device.laneNext (d : Device) : Option (Nat × Nat) :=
  if d.parked || d.frozen then none
  else
    match d.freeLane, (List.range 32).find? (fun n => decide ((d.slotC n).st = .queued) && (d.slotC n).run.isNone) with
    | some k, some n => some (k, n)
    | _, _ => none

/-- The start of slot `n` meets an error of the ECC or of the descriptor (R309, R335, R349). -/
def Device.startSpoilt (d : Device) (n : Nat) : Bool :=
  let w := (List.range 16).map (fun i => d.desc n i)
  (List.range 16).any (fun i => d.eccOf (aDesc n i + 0x8000) != .good) || descBad w
    || (decide (dLaw w = 1) && (pageReads w).any (fun i => d.eccOf (aPage (wf (nth w 5) 20 16) i + 0x8000) != .good))

/-- The tick in which the next evaluation starts, where it is not the present one: a start that meets an error comes a tick after the
trigger, so that a disable of the trigger's tick finds none of it (R350; DESIGN CHOICE, log 110). -/
def Device.laneTick (d : Device) : Option Nat :=
  match d.laneNext with
  | some (_, n) => if decide ((d.slotC n).trigAt = d.nowN) && d.startSpoilt n then some (d.nowN + 1) else none
  | none => none

/-- A free lane takes the lowest QUEUED slot (R318). -/
def Device.laneStart (d : Device) : Device :=
  match d.laneNext with
  | some (k, n) => d.startSlot n k
  | none => d

/-- The tick in which the evaluation of slot `n` ends, where it is not the present one: none ends in the tick of its trigger
(R41; DESIGN CHOICE, log 110). -/
def Device.endTick (d : Device) (n : Nat) : Option Nat :=
  match (d.slotC n).run with
  | some x => if x.trigAt = d.nowN then some (d.nowN + 1) else none
  | none => none

/-- The evaluation of slot `n` is complete; the last one that runs on in PARK brings the trip state (R139). -/
def Device.slotEnd (d : Device) (n : Nat) : Device :=
  match (d.slotC n).run with
  | some x =>
    let d := d.slotComplete n x
    if d.pwr.parkWait && decide (d.lanesBusy = []) then
      ({ d with pwr := { d.pwr with parkWait := false } }).tripAll
    else d
  | none => d

/-- The self-test ends (R345); `lanes` names the lanes that failed. -/
def execLeBistDone (lanes : BitVec 4) (s : State) : Host.Outcome State Fault Refusal :=
  s.run (fun d =>
    if d.le.bistBusy then
      { d with le := { d.le with bistBusy := false, bistRes := if lanes = 0 then 1 else 2, laneFail := lanes } }
    else d)

end Sys2Proof.Machine
end

