-- ==== Sys2Proof/Machine/Pwr.lean ====
section
/-! DEFINITION. Pace and power without resets (R116 to R154): the pace loop, below-floor detection, the power states,
operating hours and the aging ledger. -/
namespace Sys2Proof.Machine

/-! ### Pace figures (R117, R119, R124, R138, R892) -/

/-- PWR_PACE_FLOOR: fuse word 1 [15:0], 1,150 where it loads as 0 (R117, R892). -/
def Device.paceFloor (d : Device) : Nat := let f := wf (d.fuseW 1) 15 0; if f = 0 then 1150 else f
/-- PWR_PACE_REF0 (R152). -/
def Device.paceRef0 (d : Device) : Nat := wf (d.fuseW 1) 31 16
/-- The reset value of PWR_PACE_TGT (R892). -/
def Device.paceTgt0 (d : Device) : Nat := let f := wf (d.fuseW 2) 15 0; if f = 0 then 2 * d.paceFloor else f
/-- The floor of below-floor decisions (R119). -/
def Device.floorCmp (d : Device) : Nat := if d.time.src then (d.paceFloor * 102 + 99) / 100 else d.paceFloor

/-- Core `c` is running in the sense of R137. -/
def Device.coreRuns (d : Device) (c : Nat) : Bool :=
  match (d.coreC c).st with | .running | .bootWait => true | _ => false

/-- Core `c` is halted by the service tool and not held in reset (R839). -/
def Device.toolHalt (d : Device) (c : Nat) : Bool :=
  (d.coreC c).halted && (match (d.coreC c).st with | .running | .asleep => true | _ => false)

/-- The device is in DOZE (R137, R839). -/
def Device.dozing (d : Device) : Bool :=
  decide (d.pwr.mode = .run) && (List.range 4).any (fun c => decide ((d.coreC c).st = .asleep))
    && !(List.range 4).any (fun c => d.coreRuns c || d.toolHalt c)

/-- The pace target in force (R121, R138): a target written in the present tick is not used in it (R123). -/
def Device.paceTarget (d : Device) : Nat :=
  let doze := wf (d.lv (bPWR + 0x2C)) 15 0
  if d.dozing && doze != 0 then max doze d.paceFloor else wf (d.here.tgt.getD (d.lv aPaceTgt)) 15 0

/-- A write of PWR_PACE_TGT (R124). -/
def Device.paceTgtWrite (d : Device) (v : Word) : Device :=
  (d.note (fun h => { h with tgt := some (h.tgt.getD (d.lv aPaceTgt)) })).setLv aPaceTgt (wd (max (wf v 15 0) d.paceFloor))

/-- N of R121. -/
def gainN (ctl : Word) : Nat := match wf ctl 5 4 with | 0 => 8 | 1 => 4 | 2 => 16 | _ => 32

/-! ### Window ends (R116, R121, R125 to R128, R144) -/

/-- One step of the pace loop (R121, R125, R126, R156), with the target `tgt`. -/
def Device.paceLoop (d : Device) (tgt : Nat) : Device :=
  let p := d.pwr
  let ctl := d.lv aPwrCtl
  let db : Int := wf ctl 14 6
  let e : Int := tgt - p.paceNow
  let hi := decide (db < e)
  let lo := decide (e < -db)
  let hiN := if hi then p.hiRun + 1 else 0
  let loN := if lo then p.loRun + 1 else 0
  let up := decide (gainN ctl ≤ hiN)
  let dn := decide (gainN ctl ≤ loN)
  let top := decide (p.vcode = 60)
  { d with pwr := { p with
    hiRun := if up then 0 else hiN, loRun := if dn then 0 else loN,
    vcode := if up && decide (p.vcode < 60) then p.vcode + 1 else if dn && decide (0 < p.vcode) then p.vcode - 1 else p.vcode,
    ceil := top && (hi || p.under), vmin := lo && decide (p.vcode = 0),
    ceilCnt := if top && hi then wd (satInc 32 p.ceilCnt.toNat) else p.ceilCnt } }

/-- One step of a wake ramp (R144, R893). -/
def Device.rampStep (d : Device) : Device :=
  let p := d.pwr
  let v := if p.vcode < p.wake then p.vcode + 1 else p.vcode
  { d with pwr := { p with vcode := v, ramp := decide (v < p.wake), ceil := false, vmin := false, hiRun := 0, loRun := 0 } }

/-- The end of a below-floor episode (R128): the first one in an operating hour leaves a PACE_LOW record. DESIGN CHOICE
(log 80): an episode belongs to the operating hour in which it ends. -/
def Device.episodeEnd (d : Device) : Device :=
  let p := d.pwr
  if p.episode then
    let d := { d with pwr := { p with episode := false, okRun := 0, underRun := 0, lowHour := true } }
    (if p.lowHour then d else d.recDue (LedgerDue.paceLow p.epLow)).levelsChanged
  else d

/-- The start of a below-floor episode (R127, R128) but for the action of R129. -/
def Device.episodeStart (d : Device) : Device :=
  let p := d.pwr
  ((({ d with pwr := { p with
    episode := true, below := true, epLow := p.paceNow, okRun := 0, belowCnt := satInc 16 p.belowCnt } }).hwFlag
      (bPWR + 4) 2).levelsChanged).raiseIrq 172

/-- Below-floor detection at a window end (R127, R128); whether an episode starts. -/
def Device.paceDetect (d : Device) : Device × Bool :=
  let p := d.pwr
  if p.under then
    let n := p.underRun + 1
    let d := { d with pwr := { p with underRun := n, okRun := 0, epLow := min p.epLow p.paceNow } }
    if !p.episode && decide (4 ≤ n) then (d.episodeStart, true) else (d, false)
  else
    let n := p.okRun + 1
    let d := { d with pwr := { p with okRun := n, underRun := 0 } }
    (if 4 ≤ n then d.episodeEnd else d, false)

/-! ### Power states (R136 to R144) -/

/-- PARK is entered (R139): the outputs take the trip state once the running evaluations have completed. -/
def Device.parkEnter (d : Device) : Device :=
  if d.pwr.mode = .run then
    if d.lanesBusy = [] then ({ d with pwr := { d.pwr with mode := .park } }).tripAll
    else { d with pwr := { d.pwr with mode := .park, parkWait := true } }
  else d

/-- PARK is requested (R139, R129, R158): REQ reads PARK. -/
def Device.parkRequest (d : Device) : Device := ({ d with pwr := { d.pwr with req := 1 } }).parkEnter

/-- PWR_MODE.REQ asks for SLEEP or OFF (R140). -/
def Device.sleepReq (d : Device) : Bool := decide (d.pwr.req = 2) || decide (d.pwr.req = 3)

/-- PARK ends (R343). -/
def Device.parkLeave (d : Device) : Device :=
  ({ d with pwr := { d.pwr with mode := .run, parkWait := false } }).slotsResume

/-- A change from PARK to RUN can take place: RAMP is 0 (R139) and no self-test of the loop engine runs (R345). -/
def Device.runFree (d : Device) : Bool := decide (d.pwr.mode = .park) && !d.pwr.ramp && !d.le.bistBusy

/-- REQ takes the value `r` (R139). In SLEEP it changes REQ alone (DESIGN CHOICE, log 81). -/
def Device.reqWrite (d : Device) (r : Nat) : Device :=
  let d := { d with pwr := { d.pwr with req := r, asks := none } }
  match r with
  | 0 => if d.runFree then d.parkLeave else d
  | 1 => d.parkEnter
  | _ => d

/-- A write of PWR_MODE (R139, R153): REQ 4 to 7 is ignored. A PARK request by R129 in the same tick is applied last
(R158): REQ reads PARK, and a device that was in RUN enters PARK once, with nothing done by the write. -/
def Device.modeWrite (d : Device) (v : Word) : Device :=
  if 4 ≤ wf v 2 0 then d
  else
    match d.here.park with
    | some true => { d with pwr := { d.pwr with req := 1, asks := none } }
    | some false => (d.reqWrite (wf v 2 0)).parkRequest
    | none => d.reqWrite (wf v 2 0)

/-- The waiting change from PARK to RUN takes place once nothing holds it up (R139, R345). -/
def execParkExit (s : State) : Host.Outcome State Fault Refusal :=
  s.run (fun d => if d.pwr.req = 0 ∧ d.runFree = true then d.parkLeave else d)

/-- SLEEP is entered (R142): the wake code is stored and VCORE steps to code 0. -/
def Device.sleepEnter (d : Device) : Device :=
  let d := d.parkEnter
  { d with pwr := { d.pwr with mode := .sleep, wake := d.pwr.vcode, vcode := 0, ramp := false, hiRun := 0, loRun := 0, ceil := false, vmin := false } }

/-- The wake sources that end SLEEP and those that end OFF (R143). -/
def sleepWakes : Word := 0x0007FFFF
def offWakes : Word := 0x01000001

/-- All cores halted by SLEEP are released (R144, R482). -/
def Device.releaseCores (d : Device) : Device :=
  (List.range 4).foldl (fun d c =>
    if (d.coreC c).st = .asleep then d.setCore c { d.coreC c with st := .running } else d) d

/-! ### Operating hours and the ledger (R146 to R151) -/

/-- One operating hour passes in RUN, DOZE or PARK (R146, R147). -/
def execOperatingHour (s : State) : Host.Outcome State Fault Refusal :=
  s.run (fun d =>
    let p := d.pwr
    if d.powered && decide (p.mode ≠ .sleep) then
      let h := (p.opHours + 1) % 0x1000000
      let age := decide (h % 1000 = 0)
      { d with pwr := { p with
        opHours := h, lowHour := false, avgOn := p.avgOn || age,
        avgSum := if age then 0 else p.avgSum, avgCnt := if age then 0 else p.avgCnt } }
    else d)

/-- The average over 256 windows is complete and an AGING record falls due (R147); whether a value that is not whole is
rounded up is a free value (log 11). -/
def execAgingRecord (s : State) : Host.Outcome State Fault Refusal :=
  s.run (fun d =>
    let p := d.pwr
    if p.avgOn && decide (p.avgCnt = 256) then
      let up := decide (p.avgSum % 256 ≠ 0) && Config.roundUp d.free
      (({ d with pwr := { p with avgOn := false, avgSum := 0, avgCnt := 0 } }).recDue
        (LedgerDue.aging (p.avgSum / 256 + if up then 1 else 0))).fresh
    else d)

/-- A ledger record as its words. -/
structure Rec where
  w0 : Word
  w1 : Word
  w2 : Word
  w3 : Word
deriving DecidableEq, Repr

/-- The records of a page. -/
def recsOf : List Word → List Rec
  | a :: b :: c :: e :: t => { w0 := a, w1 := b, w2 := c, w3 := e } :: recsOf t
  | _ => []

/-- CHECK of a record: CRC-16 over bytes 0 to 11 (R149). -/
def Rec.check (r : Rec) : Nat := (crc16 (wordBytes r.w0 ++ wordBytes r.w1 ++ wordBytes r.w2)).toNat
/-- The record's CHECK matches (R149). -/
def Rec.valid (r : Rec) : Bool := decide (wf r.w3 15 0 = r.check)
/-- SEQ of a record. -/
def Rec.seq (r : Rec) : Nat := wf r.w3 31 16
/-- TYPE of a record. -/
def Rec.kind (r : Rec) : Nat := wf r.w0 3 0
/-- The record as the words a page holds. -/
def Rec.words (r : Rec) : List Word := [r.w0, r.w1, r.w2, r.w3]

/-- SEQ `a` is newer than `b`, counted modulo 2^16 (R150). -/
def seqNewer (a b : Nat) : Bool := decide (0 < (a + 0x10000 - b) % 0x10000) && decide ((a + 0x10000 - b) % 0x10000 < 0x8000)

/-- Record `i` of a page reads without an uncorrectable error in its two doublewords (R669). A record that does not is not
valid; no error of the ledger is counted, since no memory kind of R673 names it (DESIGN CHOICE, log 97). -/
def recReads (e : Tab Ecc) (i : Nat) : Bool :=
  decide (e.get (fun _ => .good) (2 * i) ≠ .bad) && decide (e.get (fun _ => .good) (2 * i + 1) ≠ .bad)

/-- The valid records of a list of which record `i` is the first (R149). -/
def validFrom (e : Tab Ecc) (i : Nat) : List Rec → List Rec
  | [] => []
  | r :: t => if r.valid && recReads e i then r :: validFrom e (i + 1) t else validFrom e (i + 1) t

/-- The valid records of a page. -/
def validRecs (p : List Word) (e : Tab Ecc) : List Rec := validFrom e 0 (recsOf p)

/-- The newest valid record of a page, which is its last one. -/
def lastRec (p : List Word) (e : Tab Ecc) : Option Rec := (validRecs p e).getLast?

/-- The newer page is page 1 (R150): its newest record has the higher SEQ, counted modulo 2^16. -/
def Device.newerIs1 (d : Device) : Bool :=
  match lastRec d.pwr.page0 d.pwr.ecc0, lastRec d.pwr.page1 d.pwr.ecc1 with
  | _, none => false
  | none, some _ => true
  | some a, some b => seqNewer b.seq a.seq

/-- The words of a page. -/
def Device.getPage (d : Device) (one : Bool) : List Word := if one then d.pwr.page1 else d.pwr.page0
/-- The ECC state of a page. -/
def Device.getPageEcc (d : Device) (one : Bool) : Tab Ecc := if one then d.pwr.ecc1 else d.pwr.ecc0
/-- The valid records of a page of the ledger. -/
def Device.pageRecs (d : Device) (one : Bool) : List Rec := validRecs (d.getPage one) (d.getPageEcc one)

/-- The newest valid record of the ledger. -/
def Device.newestRec (d : Device) : Option Rec := (d.pageRecs d.newerIs1).getLast?

/-- SEQ of the next record: +1 per record, modulo 2^16; the first is 0 (log 14). -/
def Device.nextSeq (d : Device) : Nat :=
  match d.newestRec with
  | none => 0
  | some r => (r.seq + 1) % 0x10000

/-- A record of type `k` with PACE `pace` and sequence number `q`, with the values read now (R149). -/
def Device.mkRec (d : Device) (k pace q : Nat) : Rec :=
  let w0 := wd (k + 0x100 * d.pwr.opHours)
  let w1 := wd (pace % 0x10000 + 0x10000 * d.pwr.temp.toNat + 0x1000000 * d.pwr.vcode)
  let w2 : Word := (d.rtc.ticks >>> 16).setWidth 32
  let r : Rec := { w0 := w0, w1 := w1, w2 := w2, w3 := 0 }
  { r with w3 := wd (r.check + 0x10000 * q) }

/-- Put the words of a page. -/
def Device.setPage (d : Device) (one : Bool) (w : List Word) : Device :=
  { d with pwr := if one then { d.pwr with page1 := w } else { d.pwr with page0 := w } }
/-- Erase a page: its ECC is good again. -/
def Device.erasePage (d : Device) (one : Bool) : Device :=
  { d with pwr := if one then { d.pwr with page1 := [], ecc1 := [] } else { d.pwr with page0 := [], ecc0 := [] } }

/-- Insert a record into a list ordered by SEQ, counted modulo 2^16 back from `top` (oldest first). -/
def insRec (top : Nat) (r : Rec) : List Rec → List Rec
  | [] => [r]
  | x :: t => if (top + 0x10000 - x.seq) % 0x10000 < (top + 0x10000 - r.seq) % 0x10000 then r :: x :: t else x :: insRec top r t

/-- Rotate the ledger (R150): AGING records are copied into the other page, then a ROTATE record is written. -/
def Device.rotate (d : Device) : Device :=
  let one := d.newerIs1
  let full := d.pageRecs one
  let top := (d.newestRec.map Rec.seq).getD 0
  let aging := (full.filter (fun r => decide (r.kind = 1))).foldl (fun l r => insRec top r l) []
  let q := d.nextSeq
  (d.erasePage (!one)).setPage (!one) (aging.flatMap Rec.words ++ (d.mkRec 4 0 q).words)

/-- Write one due record (R149, R150). -/
def Device.ledgerPut (d : Device) (k pace : Nat) : Device :=
  let d := if 512 ≤ (d.getPage d.newerIs1).length / 4 then d.rotate else d
  let one := d.newerIs1
  d.setPage one (d.getPage one ++ (d.mkRec k pace d.nextSeq).words)

/-- The type and the PACE field of a due record (R149). -/
def LedgerDue.fields : LedgerDue → Nat × Nat
  | .aging p => (1, p)
  | .timeLost => (2, 0)
  | .paceLow p => (3, p)

/-- A ledger record is being written: PWR_STAT.LBUSY (R148, R694). -/
def Device.ledgerBusy (d : Device) : Bool := decide (d.pwr.due ≠ []) && !d.flashRuns

/-- A flash command that waited for the ledger record starts (R694). -/
def Device.flashGo (d : Device) : Device := { d with flash := { d.flash with held := false } }

/-- The due ledger record is complete, once the flash controller is free (R148 to R150); a command that waited for it starts
(R694). -/
def execLedgerWrite (s : State) : Host.Outcome State Fault Refusal :=
  s.run (fun d =>
    match d.flashRuns, d.pwr.due with
    | false, x :: t => (({ d with pwr := { d.pwr with due := t } }).ledgerPut x.fields.1 x.fields.2).flashGo
    | _, _ => d)

/-- Power fails while a ledger record is written (R150, R157): a rotation that has not ended leaves the other page erased; a
record leaves a partial one, whose CHECK does not match and which nothing reads. The record is not written again (log 82). -/
def Device.ledgerCut (d : Device) : Device :=
  match d.flashRuns, d.pwr.due with
  | false, x :: t =>
    let d := { d with pwr := { d.pwr with due := t } }
    let one := d.newerIs1
    if 512 ≤ (d.getPage one).length / 4 then d.erasePage (!one)
    else
      let r := d.mkRec x.fields.1 x.fields.2 d.nextSeq
      d.setPage one (d.getPage one ++ { r with w3 := r.w3 ^^^ 1 }.words)
  | _, _ => d

/-- The counted records in order of SEQ, oldest first (R151): an AGING record in both pages counts once. -/
def Device.ledger (d : Device) : List Rec :=
  let a := d.pageRecs false
  let b := (d.pageRecs true).filter (fun r => !(decide (r.kind = 1) && a.any (fun x => decide (x.kind = 1) && decide (x.seq = r.seq))))
  let all := a ++ b
  all.foldl (fun l r => insRec ((d.newestRec.map Rec.seq).getD 0) r l) []

/-- The HOURS field of the newest valid record (R146); 0 where the ledger holds none (DESIGN CHOICE, log 83). -/
def Device.ledgerHours (d : Device) : Nat := match d.ledger.getLast? with | some r => wf r.w0 31 8 | none => 0

/-! ### Registers (R153, R154) -/

/-- PWR_MODE.CUR. -/
def Device.curMode (d : Device) : Nat :=
  match d.pwr.mode with
  | .run => if d.dozing then 1 else 0
  | .park => 2
  | .sleep => 3

/-- A write at offset `o` of the PWR block that does more than store. -/
def Device.pwrWrite (d : Device) (who : Who) (o : Nat) (v : Word) : Option Device :=
  let p := d.pwr
  if o = 0 then some (d.mixedWrite who bPWR 3 0x7FF0 v)
  else if o = 4 then
    let w := d.w1c (bPWR + 4) v
    some { d with pwr := { p with below := p.below && !wb w 1, wokeEarly := p.wokeEarly && !wb w 5 } }
  else if o = 8 then some (d.modeWrite v)
  else if o = 0x10 then some { d with pwr := { p with wakeSrc := p.wakeSrc &&& ~~~ (d.w1c (bPWR + 0x10) v) } }
  else if o = 0x20 then some (d.paceTgtWrite v)
  else if o = 0x48 then some { d with pwr := { p with ceilCnt := v } }
  else if o = 0x4C then some { d with pwr := { p with belowCnt := wf v 15 0 } }
  else none

/-- A read at offset `o` of the PWR block. -/
def Device.pwrRead (d : Device) (o : Nat) : Option Word :=
  let p := d.pwr
  if o = 4 then
    some (boolW p.under 0 ||| boolW p.below 1 ||| boolW p.ceil 2 ||| boolW p.vmin 3 ||| boolW p.ramp 4
      ||| boolW p.wokeEarly 5 ||| boolW d.ledgerBusy 6)
  else if o = 8 then some (wd (p.req + 0x100 * d.curMode))
  else if o = 0x10 then some p.wakeSrc
  else if o = 0x24 then some (wd p.paceNow)
  else if o = 0x28 then some (wd d.paceFloor)
  else if o = 0x30 then some (wd d.paceRef0)
  else if o = 0x34 then some (wd p.paceRef)
  else if o = 0x40 then some (wd (p.vcode + 0x100 * p.wake))
  else if o = 0x44 then some (p.temp.setWidth 32)
  else if o = 0x48 then some p.ceilCnt
  else if o = 0x4C then some (wd p.belowCnt)
  else if o = 0x60 then some (wd p.opHours)
  else if o = 0x70 then some (wd d.ledger.length)
  else if 0x78 ≤ o ∧ o < 0x88 then
    some (match (d.ledger.drop (wf (d.lv (bPWR + 0x74)) 9 0)).head? with
      | some r => nthW r.words ((o - 0x78) / 4)
      | none => 0)
  else if o = 0x90 then some (boolW p.vdd33ok 0 ||| boolW p.vcoreok 1 ||| boolW p.vddalo 2)
  else none

end Sys2Proof.Machine
end

