-- ==== Sys2Proof/Machine/Halt.lean ====
section
/-! DEFINITION. Owl's count (R182 to R188), the start and end of FREEZE (R849 to R851), halts by the service tool
(R838 to R845). -/
namespace Sys2Proof.Machine

/-! ### Owl's count (R182, R184, R186, R188) -/

/-- RST_OWL_CTL.EN. -/
def Device.owlEn (d : Device) : Bool := wb (d.lv aOwlCtl) 0
/-- RST_OWL_TO. -/
def Device.owlTo (d : Device) : Nat := wf (d.lv aOwlTo) 15 0
/-- RST_OWL_EW. -/
def Device.owlEw (d : Device) : Nat := wf (d.lv aOwlEw) 15 0

/-- Every running core is halted by the service tool (R188). -/
def Device.allHalted (d : Device) : Bool :=
  let l := (List.range 4).filter (fun c => decide ((d.coreC c).st = .running) || decide ((d.coreC c).st = .bootWait))
  !l.isEmpty && l.all (fun c => (d.coreC c).halted)

/-- Owl counts now (R184, R188): not in a device reset, SLEEP or OFF, nor while every running core is halted. -/
def Device.owlCounts (d : Device) : Bool :=
  d.owlEn && decide (d.pwr.mode ≠ .sleep) && !d.allHalted
    && (match d.rst.phase with | .bootRead | .run => true | _ => false)

/-- The ticks Owl has counted: 2,048 ticks are its unit at the nominal rate (log 21). -/
def Device.owlTicks (d : Device) : Nat := d.owl.ticks + (if d.owl.on then d.nowN - d.owl.since else 0)
/-- Owl's unit in ticks. -/
def owlUnit : Nat := 2048
/-- RST_OWL_CNT. -/
def Device.owlCount (d : Device) : Nat := d.owlTicks / owlUnit

/-- A core runs, or the service tool holds one halted: the halt of another core is no sleep request (R140, R839). -/
def Device.someRuns (d : Device) : Bool := (List.range 4).any (fun c => d.coreRuns c || d.toolHalt c)

/-- Which cores run may have changed: Owl's count up to now is kept, and it counts on where R188 lets it; a halt by SLEEP
that was to become a sleep request is none once a core runs (R140). -/
def Device.owlSync (d : Device) : Device :=
  { d with
    owl := { d.owl with ticks := d.owlTicks, since := d.nowN, on := d.owlCounts },
    pwr := { d.pwr with asks := if d.someRuns then none else d.pwr.asks } }

/-- The count starts from 0 (R182, R183), with source 176 when RST_OWL_EW is not below RST_OWL_TO (R186). -/
def Device.owlStart (d : Device) : Device :=
  let d := { d with owl := { ticks := 0, since := d.nowN, on := d.owlCounts, isOpen := false } }
  d.raiseIf (d.owlEn && decide (d.owlTo ≤ d.owlEw)) 176

/-- The tick in which Owl has counted `n` units. -/
def Device.owlReach (d : Device) (n : Nat) : Nat := d.nowN + (n * owlUnit - d.owlTicks)

/-- The first tick after the stable-oscillator period (eight ticks) in which Owl's count reaches RST_OWL_TO: a refresh within it
wins (R187). -/
def Device.owlPeriodEnd (d : Device) : Nat :=
  let t := d.nowN + d.owlTo * owlUnit - d.owlTicks
  (t / 8 + 1) * 8

/-! ### FREEZE (R849 to R851) -/

/-- Set bits of DBG_EVT and raise source 191 by DBG_IEN (R852). -/
def Device.dbgEvt (d : Device) (i : Nat) : Device :=
  let old := d.dbg.evt
  ({ d with dbg := { d.dbg with evt := old ||| bitW i } }).flagUp (bDBG + 0x48) old (bitW i) (d.lv (bDBG + 0x4C)) 191

/-- FREEZE comes into force (R849): the PWM counters stop in this tick. -/
def Device.freezeStart (d : Device) : Device :=
  if d.dbg.inForce then d
  else ({ d with dbg := { d.dbg with inForce := true, frzAt := d.nowN } }).dbgEvt 3

/-- FREEZE ends (R851): the counters continue, carries are cleared, outputs stay in the trip state until the next
boundary, slots resume. -/
def Device.freezeEnd (d : Device) : Device :=
  if d.dbg.inForce then
    let lag := d.nowN - d.dbg.frzAt
    let d := { d with dbg := { d.dbg with inForce := false, frz := false } }
    let d := (List.range 32).foldl (fun d n =>
      let c := d.pwmC n
      if c.en then
        let d := d.setPwm n { c with bt := c.bt + lag, first := c.first.map (fun t => t + lag), carry := 0 }
        if c.running then d.toTrip n else d
      else d) d
    d.slotsResume
  else d

/-! ### The instructions of the TAP that drive pins (R825, R826) -/

/-- The instruction that a code of the 5-bit instruction register names (R822): any code without one acts as BYPASS. -/
def tapIrOf (code : BitVec 5) : TapIr :=
  match code.toNat with
  | 0x00 => .extest | 0x01 => .samplePreload | 0x02 => .idcode | 0x03 => .clamp | 0x04 => .highz | 0x08 => .dbgacc
  | _ => .bypass

/-- The instruction of the TAP. -/
def Device.tapIr (d : Device) : TapIr := tapIrOf d.dbg.ir

/-- The instruction in force drives the pins with the cells `cells`. -/
def Device.tapShow (d : Device) (cells : Tab (BitVec 3)) : Device :=
  ({ d with dbg := { d.dbg with shown := some cells } }).freezeStart

/-- The instruction that the register holds takes effect: EXTEST and CLAMP drive the preloaded cells, HIGHZ none. -/
def Device.tapApply (d : Device) : Device :=
  match d.tapIr with
  | .extest | .clamp => d.tapShow d.dbg.cells
  | .highz => d.tapShow []
  | _ => d

/-- With the level full again, the instruction of R825 that the register holds takes effect. -/
def Device.tapAgain (d : Device) : Device := if d.dbg.level = 2 ∧ d.dbg.shown = none then d.tapApply else d

/-! ### Halts by the service tool (R838 to R845, R850) -/

/-- Core `c` is halted by the service tool with cause `k` (R838, R850, R852, R854): when it goes on at the address where it
stopped, no breakpoint there halts it again (R840; log 72). -/
def Device.haltCore (d : Device) (c k : Nat) : Device :=
  let d := d.setCore c { d.coreC c with halted := true, stepping := false, haltReq := false, bpSkip := true }
  let d := d.setDbgC c { d.dbgC c with cause := k }
  let d := (d.dbgEvt 2).owlSync
  if d.dbg.onHalt then d.freezeStart else d

/-- Core `c` starts to execute; with HRST it halts before its first instruction (R845). -/
def Device.startHalt (d : Device) (c : Nat) : Device :=
  if wb (d.lv (aDbgC c 0)) 8 then d.haltCore c 5 else d.owlSync

end Sys2Proof.Machine
end

