-- ==== Sys2Proof/Machine/Rtc.lean ====
section
/-! DEFINITION. The real-time clock (R83 to R106): calendar arithmetic, seconds, alarm, commands, the backup domain. -/
namespace Sys2Proof.Machine

/-! ### Calendar arithmetic (R87) -/

/-- Leap years between 2000 and 2199: years divisible by 4, except 2100 (R87). -/
def isLeap (y : Nat) : Bool := decide (y % 4 = 0) && decide (y ≠ 2100)

/-- The days of month `m` of year `y`. -/
def monthDays (y m : Nat) : Nat :=
  match m with
  | 2 => if isLeap y then 29 else 28
  | 4 => 30 | 6 => 30 | 9 => 30 | 11 => 30
  | _ => 31

/-- Days from 2000-01-01 to the first day of year `y`. -/
def yearStart (y : Nat) : Nat := (List.range (y - 2000)).foldl (fun a i => a + if isLeap (2000 + i) then 366 else 365) 0

/-- Days from 2000-01-01 to a date. -/
def Cal.dayNo (c : Cal) : Nat :=
  yearStart c.year + (List.range (c.mon - 1)).foldl (fun a i => a + monthDays c.year (i + 1)) 0 + (c.day - 1)

/-- The weekday, 1 Monday to 7 Sunday; 2000-01-01 is a Saturday (R87). -/
def Cal.wday (c : Cal) : Nat := (c.dayNo + 5) % 7 + 1

/-- The last value of the calendar (R88). -/
def Cal.isLast (c : Cal) : Bool := c == { year := 2199, mon := 12, day := 31, hour := 23, min := 59, sec := 59 }

/-- The next day. -/
def Cal.nextDay (c : Cal) : Cal :=
  if c.day < monthDays c.year c.mon then { c with day := c.day + 1 }
  else if c.mon < 12 then { c with day := 1, mon := c.mon + 1 }
  else { c with day := 1, mon := 1, year := c.year + 1 }

/-- The day before. -/
def Cal.prevDay (c : Cal) : Cal :=
  if 1 < c.day then { c with day := c.day - 1 }
  else if 1 < c.mon then { c with mon := c.mon - 1, day := monthDays c.year (c.mon - 1) }
  else { c with year := c.year - 1, mon := 12, day := 31 }

/-- One hour later (R95). -/
def Cal.addHour (c : Cal) : Cal :=
  if c.hour < 23 then { c with hour := c.hour + 1 } else { c.nextDay with hour := 0 }

/-- One hour earlier (R95). -/
def Cal.subHour (c : Cal) : Cal :=
  if 0 < c.hour then { c with hour := c.hour - 1 } else { c.prevDay with hour := 23 }

/-- One second later (R87, R88). -/
def Cal.tick (c : Cal) : Cal :=
  if c.isLast then c
  else if c.sec < 59 then { c with sec := c.sec + 1 }
  else if c.min < 59 then { c with sec := 0, min := c.min + 1 }
  else ({ c with sec := 0, min := 0 } : Cal).addHour

/-! ### BCD (R94, R109) -/

/-- A number below 100 in BCD. -/
def bcd (n : Nat) : Nat := n / 10 * 16 + n % 10
/-- The number a BCD byte shows. -/
def unBcd (b : Nat) : Nat := b / 16 * 10 + b % 16
/-- Both digits of a BCD byte are decimal. -/
def isBcd (b : Nat) : Bool := decide (b / 16 ≤ 9) && decide (b % 16 ≤ 9)

/-- The layout of RTC_TIME. -/
def Cal.timeWord (c : Cal) : Word := wd (bcd c.sec + 0x100 * bcd c.min + 0x10000 * bcd c.hour)
/-- The layout of RTC_DATE. -/
def Cal.dateWord (c : Cal) : Word :=
  wd (bcd c.day + 0x100 * bcd c.mon + 0x2000 * c.wday + 0x10000 * (bcd (c.year / 100) * 256 + bcd (c.year % 100)))

/-- The calendar value staged in RTC_SET_TIME `t` and RTC_SET_DATE `e`, when R94 accepts it. -/
def stagedCal (t e : Word) : Option Cal :=
  let f := [wf t 6 0, wf t 14 8, wf t 21 16, wf e 5 0, wf e 12 8, wf e 31 24, wf e 23 16]
  let c : Cal := { year := unBcd (wf e 31 24) * 100 + unBcd (wf e 23 16), mon := unBcd (wf e 12 8), day := unBcd (wf e 5 0),
                   hour := unBcd (wf t 21 16), min := unBcd (wf t 14 8), sec := unBcd (wf t 6 0) }
  if f.all isBcd && decide (2000 ≤ c.year) && decide (c.year ≤ 2199) && decide (1 ≤ c.mon) && decide (c.mon ≤ 12)
      && decide (1 ≤ c.day) && decide (c.day ≤ monthDays c.year c.mon) && decide (c.hour ≤ 23) && decide (c.min ≤ 59)
      && decide (c.sec ≤ 59)
  then some c else none

/-! ### Modes, alarms and edges (R84 to R103) -/

/-- RTC_CTL.MODE: tick mode. -/
def Device.tickMode (d : Device) : Bool := wb (d.lv bRTC) 0
/-- RTC_CTL.ALM_EN. -/
def Device.almEn (d : Device) : Bool := wb (d.lv bRTC) 1

/-- The calendar alarm's fields, selected by RTC_ALM_MASK, equal the calendar's (R99). -/
def Device.almHit (d : Device) (c : Cal) : Bool :=
  let m := d.lv (bRTC + 0x38)
  let t := d.lv (bRTC + 0x30)
  let e := d.lv (bRTC + 0x34)
  decide (wf m 4 0 ≠ 0)
    && (!wb m 0 || decide (wf t 6 0 = bcd c.sec)) && (!wb m 1 || decide (wf t 14 8 = bcd c.min))
    && (!wb m 2 || decide (wf t 21 16 = bcd c.hour)) && (!wb m 3 || decide (wf e 5 0 = bcd c.day))
    && (!wb m 4 || decide (wf e 12 8 = bcd c.mon))

/-- VBLO becomes set (R103): source 171 while VDD33 is present. -/
def Device.setVblo (d : Device) : Device :=
  let d' := ({ d with rtc := { d.rtc with vblo := true } }).hwFlag (bRTC + 4) 1
  if d.powered && d.pwr.vdd33ok then d'.raiseIf (!d.rtc.vblo) 171 else d'

/-- The 32.768 kHz edges from the present count to the next second (R84, R89): up to the wrap of the sub-second prescaler
in calendar mode, to the next multiple of 32,768 in tick mode; none when RTC_TICKS stands on a multiple whose second has
not come yet. -/
def Rtc.toSecond (r : Rtc) (cal : Bool) : Nat :=
  let sub := if cal then r.presc.toNat else r.ticks.toNat % 0x8000
  if !cal && decide (sub = 0) && decide (r.ticks ≠ r.secTicks) then 0 else 0x8000 - sub

/-- RTC_ALM_TICKS. -/
def Device.almTicks (d : Device) : BitVec 48 :=
  (d.lv (bRTC + 0x44)).setWidth 16 ++ d.lv (bRTC + 0x40)

/-- The tick alarm is armed (R100). -/
def Device.tickAlarm (d : Device) : Bool := d.tickMode && d.almEn

/-- REFUSED is set (R92, R94, R96). -/
def Device.rtcRefuse (d : Device) : Device := ({ d with rtc := { d.rtc with refused := true } }).hwFlag (bRTC + 4) 0x10

/-- `n` rising edges of the 32.768 kHz clock (R84): the sub-second prescaler counts them in calendar mode, and a command that waits
counts them (R91). -/
def Rtc.pass (r : Rtc) (cal : Bool) (n : Nat) : Rtc :=
  { r with ticks := r.ticks + BitVec.ofNat 48 n, presc := if cal then r.presc + BitVec.ofNat 15 n else r.presc,
           cmdEdges := if r.cmd.isSome then r.cmdEdges + n else r.cmdEdges }

/-- The tick alarm fires (R100, R102). -/
def Device.tickAlarmNow (d : Device) : Device := if d.powered then (d.raiseIrq 169).raiseEvent 217 else d

/-- `n` edges pass that bring no second: a tick alarm that lies among them, before the last, fires on the way (R84, R100). -/
def Device.rtcPass (d : Device) (n : Nat) : Device :=
  let t := d.rtc.ticks.toNat
  let hit := d.tickAlarm && decide (t < d.almTicks.toNat) && decide (d.almTicks.toNat < t + n)
  let d := { d with rtc := d.rtc.pass (!d.tickMode) n }
  if hit then d.tickAlarmNow else d

/-! ### Commands (R90 to R97) -/

/-- SET_CAL applied (R94, R97). -/
def Device.setCalApply (d : Device) : Device :=
  let t := d.lv (bRTC + 0x20)
  match stagedCal t (d.lv (bRTC + 0x24)) with
  | some c => { d with rtc := { d.rtc with cal := c, dst := wb t 31, presc := 0, calstale := false, range := c.isLast } }
  | none => d.rtcRefuse

/-- ADD_HOUR and SUB_HOUR applied (R95, R96). -/
def Device.hourApply (d : Device) (add : Bool) : Device :=
  let r := d.rtc
  let c := if add then r.cal.addHour else r.cal.subHour
  if d.tickMode || decide (c.year < 2000) || decide (2199 < c.year) then d.rtcRefuse
  else { d with rtc := { r with cal := c, dst := !r.dst, range := c.isLast } }

/-- Command `c` acts on what its edge has left (R90, R93). -/
def Device.rtcAct (d : Device) (c : Nat) : Device :=
  let d := { d with rtc := { d.rtc with cmd := none } }
  match c with
  | 1 => { d with rtc := { d.rtc with
      snapTime := d.rtc.cal.timeWord, snapDate := d.rtc.cal.dateWord, snapTicks := d.rtc.ticks } }
  | 2 => d.setCalApply
  | 3 => d.hourApply true
  | _ => d.hourApply false

/-- The edges that still come before the command that waits is applied, on the second after its write (R91). -/
def Rtc.cmdLeft (r : Rtc) : Nat := 2 - r.cmdEdges

/-- The command that waits is applied on its edge (R91): the edges up to it pass first. -/
def Device.rtcApply (d : Device) : Device :=
  match d.rtc.cmd with
  | some c => (d.rtcPass d.rtc.cmdLeft).rtcAct c
  | none => d

/-- `n` edges are to pass: a command whose edge lies before the last of them is applied on the way (R91). -/
def Device.cmdFirst (d : Device) (n : Nat) : Device :=
  if d.rtc.cmd.isSome && decide (d.rtc.cmdLeft < n) then d.rtcApply else d

/-- The command is applied on the second edge after its write (R91); where a second lies among the edges up to it, RTC_SECOND comes
first (R93), and until then nothing changes. -/
def execRtcCommandApply (s : State) : Host.Outcome State Fault Refusal :=
  s.run (fun d => if d.rtc.toSecond (!d.tickMode) ≤ d.rtc.cmdLeft then d else d.rtcApply)

/-- How many of `n` edges may pass without a second, a tick alarm or the edge of a command that waits. -/
def Device.rtcRoom (d : Device) (n : Nat) : Nat :=
  let r := d.rtc
  let n := min n (r.toSecond (!d.tickMode) - 1)
  let n := if r.cmd.isSome then min n (r.cmdLeft - 1) else n
  if d.tickAlarm && decide (r.ticks.toNat < d.almTicks.toNat) then min n (d.almTicks.toNat - r.ticks.toNat - 1) else n

/-- The edges that have come since they were last counted, a free value (R84; log 65). -/
def Device.rtcCount (d : Device) : Device := (d.rtcPass (d.rtcRoom (Config.rtcEdges d.free))).fresh

/-- A write of RTC_CMD (R90 to R92): an unknown code is ignored, a write while BUSY is refused; the edges count from the write on. -/
def Device.rtcCmdWrite (d : Device) (v : Word) : Device :=
  match d.rtc.cmd with
  | some _ => d.rtcRefuse
  | none =>
    let c := wf v 3 0
    if 1 ≤ c ∧ c ≤ 4 then
      let d := d.rtcCount
      { d with rtc := { d.rtc with cmd := some c, cmdEdges := 0 } }
    else d

/-- A write of RTC_CTL (R84, R85, R86, R89, R100): the edges up to a change count as the mode before has it, and the next second of
tick mode is the next change of RTC_TICKS[14:0] to zero. From tick mode to calendar mode sets CALSTALE. -/
def Device.rtcCtlWrite (d : Device) (v : Word) : Device :=
  let stale := d.tickMode && !wb v 0
  let toTick := !d.tickMode && wb v 0
  let d := (if d.lv bRTC = v &&& 3 then d else d.rtcCount).setLv bRTC (v &&& 3)
  let d := if toTick then { d with rtc := { d.rtc with secTicks := d.rtc.ticks } } else d
  if stale then { d with rtc := { d.rtc with calstale := true } } else d

/-- A write of a word of RTC_ALM_TICKS (R100): in tick mode the edges up to it count against the value before. -/
def Device.almTicksWrite (d : Device) (a : Nat) (v : Word) : Device :=
  (if d.tickMode then d.rtcCount else d).setLv a v

/-! ### Seconds and the alarm (R84 to R103) -/

/-- A second passes (R84, R85, R88, R89, R99, R103): a command whose edge comes before it is applied first (R91), then the counters
reach the second, a tick alarm that lies before it fires on the way (R100), the calendar advances in calendar mode, the second event
and the alarm are raised, VBAT is sampled (`vbat` in millivolts). DESIGN CHOICE (log 77): the second
event and source 170 come once per second also while the calendar holds at its last value. -/
def Device.rtcSecond (d : Device) (vbat : Nat) : Device :=
  let d := d.cmdFirst (d.rtc.toSecond (!d.tickMode))
  let r := d.rtc
  let cal := !d.tickMode
  let c := r.cal.tick
  let moved := cal && !r.cal.isLast
  let p := r.pass cal (r.toSecond cal)
  let d' := { d with rtc := { p with
    secTicks := p.ticks, presc := if cal then 0 else r.presc,
    cal := if cal then c else r.cal, range := r.range || (cal && c.isLast) } }
  let alm := (moved && d.almEn && d.almHit c)
    || (d.tickAlarm && decide (r.ticks.toNat < d.almTicks.toNat) && decide (d.almTicks.toNat < p.ticks.toNat))
  let d' := if d.powered then
      (d'.raiseIrq 170).raiseIf alm 169 |>.raiseEvents ([216] ++ (if alm then [217] else []))
    else d'
  if vbat < 1900 then d'.setVblo else d'

def execRtcSecond (vbat : Nat) (s : State) : Host.Outcome State Fault Refusal := s.run (fun d => d.rtcSecond vbat)

/-- The edges up to the tick alarm (R100). -/
def Device.toAlarm (d : Device) : Nat := d.almTicks.toNat - d.rtc.ticks.toNat

/-- The tick alarm comes next (R100): it lies ahead, and no second before it. -/
def Device.alarmNext (d : Device) : Bool :=
  d.tickAlarm && decide (d.rtc.ticks.toNat ≤ d.almTicks.toNat) && decide (d.toAlarm ≤ d.rtc.toSecond false)

/-- RTC_TICKS reaches RTC_ALM_TICKS in tick mode (R100, R102). A value that lies ahead is reached, and the seconds before it come
first (R89); one that has passed is not. -/
def execRtcTickAlarm (s : State) : Host.Outcome State Fault Refusal :=
  s.run (fun d =>
    let d := if d.tickAlarm then d.cmdFirst d.toAlarm else d
    if d.alarmNext then ({ d with rtc := d.rtc.pass false d.toAlarm }).tickAlarmNow else d)

/-- The backup domain changes its supply (R83). -/
def execBackupSupplySwitch (toBat : Bool) (s : State) : Host.Outcome State Fault Refusal :=
  s.run (fun d => { d with rtc := { d.rtc with onBat := toBat } })

/-! ### The backup sentinel (R104 to R106) -/

/-- The plain registers of the backup domain (R109). -/
def backupRegs : List Nat := [bRTC, bRTC + 0x30, bRTC + 0x34, bRTC + 0x38, bRTC + 0x40, bRTC + 0x44]

/-- The backup domain after loss of the sentinel (R105). DESIGN CHOICE (log 92): the sub-second prescaler starts anew too. -/
def Device.sentinelLost (d : Device) : Device :=
  let d := (backupRegs.foldl (fun d a => d.setLv a (liveReset a)) d).hwFlag (bRTC + 4) 3
  ({ d with
    rtc := { d.rtc with
      tlost := true, vblo := true, cal := {}, ticks := 0, secTicks := 0, cmdEdges := 0, presc := 0, dst := false, calstale := false, range := false,
      sentinel := 0xA5C3 } }).recDue .timeLost

/-- The sentinel check at reset release takes effect (R104, R105, R170), with source 171 when VBLO is set (R103). -/
def Device.sentinelCheck (d : Device) : Device :=
  let d := if d.rtc.sentinel = 0xA5C3 then d else d.sentinelLost
  d.raiseIf d.rtc.vblo 171

/-- The supply of the backup domain falls below its retention voltage: the domain and its sentinel are lost (R105). -/
def execBackupDomainLoss (s : State) : Host.Outcome State Fault Refusal :=
  s.run (fun d => { d with rtc := { d.rtc with sentinel := 0 } })

/-! ### Registers (R109, R110) -/

/-- A write at offset `o` of the RTC block that does more than store. -/
def Device.rtcWrite (d : Device) (o : Nat) (v : Word) : Option Device :=
  if o = 0 then some (d.rtcCtlWrite v)
  else if o = 4 then
    let r := d.rtc
    let w := d.w1c (bRTC + 4) v
    some { d with rtc := { r with
      vblo := r.vblo && !wb w 0, tlost := r.tlost && !wb w 1, refused := r.refused && !wb w 4 } }
  else if o = 8 then some (d.rtcCmdWrite v)
  else if o = 0x40 then some (d.almTicksWrite (bRTC + o) v)
  else if o = 0x44 then some (d.almTicksWrite (bRTC + o) (v &&& 0xFFFF))
  else none

/-- A read at offset `o` of the RTC block. -/
def Device.rtcRead (d : Device) (o : Nat) : Option Word :=
  let r := d.rtc
  if o = 4 then
    some (boolW r.vblo 0 ||| boolW r.tlost 1 ||| boolW r.dst 2 ||| boolW r.cmd.isSome 3 ||| boolW r.refused 4
      ||| boolW r.calstale 5 ||| boolW r.range 6 ||| boolW r.onBat 7)
  else if o = 0x10 then some r.snapTime
  else if o = 0x14 then some r.snapDate
  else if o = 0x18 then some (r.snapTicks.setWidth 32)
  else if o = 0x1C then some ((r.snapTicks >>> 32).setWidth 32)
  else none

end Sys2Proof.Machine
end

