-- ==== Sys2Proof/Machine/Flash.lean ====
section
/-! DEFINITION. The flash controller, the fuse array and the boot header (R198, R199, R690 to R709). -/
namespace Sys2Proof.Machine

/-! ### Flash commands (R690 to R696) -/

/-- A write of FLASH_KEY (R690): 1 after the first key word, 2 after the second. -/
def Device.flashKeyWrite (d : Device) (v : Word) : Device :=
  let k := if v = 0x6C1D then 1 else if v = 0x93E2 ∧ d.flash.key = 1 then 2 else 0
  { d with flash := { d.flash with key := k } }

/-- The doubleword at `a` is erased (R671, R692); undefined contents are not. -/
def Device.dwErased (d : Device) (a : Nat) : Bool :=
  decide (d.mem.undefPage.get (fun _ => 0) (a / 0x2000) = 0) && decide (d.mem.undefDw.get (fun _ => 0) (a / 8) = 0)
    && decide (d.eccOf a = .good) && decide (d.rdDw a = BitVec.allOnes 64)

/-- The refusal code of a flash command, 0 where it is accepted (R692). -/
def Device.flashRefusal (d : Device) (code : Nat) : Nat :=
  let a := (d.lv (bFLASH + 0x10)).toNat
  if d.flash.key ≠ 2 ∨ code = 0 ∨ 3 < code then 1
  else if d.flash.cmd.isSome then 2
  else if 0x400000 ≤ a then 3
  else if code = 1 ∧ a % 8 ≠ 0 then 4
  else if wb (d.lv bFLASH) 0 ∧ a / 0x200000 = d.runBank then 5
  else if code = 1 ∧ d.dwErased a = false then 6
  else if d.mem.idle.getLsbD (a / 0x200000) then 7
  else 0

/-- A write of FLASH_CMD (R690 to R693): it ends the key sequence. A command accepted while a ledger record is being written
waits for it; one that comes in the tick in which the record falls due goes first (R694). -/
def Device.flashCmdWrite (d : Device) (code : Nat) : Device :=
  let e := d.flashRefusal code
  let f := { d.flash with key := 0 }
  if e = 0 then
    { d with flash := { f with
      held := decide (d.pwr.due ≠ []) && !d.here.recDue,
      cmd := some (code, (d.lv (bFLASH + 0x10)).toNat, d.lv (bFLASH + 0x18) ++ d.lv (bFLASH + 0x14)) } }
  else ({ d with flash := { f with err := true, ecode := e } }).hwFlag (bFLASH + 4) 0x200

/-- Drop what is listed of flash between two addresses: it reads erased. -/
def Device.eraseRange (d : Device) (lo hi : Nat) : Device :=
  let out := fun (a : Nat) => decide (a < lo) || decide (hi ≤ a)
  let m := d.mem
  { d with mem := { m with
    cells := Tab.keep out m.cells, ecc := Tab.keep out m.ecc,
    undefPage := Tab.keep (fun p => out (p * 0x2000)) m.undefPage, undefDw := Tab.keep (fun w => out (w * 8)) m.undefDw } }

/-- What a completed command does (R691). -/
def Device.flashApply (d : Device) (code a : Nat) (v : DWord) : Device :=
  match code with
  | 1 => (d.wrDw (dwOf a) v).setEcc (dwOf a) .good
  | 2 => d.eraseRange (a - a % 0x2000) (a - a % 0x2000 + 0x2000)
  | _ => d.eraseRange (a - a % 0x200000) (a - a % 0x200000 + 0x200000)

/-- The command at work has its effect (R691); the flash walker, paused until now, goes on (R689). -/
def Device.flashFinish (d : Device) : Device :=
  match (if d.flash.held then none else d.flash.cmd) with
  | some (code, a, v) =>
    let d := d.flashApply code a v
    ({ d with
      flash := { d.flash with cmd := none, done := true },
      mem := { d.mem with fAt := max d.mem.fAt d.nowN } }).hwFlag (bFLASH + 4) 0x100
  | none => d

/-- The flash command completes (R693); in a warm reset it may have held back its end (R174). -/
def execFlashDone (s : State) : Host.Outcome State Fault Refusal := s.run (fun d => d.flashFinish.warmLag 2400)

/-- A cut-off command leaves undefined contents (R174, R696): free values (log 8). A command that still waits for a ledger
record (R694) has changed nothing and is dropped. -/
def Device.flashUndef (d : Device) (code a : Nat) : Device :=
  let i := d.free + 1
  let held := d.flash.held
  let d := { d with flash := { d.flash with cmd := none, held := false } }
  let m := d.mem
  if held then d
  else (match code with
    | 1 => { d with mem := { m with undefDw := m.undefDw.set (fun _ => 0) (a / 8) i } }
    | 2 =>
      let d := d.eraseRange (a - a % 0x2000) (a - a % 0x2000 + 0x2000)
      { d with mem := { d.mem with undefPage := d.mem.undefPage.set (fun _ => 0) (a / 0x2000) i } }
    | _ =>
      let b := a / 0x200000
      let d := d.eraseRange (b * 0x200000) (b * 0x200000 + 0x200000)
      { d with mem := { d.mem with
        undefPage := (List.range 256).foldl (fun t p => t.set (fun _ => 0) (256 * b + p) i) d.mem.undefPage } }).fresh

/-- Power failure or a cold reset during a command (R696). -/
def Device.flashCut (d : Device) : Device :=
  match d.flash.cmd with | some (code, a, _) => d.flashUndef code a | none => d

/-- A warm reset aborts an erase and lets a program run on (R174). -/
def Device.flashAbortErase (d : Device) : Device :=
  match d.flash.cmd with
  | some (code, a, _) => if code = 1 then d else d.flashUndef code a
  | none => d

/-- A write at offset `o` of the FLASH block that does more than store. -/
def Device.flashWrite (d : Device) (who : Who) (o : Nat) (v : Word) : Option Device :=
  let f := d.flash
  if o = 0 then some (d.mixedWrite who bFLASH 1 0 v)
  else if o = 4 then
    let w := d.w1c (bFLASH + 4) v
    some { d with flash := { f with done := f.done && !wb w 8, err := f.err && !wb w 9 } }
  else if o = 8 then some (d.flashKeyWrite v)
  else if o = 0xC then some (d.flashCmdWrite (wf v 3 0))
  else none

/-- A read at offset `o` of the FLASH block. -/
def Device.flashRead (d : Device) (o : Nat) : Option Word :=
  let f := d.flash
  if o = 4 then
    some (boolW f.cmd.isSome 0 ||| boolW (decide (f.key = 2)) 1 ||| boolW f.done 8 ||| boolW f.err 9 ||| wd (0x1000 * f.ecode))
  else none

/-! ### Fuses (R704 to R709) -/

/-- The ECC state of a fuse word in the array. -/
def Device.fuseEcc (d : Device) (w : Nat) : Ecc := d.fuse.bad.get (fun _ => .good) w

/-- A word the debug authoriser needs is uncorrectable in the array as a load meets it (R706). -/
def Device.authWordBad (d : Device) : Bool :=
  decide (d.fuseEcc 48 = .bad) || (List.range 16).any (fun i => decide (d.fuseEcc (56 + i) = .bad))

/-- The last load has met such a word: the access level is none (R706). -/
def Device.fuseDbgBad (d : Device) : Bool := d.fuse.authBad

/-- The access level becomes `lv`: below full, an instruction of R825 that drives pins acts as BYPASS from then on and sets
BSREF. -/
def Device.setLevel (d : Device) (lv : Nat) : Device :=
  let g := d.dbg
  let ends := g.shown.isSome && decide (lv ≠ 2)
  { d with dbg := { g with level := lv, shown := if ends then none else g.shown, bsref := g.bsref || ends } }

/-- Load the fuse shadows (R705, R706): the access level is none from a load on that meets an error in a word the debug
authoriser needs. -/
def Device.fuseLoadAll (d : Device) : Device :=
  let f := d.fuse
  let sh := (List.range 128).foldl (fun t w =>
    t.set fuse0 w (if d.fuseEcc w = .bad then 0 else f.arr.get fuse0 w)) f.shadow
  let ce := (List.range 128).find? (fun w => decide (d.fuseEcc w = .single))
  let ue := (List.range 128).find? (fun w => decide (d.fuseEcc w = .bad))
  let d := { d with fuse := { f with
    shadow := sh, lce := ce.isSome, lerr := ue.isSome, lceW := ce.getD 0, lerrW := ue.getD 0, authBad := d.authWordBad } }
  if d.fuseDbgBad then d.setLevel 0 else d

/-- A program of a fuse word is refused (R707); whether VDD33 is below 3.15 V is a free value (log 16). -/
def Device.fuseRefused (d : Device) (w : Nat) : Bool :=
  decide (w < 32) || d.fuse.written.getLsbD w || wb (d.fuseW 127) 0
    || decide (85 < sxI 8 d.pwr.temp.toNat) || d.fuse.prog.isSome || Config.vdd33Low d.free

/-- A write of FUSE_PCMD (R707). -/
def Device.fusePcmd (d : Device) (v : Word) : Device :=
  if v ≠ 0xF0A5 then d
  else
    let w := wf (d.lv (bFUSE + 0x408)) 6 0
    (if d.fuseRefused w then { d with fuse := { d.fuse with res := 2 } }
     else { d with fuse := { d.fuse with prog := some (w, d.lv (bFUSE + 0x40C)) } }).fresh

/-- The ECC state of a fuse word after a program whose read-back failed (log 15). -/
def failedEcc (i : Nat) : Ecc :=
  if (Config.failedFuseEcc i).val = 0 then .good else if (Config.failedFuseEcc i).val = 1 then .single else .bad

/-- The word of the fuse array and its check bits are written (R707, R708): what a failed program leaves is a free value
(log 15). -/
def Device.fuseBurn (d : Device) (w : Nat) (v : Word) (verified : Bool) : Fuse :=
  let f := d.fuse
  { f with
    arr := f.arr.set fuse0 w (if verified then v else Config.failedFuse d.free),
    bad := f.bad.set (fun _ => .good) w (if verified then .good else failedEcc d.free),
    written := f.written ||| BitVec.twoPow 128 w, prog := none }

/-- The program completes and the word is read back (R708); a fuse reload that waited for it starts now (R709). What a failed
one holds is a free value (log 15). -/
def execFuseProgramDone (verified : Bool) (s : State) : Host.Outcome State Fault Refusal :=
  s.run (fun d =>
    match d.fuse.prog with
    | some (w, v) =>
      let d := { d with fuse := { (d.fuseBurn w v verified) with res := if verified then 1 else 3 } }
      (if verified then d else d.fresh).warmLag 400
    | none => d)

/-- A read at offset `o` of the FUSE block (R705, R716). -/
def Device.fuseRead (d : Device) (o : Nat) : Option Word :=
  let f := d.fuse
  if o < 0x200 then
    let w := o / 4
    some (if 56 ≤ w ∧ w ≤ 71 then 0 else d.fuseW w)
  else if o = 0x400 then some (boolW f.prog.isSome 0 ||| boolW f.lerr 1 ||| boolW f.lce 2 ||| wd (0x10 * f.res))
  else if o = 0x404 then some (wd f.lerrW)
  else if o = 0x414 then some (wd f.lceW)
  else none

/-! ### Boot header (R198, R199) -/

/-- Read the header of bank `b`: ENTRY and STACK when it is valid (R198, R199). -/
def Device.bootHeader (d : Device) (init b : Nat) : Device × Option (Word × Word) :=
  let base := b * 0x200000
  let r0 := d.physRead init base
  let r1 := r0.1.physRead init (base + 8)
  let w0 : Word := r0.2.1.setWidth 32
  let entry : Word := (r0.2.1 >>> 32).setWidth 32
  let stack : Word := r1.2.1.setWidth 32
  let chk : Word := (r1.2.1 >>> 32).setWidth 32
  let c := crc16 (wordBytes w0 ++ wordBytes entry ++ wordBytes stack)
  let ok := !r0.2.2 && !r1.2.2 && decide (w0 = 0x00015448) && decide (wf chk 15 0 = c.toNat)
    && decide (entry.toNat % 4 = 0) && decide (entry.toNat / 0x200000 = b)
  (r1.1, if ok then some (entry, stack) else none)

end Sys2Proof.Machine
end

