-- ==== Sys2Proof/Machine/Frames.lean ====
section
/-! DEFINITION. The frames of the link as fields and bytes (R726, R735, R758). -/
namespace Sys2Proof
open Machine

/-- The other port. -/
def Port.other : Port → Port
  | .la => .lb
  | .lb => .la
/-- The number of a port in LINK_ECNT. -/
def Port.num : Port → Nat
  | .la => 0
  | .lb => 1

/-! ### Frames as bytes (R735, R758) -/

/-- The first 22 bytes of a yard header. -/
def YardFrame.head22 (f : YardFrame) : List Byte :=
  [f.flags, f.hop] ++ toBytes 2 f.ylen.toNat ++ toBytes 2 f.seq.toNat ++ toBytes 8 f.ty.toNat
    ++ toBytes 4 f.accdly.toNat ++ toBytes 4 f.rsv.toNat
/-- The header check over bytes 0 to 21. -/
def YardFrame.check (f : YardFrame) : BitVec 16 := crc16 f.head22
/-- The frame CRC over the header and the stall area. -/
def YardFrame.crcOf (f : YardFrame) : Word := crc32 (f.head22 ++ toBytes 2 f.hchk.toNat ++ f.stall)
/-- The stream, the direction and the header flags RC, AUTO, FB. -/
def YardFrame.stream (f : YardFrame) : Nat := fld f.flags.toNat 1 0
def YardFrame.dir (f : YardFrame) : Bool := f.flags.getLsbD 2
def YardFrame.isRc (f : YardFrame) : Bool := f.flags.getLsbD 3
def YardFrame.isAuto (f : YardFrame) : Bool := f.flags.getLsbD 4
def YardFrame.isFb (f : YardFrame) : Bool := f.flags.getLsbD 5
/-- The code-groups of a yard, /SY/ and /T/ included. -/
def YardFrame.len (f : YardFrame) : Nat := 30 + f.stall.length

/-- The bytes of an errand frame before its CRC. -/
def ErrFrame.body (f : ErrFrame) : List Byte :=
  [f.addr, f.op, f.tag, f.stat] ++ toBytes 2 f.index.toNat ++ [f.sub, f.code, f.len, f.rlen] ++ f.data
def ErrFrame.crcOf (f : ErrFrame) : Word := crc32 f.body
def ErrFrame.size (f : ErrFrame) : Nat := 16 + f.data.length
def ErrFrame.dir (f : ErrFrame) : Bool := f.op.getLsbD 7
def ErrFrame.kind (f : ErrFrame) : Nat := fld f.op.toNat 3 0

/-- The yard with its two checks. -/
def YardFrame.seal (f : YardFrame) : YardFrame :=
  let f := { f with hchk := f.check }
  { f with crc := f.crcOf }

/-- The errand frame of ten header bytes and its data; ADDR, OP and the rest as the buffer gives them. -/
def errOf (h data : List Byte) : ErrFrame :=
  let b := fun i => (h.drop i).headD 0
  { addr := b 0, op := b 1, tag := b 2, stat := b 3, index := b 5 ++ b 4, sub := b 6, code := b 7, len := b 8, rlen := b 9,
    data := data, crc := 0 }

/-- The frame with direction `dir` and its CRC. -/
def ErrFrame.seal (f : ErrFrame) (dir : Bool) : ErrFrame :=
  let f := { f with op := if dir then f.op ||| 0x80 else f.op &&& 0x7F }
  { f with crc := f.crcOf }

end Sys2Proof
end

