-- ==== Sys2Proof/Machine/Share.lean ====
section
/-! DEFINITION. Queues, locks and the buffer shed (R596 to R631). -/
namespace Sys2Proof.Machine

/-! ### Queues (R596 to R611) -/

def Que.en (k : Que) : Bool := wb k.cfg 15
def Que.base (k : Que) : Nat := wf k.cfg 8 0
def Que.size (k : Que) : Nat := wf k.cfg 25 16
/-- Capacity in words (R596). -/
def Que.cap (k : Que) : Nat := 4 * k.size
/-- The queue RAM word that holds the word `i` places after the head. -/
def Que.ramWord (k : Que) (i : Nat) : Nat := 4 * k.base + (if k.cap = 0 then 0 else (k.head + i) % k.cap)
/-- The key under which the ECC state of a queue RAM word stands. -/
def queEccKey (w : Nat) : Nat := 0x100000000 + w

/-- QUE_STAT[q]. -/
def aQueStat (q : Nat) : Nat := bQUE + 0x10C + 0x20 * q

/-- A write of the W1C bits of QUE_STAT[q] (R28, R610, R894). -/
def Device.queStatWrite (d : Device) (q : Nat) (v : Word) : Device :=
  let k := d.queC q
  let v := v &&& 0x031F0000
  let en := d.lv (aQueIen q) &&& 0x03FF0000
  let d' := d.setQue q { k with flags := k.flags &&& ~~~ (d.w1c (aQueStat q) v) }
  (d'.flagKept (aQueStat q) (v &&& 0x03000000) en (129 + q)).flagKept (aQueStat q) (v &&& 0x001F0000) en 190

/-- Set flags of QUE_STAT[q]: source 129 + q for NEMPTY and WMARK, source 190 for the five error flags (R610). -/
def Device.queFlag (d : Device) (q : Nat) (bits : Word) : Device :=
  let k := d.queC q
  let en := d.lv (aQueIen q) &&& 0x03FF0000
  let d := (d.setQue q { k with flags := k.flags ||| bits }).hwFlag (aQueStat q) bits
  let d := d.raiseIf (newFlag k.flags (bits &&& 0x03000000) en) (129 + q)
  d.raiseIf (newFlag k.flags (bits &&& 0x001F0000) en) 190

/-- A push (R601 to R603, R609): the state, and whether the word was dropped. -/
def Device.quePush (d : Device) (q : Nat) (v : Word) : Device × Bool :=
  let k := d.queC q
  if !k.en || decide (k.cap ≤ k.words.length) then
    ((d.setQue q { k with overs := satInc 16 k.overs }).queFlag q (0x10000 ||| boolW (!k.en) 20), true)
  else
    let n := k.words.length + 1
    let d := d.setQue q { k with words := k.words ++ [v] }
    let d := { d with mem := { d.mem with ecc := d.mem.ecc.set (fun _ => .good) (queEccKey (k.ramWord (n - 1))) .good } }
    let wm := wf (d.lv (aQueIen q)) 11 0
    (d.queFlag q (boolW (n = 1) 24 ||| boolW (decide (wm ≠ 0) && decide (n = wm)) 25), false)

/-- The ECC state of the word at the head. -/
def Device.queEcc (d : Device) (q : Nat) : Ecc := d.mem.ecc.get (fun _ => .good) (queEccKey ((d.queC q).ramWord 0))

/-- A pop but for the ECC of the word (R601 to R603): the state and the word. -/
def Device.quePop (d : Device) (q : Nat) : Device × Word :=
  let k := d.queC q
  match k.en, k.words with
  | true, w :: t =>
    (d.setQue q { k with words := t, head := if k.cap = 0 then 0 else (k.head + 1) % k.cap }, w)
  | en, _ =>
    ((d.setQue q { k with unders := satInc 16 k.unders }).queFlag q (0x20000 ||| boolW (!en) 20), d.lv (aQueEw q))

/-- The queue holds a word a pop would return. -/
def Device.queHas (d : Device) (q : Nat) : Bool := (d.queC q).en && !(d.queC q).words.isEmpty

/-- A peek (R601, R602). -/
def Device.quePeek (d : Device) (q : Nat) : Word :=
  match (d.queC q).en, (d.queC q).words with
  | true, w :: _ => w
  | _, _ => d.lv (aQueEw q)

/-- An enable of queue `q` with configuration `v` fails (R598). -/
def Device.queClash (d : Device) (q : Nat) (v : Word) : Bool :=
  let b := wf v 8 0
  let s := wf v 25 16
  decide (s = 0) || decide (512 < b + s) ||
    (List.range 32).any (fun j =>
      let k := d.queC j
      decide (j ≠ q) && k.en && decide (b < k.base + k.size) && decide (k.base < b + s))

/-- A write of QUE_CFG[q] (R597 to R599). -/
def Device.queCfgWrite (d : Device) (q : Nat) (v : Word) : Device :=
  let k := d.queC q
  let v := v &&& 0x03FF81FF
  if k.en then
    if wb v 15 then d else d.setQue q { k with cfg := setB k.cfg 15 false, words := [], head := 0 }
  else if wb v 15 then
    if d.queClash q v then (d.setQue q { k with cfg := setB v 15 false }).queFlag q 0x40000
    else d.setQue q { k with cfg := v, words := [], head := 0 }
  else d.setQue q { k with cfg := v }

/-- QUE_STAT[q] (R629). -/
def Que.statW (k : Que) : Word :=
  wd k.words.length ||| boolW k.words.isEmpty 12 ||| boolW (decide (k.cap ≤ k.words.length)) 13 ||| k.flags

/-- A write at offset `o` of the QUE block of a configuration register with a home of its own. -/
def Device.queWrite (d : Device) (o : Nat) (v : Word) : Option Device :=
  if o < 0x100 ∨ 0x500 ≤ o then none
  else
    let q := (o - 0x100) / 0x20
    let k := d.queC q
    match o % 0x20 with
    | 0x0C => some (d.queStatWrite q v)
    | 0x10 => some (d.queCfgWrite q v)
    | 0x18 => some (d.setQue q { k with overs := wf v 15 0, unders := wf v 31 16 })
    | _ => none

/-- A read at offset `o` of the QUE block without effect. -/
def Device.queRead (d : Device) (o : Nat) : Option Word :=
  if o = 0 then some (wd (bitsFrom 32 (fun q => (d.queC q).flags &&& 0x001F0000 != 0)))
  else if o = 4 then some (wd (bitsFrom 32 (fun q => !(d.queC q).words.isEmpty)))
  else if o < 0x100 ∨ 0x500 ≤ o then none
  else
    let k := d.queC ((o - 0x100) / 0x20)
    match o % 0x20 with
    | 0x0C => some k.statW
    | 0x10 => some k.cfg
    | 0x18 => some (wd (k.overs + 0x10000 * k.unders))
    | _ => none

/-! ### Locks (R612 to R616) -/

/-- HOLDER of a lock word, 0 for a free lock. -/
def Lock.holderN (k : Lock) : Nat := match k.holder with | some c => c.val | none => 0

/-- A take of lock `n` by core `c` (R612): the state and the word returned. -/
def Device.lockTake (d : Device) (n : Nat) (c : Fin 4) : Device × Word :=
  let k := d.lockC n
  match k.holder with
  | some h => (d, wd ((if h = c then 3 else 0) + 0x10 * h.val))
  | none => (d.setLock n { holder := some c, orph := false }, wd ((if k.orph then 2 else 1) + 0x10 * c.val))

/-- A give of lock `n` by core `c` (R613). -/
def Device.lockGive (d : Device) (n : Nat) (c : Fin 4) : Device :=
  let k := d.lockC n
  if k.holder = some c then d.setLock n { k with holder := none }
  else { d with lock := { d.lock with
    badGive := wd (satInc 32 d.lock.badGive.toNat), badInfo := wd (n + 0x100 * c.val) } }

/-- A core reset of core `c` frees its locks with the orphan flag (R615). -/
def Device.lockCoreReset (d : Device) (c : Nat) : Device :=
  (List.range 32).foldl (fun d n =>
    match (d.lockC n).holder with
    | some h => if h.val = c then d.setLock n { holder := none, orph := true } else d
    | none => d) d

/-- A read at offset `o` of the LOCK block without effect. -/
def Device.lockRead (d : Device) (o : Nat) : Option Word :=
  if o = 0 then some (wd (bitsFrom 32 (fun n => (d.lockC n).holder.isSome)))
  else if o = 4 then some (wd (bitsFrom 32 (fun n => (d.lockC n).orph)))
  else if o = 8 then some d.lock.badGive
  else if o = 0xC then some d.lock.badInfo
  else if 0x100 ≤ o ∧ o < 0x300 ∧ o % 0x10 = 8 then
    let k := d.lockC ((o - 0x100) / 0x10)
    some (boolW k.holder.isSome 0 ||| wd (0x10 * k.holderN) ||| boolW k.orph 8)
  else none

/-! ### The buffer shed (R618 to R627) -/

/-- The owner code of an initiator (R618), where it can own a buffer. -/
def ownerCode : Who → Option Nat
  | .core c => some c.val
  | .link => some 4
  | .od => some 5
  | _ => none

/-- A rejected request: flag `k` (0 DOUBLE, 1 NOTOWN, 2 STALE, 3 EMPTY), the count, the record, source 189 (R624, R625).
An allocation that fails has no handle and records 0 (DESIGN CHOICE, log 109). -/
def Device.shedErr (d : Device) (who : Who) (h k : Nat) : Device :=
  let s := d.shed
  (({ d with shed := { s with
    err := s.err ||| bitW k, errCnt := wd (satInc 32 s.errCnt.toNat),
    errInfo := wd (h % 0x10000 + 0x10000 * whoIdx who + 0x1000000 * k) } }).hwFlag (bSHED + 0x10) (bitW k)).raiseIf
      (!wb s.err k) 189

/-- An allocation for owner code `o` (R620): the state, and the handle when a buffer was free. -/
def Device.shedTake (d : Device) (who : Who) (o : Nat) : Device × Option Nat :=
  match d.shed.free with
  | i :: t =>
    let g := ((d.bufC i).gen + 1) % 16
    let d := d.setBuf i { owner := o, gen := g }
    ({ d with shed := { d.shed with free := t, lowMark := min d.shed.lowMark t.length } }, some (i + 0x1000 * g))
  | [] => (d.shedErr who 0 3, none)

/-- A read of SHED_ALLOC (R620): an initiator that cannot own a buffer is answered NONE. -/
def Device.shedAlloc (d : Device) (who : Who) : Device × Word :=
  match ownerCode who with
  | none => (d, 0x80000000)
  | some o =>
    match d.shedTake who o with
    | (d', some h) => (d', wd h)
    | (d', none) => (d', 0x80000000)

/-- Buffer `i` goes to the tail of the free list. -/
def Device.shedRelease (d : Device) (i : Nat) : Device :=
  let d := d.setBuf i { d.bufC i with owner := 7 }
  { d with shed := { d.shed with free := d.shed.free ++ [i] } }

/-- A unit that holds buffer `i` with generation `g` releases it, whoever owns it; a buffer that has been freed in the
meantime is a double free (R621, R624). -/
def Device.shedDrop (d : Device) (who : Who) (i g : Nat) : Device :=
  if (d.bufC i).owner = 7 ∨ (d.bufC i).gen ≠ g then d.shedErr who (i + 0x1000 * g) 0 else d.shedRelease i

/-- The check of a handle (R621, R622): none where it passes, else the flag, `stale` being DOUBLE or STALE. -/
def Device.shedCheck (d : Device) (who : Who) (h stale : Nat) : Option Nat :=
  let b := d.bufC (fld h 9 0)
  if b.owner = 7 ∨ b.gen ≠ fld h 15 12 then some stale
  else if ownerCode who ≠ some b.owner then some 1 else none

/-- A write of SHED_FREE (R621). -/
def Device.shedFree (d : Device) (who : Who) (v : Word) : Device :=
  let h := wf v 15 0
  match d.shedCheck who h 0 with
  | some k => d.shedErr who h k
  | none => d.shedRelease (fld h 9 0)

/-- A write of SHED_PASS (R622). -/
def Device.shedPass (d : Device) (who : Who) (v : Word) : Device :=
  let h := wf v 15 0
  let dest := wf v 18 16
  if 6 ≤ dest then d
  else
    match d.shedCheck who h 2 with
    | some k => d.shedErr who h k
    | none => d.setBuf (fld h 9 0) { d.bufC (fld h 9 0) with owner := dest }

/-- A write of SHED_FFREE (R623) once its domain check has passed. -/
def Device.shedFfree (d : Device) (who : Who) (v : Word) : Device :=
  let i := wf v 9 0
  if (d.bufC i).owner = 7 then d.shedErr who i 0 else d.shedRelease i

/-- A write of SHED_LOWMARK loads the present free count (R631). -/
def Device.shedLow (d : Device) : Device := { d with shed := { d.shed with lowMark := d.shed.free.length } }

/-- A write at offset `o` of the SHED block that takes no account of its initiator. -/
def Device.shedWrite (d : Device) (o : Nat) (v : Word) : Option Device :=
  if o = 0x10 then
    some (({ d with shed := { d.shed with err := d.shed.err &&& ~~~ (d.w1c (bSHED + 0x10) v &&& 0xF) } }).flagKept
      (bSHED + 0x10) (v &&& 0xF) 0xF 189)
  else if o = 0x18 then some { d with shed := { d.shed with errCnt := v } }
  else if o = 0x20 then some d.shedLow
  else none

/-- A read at offset `o` of the SHED block without effect. -/
def Device.shedRead (d : Device) (o : Nat) : Option Word :=
  if o = 0x10 then some d.shed.err
  else if o = 0x14 then some d.shed.errInfo
  else if o = 0x18 then some d.shed.errCnt
  else if o = 0x1C then some (wd d.shed.free.length)
  else if o = 0x20 then some (wd d.shed.lowMark)
  else if 0x1000 ≤ o ∧ o < 0x2000 then
    let b := d.bufC ((o - 0x1000) / 4)
    some (wd (b.owner + 0x1000 * b.gen))
  else none

end Sys2Proof.Machine
end

