-- ==== Sys2Proof/Machine/Tbase.lean ====
section
/-! DEFINITION. The cadence domain (R64 to R79): clock source, the register pairs whose lower-word read captures the
upper word, the cadence compares. -/
namespace Sys2Proof.Machine

/-! ### Captured pairs (R72, R73) -/

/-- The pairs of R73: TBASE_NOW, TBASE_CMP[k], LINK_RTIME, TRK_EDGETS[n]. -/
def pairNow : Nat := 0
def pairCmp (k : Nat) : Nat := 1 + k
def pairRtime : Nat := 7
def pairTrk (n : Nat) : Nat := 8 + n

/-- The snapshot of pair `p` that the initiator with index `i` holds. -/
def Device.snapOf (d : Device) (p i : Nat) : Word := d.time.snap.get (fun _ => 0) (16 * p + i)

/-- Capture the upper word of `v` for pair `p` and initiator `i` (R72, R73). -/
def Device.capture (d : Device) (p i : Nat) (v : DWord) : Device :=
  { d with time := { d.time with snap := d.time.snap.set (fun _ => 0) (16 * p + i) ((v >>> 32).setWidth 32) } }

/-- The lower and the upper word of a doubleword. -/
def loW (v : DWord) : Word := v.setWidth 32
def hiW (v : DWord) : Word := (v >>> 32).setWidth 32
/-- The doubleword of an upper and a lower word. -/
def joinW (hi lo : Word) : DWord := hi ++ lo

/-! ### Cadence compares (R75 to R79) -/

/-- TBASE_CMPCTL[k]. -/
def aCmpctl (k : Nat) : Nat := bTBASE + 0x10C + 0x10 * k

/-- Compare `k` is armed with a value that has passed: it matches in the next tick and LATE is set (R78). -/
def Device.lateCheck (d : Device) (k : Nat) : Device :=
  let c := d.cmpC k
  if c.val.toNat ≤ d.nowN then
    (d.setCmp k { c with late := some (d.nowN + 1), ctl := c.ctl ||| 0x200 }).hwFlag (aCmpctl k) 0x200
  else d.setCmp k { c with late := none }

/-- A write of TBASE_CMPCTL[k] (R78, R79, R108). -/
def Device.cmpctlWrite (d : Device) (k : Nat) (v : Word) : Device :=
  let c := d.cmpC k
  let flags := c.ctl &&& 0x300 &&& ~~~ (d.w1c (aCmpctl k) v)
  let d' := d.setCmp k { c with ctl := flags ||| (v &&& 3), late := if wb v 0 then c.late else none }
  if wb v 0 && !wb c.ctl 0 then d'.lateCheck k else d'

/-- Hardware takes back a pulse of event source `s` in the present tick: the routes see the tick without it. -/
def Device.unraise (d : Device) (s : Nat) : Device :=
  (d.note (fun h => { h with pulses := h.pulses.erase s })).levelsChanged

/-- A write of TBASE_CMP_LO[k] is held (R75). -/
def Device.cmpLoWrite (d : Device) (k : Nat) (v : Word) : Device := d.setCmp k { d.cmpC k with held := v }

/-- A write of TBASE_CMP_HI[k] makes the compare value take effect (R75, R78). -/
def Device.cmpHiWrite (d : Device) (k : Nat) (v : Word) : Device :=
  let c := d.cmpC k
  let d := d.setCmp k { c with val := joinW v c.held }
  if wb c.ctl 0 then d.lateCheck k else d

/-- The value after a late match (R78): the smallest whole number of periods that places it after `now`. -/
def latePeriod (val now per : Nat) : Nat := val + ((now - val) / per + 1) * per

/-- Compare `k` matches in the present tick (R76, R77, R78, R196). -/
def Device.cmpMatch (d : Device) (k : Nat) : Device :=
  let c := d.cmpC k
  let per := (d.lv (bTBASE + 0x108 + 0x10 * k)).toNat
  let rep := wb c.ctl 1 && decide (per ≠ 0)
  let ctl := c.ctl ||| 0x100
  let c := { c with
    ctl := if rep then ctl else setB ctl 0 false,
    val := if rep then BitVec.ofNat 64 (if c.late.isSome then latePeriod c.val.toNat d.nowN per else c.val.toNat + per) else c.val,
    late := none, out := !c.out }
  (((d.setCmp k c).note (fun h => { h with hits := (k, d.cmpC k) :: h.hits })).hwFlag (aCmpctl k) 0x100).raiseEvent
    (218 + k)

/-- Compare `k` matches in the present tick with the values it holds (R76, R78). -/
def Device.cmpDue (d : Device) (k : Nat) : Bool :=
  let c := d.cmpC k
  wb c.ctl 0 && (match c.late with | some t => decide (t ≤ d.nowN) | none => decide (c.val.toNat = d.nowN))

/-- The match of compare `k` in the present tick is taken back: the compare is what it was before, but for a lower word that is held
since (R75), and its flag and its event are gone (R79); what the event has already reached keeps it (log 2). -/
def Device.cmpUnmatch (d : Device) (k : Nat) (c : Cmp) : Device :=
  let a := aCmpctl k
  ((d.setCmp k { c with held := (d.cmpC k).held }).note (fun h => { h with
    hits := h.hits.filter (fun x => decide (x.1 ≠ k)),
    flags := h.flags.set (fun _ => 0) a (h.flags.get (fun _ => 0) a &&& 0xFFFFFEFF) })).unraise (218 + k)

/-- A write of the control word, the value or the period of compare `k`: it is applied before a match of its tick, which is
decided on the written values (R79). -/
def Device.cmpWrite (d : Device) (k : Nat) (f : Device → Device) : Device :=
  match d.here.hits.find? (fun x => decide (x.1 = k)) with
  | some x =>
    let d := f (d.cmpUnmatch k x.2)
    if d.cmpDue k then d.cmpMatch k else d
  | none => f d

/-! ### The clock source (R64 to R70) -/

/-- The clock when the crystal monitor declares the crystal failed (R65). A RESTORE of the same tick is refused
(R115). -/
def Device.xtalFail (d : Device) : Device :=
  let t := d.time
  if t.src then { d with time := { t with qual := false } }
  else
    match d.here.restore with
    | some (true, lock) =>
      ({ d with time := { t with qual := false, src := true, pllLock := lock, stat := t.stat ||| 0x200 } }).hwFlag
        (bTBASE + 4) 0x200
    | r =>
      let b : Word := if r.isSome then 0x300 else 0x100
      (({ d with time := { t with
        qual := false, src := true, pllLock := false, stat := t.stat ||| b, fbcnt := satInc 16 t.fbcnt } }).hwFlag
          (bTBASE + 4) b).raiseIrq 192

/-- The PLL is locked to its new reference (R66). -/
def execPllRelock (s : State) : Host.Outcome State Fault Refusal :=
  s.run (fun d => { d with time := { d.time with pllLock := true } })

/-- XIN periods count for the qualification: fuse load has completed since the last cold reset (R69). -/
def Device.xinCounts (d : Device) : Bool :=
  match d.rst.phase with
  | .unpowered | .coldHold => false
  | _ => true

/-- XIN has stayed within 5 % for 65,536 periods (R69). -/
def execCrystalQualified (s : State) : Host.Outcome State Fault Refusal :=
  s.run (fun d => if d.xinCounts then { d with time := { d.time with qual := true } } else d)

/-- TBASE_CTL.RESTORE (R68): the reference returns to a qualified crystal, or RESTREF is set. -/
def Device.restoreXtal (d : Device) : Device :=
  let t := d.time
  if t.qual then
    (if t.src then ({ d with time := { t with src := false, pllLock := false } }).yardsSkip else d).note
      (fun h => { h with restore := h.restore <|> some (t.src, t.pllLock) })
  else ({ d with time := { t with stat := t.stat ||| 0x200 } }).hwFlag (bTBASE + 4) 0x200

/-! ### Registers (R107, R108) -/

/-- A write at offset `o` of the TBASE block that does more than store. -/
def Device.tbaseWrite (d : Device) (who : Who) (o : Nat) (v : Word) : Option Device :=
  if o = 0 then
    let d := d.mixedWrite who bTBASE 3 0 v
    some (if wb v 8 then d.restoreXtal else d)
  else if o = 4 then some { d with time := { d.time with stat := d.time.stat &&& ~~~ (d.w1c (bTBASE + 4) (v &&& 0x300)) } }
  else if o < 0x100 ∨ 0x160 ≤ o then none
  else
    let k := (o - 0x100) / 0x10
    match o % 0x10 with
    | 0 => some (d.cmpLoWrite k v)
    | 4 => some (d.cmpWrite k (fun d => d.cmpHiWrite k v))
    | 8 => some (d.cmpWrite k (fun d => d.setLv (bTBASE + o) v))
    | 0xC => some (d.cmpWrite k (fun d => d.cmpctlWrite k v))
    | _ => none

/-- A read at offset `o` of the TBASE block by the initiator with index `i`: the state after it and the word. -/
def Device.tbaseRead (d : Device) (i o : Nat) : Option (Device × Word) :=
  let t := d.time
  if o = 4 then some (d, t.stat ||| boolW t.src 0 ||| boolW t.pllLock 1 ||| boolW t.qual 2)
  else if o = 0x10 then some (d.capture pairNow i t.now, loW t.now)
  else if o = 0x14 then some (d, d.snapOf pairNow i)
  else if o = 0x18 then some (d, wd t.fbcnt)
  else if o < 0x100 ∨ 0x160 ≤ o then none
  else
    let k := (o - 0x100) / 0x10
    let c := d.cmpC k
    match o % 0x10 with
    | 0 => some (d.capture (pairCmp k) i c.val, loW c.val)
    | 4 => some (d, d.snapOf (pairCmp k) i)
    | 0xC => some (d, c.ctl)
    | _ => none

end Sys2Proof.Machine
end

