-- ==== Sys2Proof/Machine/Link.lean ====
section
/-! DEFINITION. Roram Link but for the map (R724 to R775): ports, delays, ring time, yards of the head, errands, the
reset command, the LINK registers. -/
namespace Sys2Proof.Machine

/-! ### Flags and counters (R767, R768) -/

/-- Set flag `i` of LINK_ERRF and raise source 163 by LINK_IEN (R768, R894). -/
def Device.linkFlag (d : Device) (i : Nat) : Device :=
  let old := d.link.errf
  ({ d with link := { d.link with errf := old ||| bitW i } }).flagUp (bLINK + 8) old (bitW i)
    (d.lv (bLINK + 0xC) &&& 0xFFF) 163

/-- A write of LINK_ERRF (R28, R894). -/
def Device.linkErrfWrite (d : Device) (v : Word) : Device :=
  let v := v &&& 0xFFF
  ({ d with link := { d.link with errf := d.link.errf &&& ~~~ (d.w1c (bLINK + 8) v) } }).flagKept (bLINK + 8) v
    (d.lv (bLINK + 0xC) &&& 0xFFF) 163

/-- Count in LINK_ECNT[i]. -/
def Device.linkCount (d : Device) (i : Nat) : Device :=
  { d with link := { d.link with ecnt := d.link.ecnt.set (fun _ => 0) i (satInc 16 (d.link.ecnt.get (fun _ => 0) i)) } }

/-- Raise the link's source 160 + k while bit `15 + k` of LINK_IEN is 1: 161 errand, 162 yard, 164 ring. -/
def Device.linkIrq (d : Device) (bit src : Nat) : Device := d.raiseIf (wb (d.lv (bLINK + 0xC)) bit) src

/-! ### Ports (R727 to R729, R750, R752) -/

def Device.port (d : Device) : Port → PortSt
  | .la => d.link.la
  | .lb => d.link.lb
def Device.setPort (d : Device) (p : Port) (x : PortSt) : Device :=
  { d with link := match p with | .la => { d.link with la := x } | .lb => { d.link with lb := x } }

/-- The ports may be up: no crystal fallback, not in OFF or in the hold of a cold reset (R729, R766). -/
def Device.linkAlive (d : Device) : Bool := d.powered && !d.time.src

/-- The member diverts frames (R750): LINK_STAT.UTURN. A port that is not up diverts them to one that is, and one that went
down does so until the ring closes (R752). -/
def Link.uturn (l : Link) : Bool := !l.head && (l.la.turned || l.lb.turned || l.la.up != l.lb.up)

/-- Record what port `p` sends. -/
def Device.sends (d : Device) (p : Port) (x : Sent) : Device :=
  { d with link := match p with | .la => { d.link with sentA := x } | .lb => { d.link with sentB := x } }

/-- Send a frame of `n` code-groups received on port `p` on its way (R732, R750). -/
def Device.forward (d : Device) (p : Port) (x : Sent) (n : Nat) : Device :=
  let o := if (d.port p.other).turned || !(d.port p.other).up then p else p.other
  if (d.port o).up then
    (d.setPort o { d.port o with txEnd := d.nowN + 32 + 16 * n, cross := decide (o ≠ p) }).sends o x
  else d

/-- The failure of port `p` of a member cuts a frame (R750): one that is being sent there, or one that comes in there and whose
end, 48 ticks before it has left by the other port, is still to come. -/
def Device.cuts (d : Device) (p : Port) : Bool :=
  let o := d.port p.other
  !d.link.head && o.up && (decide (d.nowN < (d.port p).txEnd) || (o.cross && decide (d.nowN + 48 < o.txEnd)))

/-- The yards whose end is still to come when port `p` of a member fails: those received there, and those on their way out there,
are void (R750, R770). -/
def Device.endsLeft (d : Device) (p : Port) : List YardEnd :=
  d.link.ends.filter (fun x =>
    decide (x.at' ≤ d.nowN) || !(decide (x.port = p) || decide (d.nowN < (d.port p).txEnd)))

/-- Port `p` goes down (R728, R750): a frame that it cuts ends with /AB/ on the port that still works; the port goes on sending
idle sets, and the head's transmitter works on (R728, R764). -/
def Device.portDown (d : Device) (p : Port) : Device :=
  let x := d.port p
  if x.up then
    let cut := d.cuts p
    let d := { d with link := { d.link with ends := d.endsLeft p } }
    let tx := if d.link.head then x.txEnd else 0
    let d := (d.setPort p { x with up := false, turned := !d.link.head, probeAt := none, txEnd := tx }).sends p (.idle x.aligned)
    let d := if cut then d.sends p.other .abort else d
    let d := { d with link := { d.link with closed := d.link.closed && !d.link.head } }
    ((d.linkCount (2 + p.num)).linkFlag 1).linkIrq 18 164
  else d

/-- Both ports are held down (R729, R766). -/
def Device.portsDown (d : Device) : Device := (d.portDown .la).portDown .lb

def execPortUp (p : Port) (s : State) : Host.Outcome State Fault Refusal :=
  s.run (fun d =>
    if d.linkAlive then
      let d' := (d.setPort p { d.port p with up := true, aligned := true }).sends p (.idle true)
      if d.link.uturn = d'.link.uturn then d' else d'.linkIrq 18 164
    else d)

def execPortDown (p : Port) (s : State) : Host.Outcome State Fault Refusal := s.run (fun d => d.portDown p)

/-- The receiver gains or loses code-group alignment (R727): from now on the port sends /I2/ or /I1/. -/
def execCodeGroupAlignment (p : Port) (gained : Bool) (s : State) : Host.Outcome State Fault Refusal :=
  s.run (fun d => (d.setPort p { d.port p with aligned := gained }).sends p (.idle gained))

/-- A code or disparity error (R728). -/
def execSymbolError (p : Port) (s : State) : Host.Outcome State Fault Refusal :=
  s.run (fun d => if d.powered then (d.linkCount p.num).linkFlag 0 else d)

/-- The yards received on port `p` whose end is still to come are void (R750). -/
def Device.endsVoid (d : Device) (p : Port) : Device :=
  { d with link := { d.link with ends := d.link.ends.filter (fun x => decide (x.port ≠ p) || decide (x.at' ≤ d.nowN)) } }

/-- A frame cut off by /AB/ is void; the node forwards the cut (R750). At the head it shows a ring that is not closed. -/
def execFrameAbort (p : Port) (s : State) : Host.Outcome State Fault Refusal :=
  s.run (fun d =>
    if d.linkAlive && (d.port p).up then
      (if d.link.head then { d with link := { d.link with closed := false } } else (d.endsVoid p).forward p .abort 1)
    else d)

/-! ### Cable delay (R745) -/

/-- The mean of a list of doubled delays, with a free rounding (log 11). -/
def meanDly (l : List Nat) (up : Bool) : Nat :=
  let n := 2 * l.length
  if n = 0 then 0 else l.sum / n + (if l.sum % n ≠ 0 && up then 1 else 0)

/-- A measurement `m`, twice the cable delay, enters the mean of port `p`. -/
def Device.measured (d : Device) (p : Port) (m : Nat) : Device :=
  let x := d.port p
  let l := (m :: x.meas).take 16
  (d.setPort p { x with
    meas := l, dly := meanDly l (Config.roundUp d.free) % 0x100000, valid := decide (l.length = 16), probeAt := none }).fresh

def execDelayProbe (p : Port) (s : State) : Host.Outcome State Fault Refusal :=
  s.run (fun d =>
    if d.linkAlive && (d.port p).up then (d.setPort p { d.port p with probeAt := some d.nowN }).sends p .probe else d)

/-- /DR/ arrives: `trip` is the round trip and `t` the partner's turnaround, in 1/32 tick. -/
def execDelayReply (p : Port) (trip : Nat) (t : BitVec 24) (s : State) : Host.Outcome State Fault Refusal :=
  s.run (fun d => if d.linkAlive && (d.port p).probeAt.isSome then d.measured p (trip - t.toNat) else d)

def execDelayProbeAnswer (p : Port) (t : BitVec 24) (s : State) : Host.Outcome State Fault Refusal :=
  s.run (fun d => if d.linkAlive then d.sends p (.delayReply t) else d)

/-! ### Ring time (R746 to R749) -/

/-- The ring time of local tick `v` (R747): v + (TOFS + RATE × (v − t_a)) ÷ 32, rounded down, with RATE in units of 2^-32 and t_a,
held in 1/32 tick, in ticks. -/
def Link.ringAt (l : Link) (v : Nat) : Int :=
  match l.head, l.ta with
  | false, some ta =>
    sarI (((v : Int) * 32 + l.tofs.toInt) * 0x2000000000 + l.rate.toInt * ((v : Int) * 32 - ta.toNat)) 42
  | _, _ => v

/-- LINK_RTIME (R747). -/
def Device.ringTime (d : Device) : DWord := BitVec.ofInt 64 (d.link.ringAt d.nowN)

/-- The first local tick whose ring time is at or beyond `t`, as an integer (R749, R802). -/
def Link.ringTick (l : Link) (t : Int) : Int :=
  match l.head, l.ta with
  | false, some ta =>
    -((-(t * 0x40000000000 - l.tofs.toInt * 0x2000000000 + l.rate.toInt * ta.toNat)) / (32 * (0x2000000000 + l.rate.toInt)))
  | _, _ => t

/-- The rate error from the last two offsets (R747), the change of the offset over the ticks between its two yards: whole units of
2^-32, rounded as a free choice; a free value where it does not fit (log 68). -/
def Device.newRate (d : Device) (tofs : Int) (ta : Nat) : Word :=
  match d.link.ta with
  | none => d.link.rate
  | some t0 =>
    let n := (tofs - d.link.tofs.toInt) * 0x2000000000
    let q : Int := ta - t0.toNat
    if q ≤ 0 then Config.rateWord d.free
    else
      let r := n / q + (if n % q ≠ 0 && Config.roundUp d.free then 1 else 0)
      if -0x80000000 ≤ r ∧ r < 0x80000000 then wI r else Config.rateWord d.free

/-- The event of stream `k` at ring time `t` is to come; `hdr` is the tick in which the header is complete (R749). -/
def Device.yardEventDue (d : Device) (k : Nat) (t : Int) (hdr : Nat) : Device :=
  let x : YardEv := { k := k, target := t, hdr := hdr, late := decide (d.link.ringTick t < hdr) }
  { d with link := { d.link with yevDue := d.link.yevDue ++ [x] } }

/-- The tick of a yard event, by the ring time as it stands: the first at or beyond its target, and not before its header is
complete (R749). -/
def Link.yevTick (l : Link) (x : YardEv) : Nat := if x.late then x.hdr else max x.hdr (l.ringTick x.target).toNat

/-- The oldest event of stream `k` to come, and the others. -/
def popDue (k : Nat) : List YardEv → Option (YardEv × List YardEv)
  | [] => none
  | x :: l => if x.k = k then some (x, l) else match popDue k l with | some (y, l') => some (y, x :: l') | none => none

/-- SYNC returns to 0 (R748). -/
def Device.syncLost (d : Device) : Device := { d with link := { d.link with sync := false, prevOk := none } }

/-- SYNC after a yard with correct HCHK at tick `t` and header flag FB = `fb` (R748). -/
def Link.syncYard (l : Link) (t : Nat) (fb : Bool) : Link :=
  if !fb && l.la.valid && l.lb.valid then
    let near := match l.prevOk with | some u => decide (t ≤ u + 200000) | none => false
    { l with sync := l.sync || near, prevOk := some t, goodAt := some t }
  else { l with prevOk := none }

/-- The CRC a processing member sends (R734): right when the received one was right, else wrong by a free value. -/
def Device.crcOut (d : Device) (ok : Bool) (new : Word) : Word :=
  if ok then new
  else
    let e := Config.crcError d.free
    new ^^^ (if e = 0 then 1 else e)

/-- Yards, the map and errands work: not in OFF, in the hold of a cold reset, in crystal fallback or in a unit reset of LINK
(R766). -/
def Device.linkRuns (d : Device) : Bool := d.linkAlive && !d.rst.unitBusy.getLsbD 9

/-- A member processes on port `p` a frame of direction `dir` (R731); none in a unit reset of LINK (R766). -/
def Device.processes (d : Device) (p : Port) (dir : Bool) : Bool :=
  !d.link.head && (match p with | .la => !dir | .lb => dir) && !d.rst.unitBusy.getLsbD 9

/-- An address that was written takes effect with the /SY/ or /SE/ that arrives (R756). -/
def Device.addrTake (d : Device) : Device :=
  match d.link.addrNext with
  | some a => { d with link := { d.link with addr := a, addrNext := none } }
  | none => d

/-- The bytes of a list with those from place `o` replaced by `v`. -/
def putBytes (l : List Byte) (o : Nat) (v : List Byte) : List Byte :=
  l.take o ++ v.take (l.length - o) ++ l.drop (o + v.length)

/-! ### Blocks of bytes in memory -/

/-- Read `n` bytes from `a` as an initiator of the trusted domain, doubleword by doubleword; none where a read fails. -/
def Device.bytesIn (d : Device) (who : Who) (a n : Nat) : Device × Option (List Byte) :=
  let step := fun (s : Device × Option (List Byte)) (b : Nat) =>
    match s.2 with
    | none => s
    | some l =>
      match s.1.memGate who true false b 8 with
      | (d, some _) => (d, none)
      | (d, none) =>
        if d.flashBusy b then (d, none)
        else
          let d := if isShared b then d.shareLine (lineOf b) none else d
          let r := d.physRead (whoIdx who) b
          (r.1, if r.2.2 then none else some (l ++ toBytes 8 r.2.1.toNat))
  let b0 := dwOf a
  let r := ((List.range ((a - b0 + n + 7) / 8)).map (fun i => b0 + 8 * i)).foldl step (d, some [])
  (r.1, r.2.map (fun l => (l.drop (a - b0)).take n))

/-- Write bytes from `a` as an initiator of the trusted domain: whole doublewords where they fill one. -/
def Device.bytesOut (d : Device) (who : Who) : Nat → Nat → List Byte → Device
  | 0, _, _ => d
  | _, _, [] => d
  | f + 1, a, b :: t =>
    let l := b :: t
    if a % 8 = 0 ∧ 8 ≤ l.length then
      ((d.memWrite who true a 8 (leNat (l.take 8))).1).bytesOut who f (a + 8) (l.drop 8)
    else ((d.memWrite who true a 1 b.toNat).1).bytesOut who f (a + 1) t

/-- Write a list of bytes, once a tag is free (R131). -/
def Device.putMem (d : Device) (who : Who) (a : Nat) (l : List Byte) : Device :=
  if d.mustWait (whoIdx who) then d.workLater (whoIdx who) (.put who a l none) else d.bytesOut who l.length a l

/-- Push a word to a queue as the link controller, which ignores a drop; at the queue unit in reset it joins the requests that wait
there (R890). -/
def Device.linkPush (d : Device) (q : Nat) (v : Word) : Device :=
  if d.rst.unitBusy.getLsbD 2 || d.noTag 5 then
    d.postReq .link (bQUE + 0x100 + 0x20 * q) v { sup := true, trusted := true }
  else (d.quePush q v).1

/-- LINK_HQ.RXQ: the queue that takes the handles of the head's errands (R763). -/
def Device.rxq (d : Device) : Nat := wf (d.lv (bLINK + 0x250)) 12 8

/-- Write a list of bytes, then push `v` to LINK_HQ.RXQ (R763). -/
def Device.putPush (d : Device) (a : Nat) (l : List Byte) (v : Word) : Device :=
  if d.mustWait 5 then d.workLater 5 (.put .link a l (some v)) else (d.bytesOut .link l.length a l).linkPush d.rxq v

/-- The address of buffer `i` of the shed (R618). -/
def bufAddr (i : Nat) : Nat := 0x20000000 + 128 * i

/-! ### Errands of a member (R758 to R762) -/

/-- The errand with a tag. -/
def Device.errandOf (d : Device) (tag : Byte) : Option Errand := d.link.errands.find? (fun e => decide (e.tag = tag))

/-- Change the errand with a tag. -/
def Device.setErrand (d : Device) (tag : Byte) (f : Errand → Errand) : Device :=
  { d with link := { d.link with errands := d.link.errands.map (fun e => if e.tag = tag then f e else e) } }

/-- Release an errand and its buffer, from whichever owner (R762, R790). -/
def Device.errandRelease (d : Device) (tag : Byte) : Device :=
  match d.errandOf tag with
  | some e =>
    ({ d with link := { d.link with errands := d.link.errands.filter (fun x => decide (x.tag ≠ tag)) } }).shedDrop .link e.buf e.gen
  | none => d

/-- Release every stored errand (R766). -/
def Device.errandsOut (d : Device) : Device := d.link.errands.foldl (fun d e => d.errandRelease e.tag) d

/-- The shed gives the buffer of a REQ (R761): its bytes, the hand-off to the OD engine, source 161. -/
def Device.storeNow (d : Device) (f : ErrFrame) : Device :=
  match d.shedTake .link 4 with
  | (d, none) => d
  | (d, some h) =>
    let i := h % 1024
    let d := d.putMem .link (bufAddr i) (f.body.take (10 + f.len.toNat))
    let d := d.setBuf i { d.bufC i with owner := 5 }
    let e : Errand := { tag := f.tag, at' := d.nowN, buf := i, gen := h / 0x1000, st := .stored, fwdAt := 0 }
    ({ d with link := { d.link with errands := d.link.errands ++ [e] } }).linkIrq 16 161

/-- Store a REQ (R761): at a shed in reset once it serves requests again (R890). -/
def Device.errandStore (d : Device) (f : ErrFrame) : Device :=
  if d.rst.unitBusy.getLsbD 3 then { d with link := { d.link with work := d.link.work ++ [.store f] } } else d.storeNow f

/-- The errands that waited for the shed are stored. -/
def Device.storesNow (d : Device) : Device :=
  let l := d.link.work
  l.foldl (fun d w => match w with | .store f => d.storeNow f | _ => d)
    { d with link := { d.link with work := l.filter (fun w => w.tagOf.isSome) } }

/-- Bytes for the buffer of errand `e`, or its answer, wait for a tag (R131). -/
def Device.workAt (d : Device) (e : Errand) : Bool :=
  d.link.work.any (fun w => match w with
    | .put _ a _ _ => decide (a / 128 = bufAddr e.buf / 128)
    | .ans t => decide (t = e.tag)
    | .store _ => false)

/-- STAT of a REQ (R759): 1 accepted, 4 busy. -/
def Device.reqStat (d : Device) (f : ErrFrame) : Nat :=
  match d.errandOf f.tag with
  | some e => if e.st = .collected then (if d.rst.phase = .warm then 4 else 1) else 1
  | none => if d.rst.phase = .warm || decide (4 ≤ d.link.errands.length) || d.shed.free.isEmpty then 4 else 1

/-- A whole new REQ finds a place among the errands and no free buffer: the link controller's allocation fails (R620). -/
def Device.reqNoBuffer (d : Device) (f : ErrFrame) : Bool :=
  (d.errandOf f.tag).isNone && decide (d.rst.phase ≠ .warm) && decide (d.link.errands.length < 4) && d.shed.free.isEmpty

/-- A REQ at this node: the state and the frame it sends on (R620, R759, R761, R762). -/
def Device.reqAct (d : Device) (f : ErrFrame) (ok : Bool) : Device × ErrFrame :=
  let st := d.reqStat f
  let g := { f with stat := BitVec.ofNat 8 st }
  if st ≠ 1 then ((if ok && d.reqNoBuffer f then (d.shedTake .link 4).1 else d).linkCount 7, g)
  else
    match d.errandOf f.tag with
    | some e => if ok && decide (e.st = .collected) then ((d.errandRelease f.tag).errandStore f, g) else (d, g)
    | none => (if ok then d.errandStore f else d, g)

/-- LINK_HOLD. -/
def Device.holdTicks (d : Device) : Nat := wf (d.lv (bLINK + 0xA0)) 23 0

/-- A COLLECT of the errand with a tag in the tick of expiry stops its hold timer (R82, R762). -/
def Device.holdStop (d : Device) (tag : Byte) : Device :=
  d.setErrand tag (fun e => if e.at' + d.holdTicks = d.nowN then { e with kept := true } else e)

/-- LINK_HOLD has expired for the errand `e` before the present tick (R762). -/
def Device.holdGone (d : Device) (e : Errand) : Bool := !e.kept && decide (e.at' + d.holdTicks < d.nowN)

/-- A COLLECT at this node (R759, R761). An answer whose bytes still wait for a tag is not ready, nor is one that the link controller
has no tag to read (R131; DESIGN CHOICE, log 101). -/
def Device.collectAct (d : Device) (f : ErrFrame) (ok : Bool) : Device × ErrFrame :=
  match d.errandOf f.tag with
  | none => (d.linkCount 7, { f with stat := 5 })
  | some e =>
    let d := if ok then d.holdStop f.tag else d
    if e.st = .stored ∨ e.st = .forwarded ∨ d.workAt e = true then (d, { f with stat := 3 })
    else if d.mustWait 5 then (d.countWait 5, { f with stat := 3 })
    else
      match d.bytesIn .link (bufAddr e.buf) 10 with
      | (d, none) => (d, { f with stat := 7, code := 0xF1 })
      | (d, some h) =>
        let rlen := (h.drop 9).headD 0
        let code := (h.drop 7).headD 0
        if f.len < rlen then (d, { f with stat := 8, rlen := rlen })
        else
          match d.bytesIn .link (bufAddr e.buf + 10) rlen.toNat with
          | (d, none) => (d, { f with stat := 7, code := 0xF1 })
          | (d, some v) =>
            (if ok then d.setErrand f.tag (fun e => { e with st := .collected }) else d,
              { f with stat := 2, code := code, rlen := rlen, data := putBytes f.data 0 v })

/-- A DROP at this node (R759, R762). -/
def Device.dropAct (d : Device) (f : ErrFrame) (ok : Bool) : Device × ErrFrame :=
  match d.errandOf f.tag with
  | none => (d.linkCount 7, { f with stat := 5 })
  | some _ => (if ok then d.errandRelease f.tag else d, { f with stat := 9 })

/-- What the addressed member does with an errand frame (R757, R759, R760). -/
def Device.errandAct (d : Device) (f : ErrFrame) (ok : Bool) : Device × ErrFrame :=
  if d.link.addr = 0 ∨ f.addr ≠ d.link.addr then (d, f)
  else if f.stat ≠ 0 then (d.linkFlag 7, { f with stat := 6 })
  else if (f.kind = 1 ∨ f.kind = 2) ∧ 112 < f.len.toNat then (d.linkCount 7, { f with stat := 10 })
  else if f.kind = 1 then d.reqAct f ok
  else if f.kind = 2 then d.collectAct f ok
  else if f.kind = 3 then d.dropAct f ok
  else (d, f)

/-- The errand with a tag is released by LINK_HOLD (R762). -/
def Device.holdOver (d : Device) (tag : Byte) : Device := ((d.errandRelease tag).linkCount 7).linkFlag 9

/-- The errands for which LINK_HOLD has expired before the present tick are released (R81, R82, R762). -/
def Device.holdsOver (d : Device) : Device :=
  d.link.errands.foldl (fun d e => if d.linkRuns && d.holdGone e then d.holdOver e.tag else d) d

/-! ### The head (R751, R752, R763 to R765) -/

def Device.hycfg (d : Device) (k : Nat) : Word := d.lv (bLINK + 0x200 + 0x10 * k)

/-- A write of LINK_HYCFG[k] (R764, R765): a YLEN above 2,048 is ignored as a whole. -/
def Device.hycfgWrite (d : Device) (k : Nat) (v : Word) : Device :=
  if !d.link.head || decide (2048 < wf v 27 16) then d
  else
    let was := wb (d.hycfg k) 0
    let d := d.setLv (bLINK + 0x200 + 0x10 * k) (v &&& 0x0FFF0003)
    if wb v 0 then (if was then d else d.setHdue k (some (d.nowN + d.hper k))) else d.setHdue k none

/-- A write of LINK_HPER[k] (R764): a stream that had no period has its first yard a period later. -/
def Device.hperWrite (d : Device) (k : Nat) (v : Word) : Device :=
  let first := decide (d.hper k = 0) && wb (d.hycfg k) 0
  let d := d.setLv (bLINK + 0x204 + 0x10 * k) (v &&& 0xFFFFFF)
  if first then d.setHdue k (some (d.nowN + d.hper k)) else d

/-- The stream whose yard is due first; those due together in ascending order (R764). A stream whose period is 0 sends
none. -/
def Device.nextYard (d : Device) : Option (Nat × Nat) :=
  (List.range 4).foldl (fun b k =>
    match d.hdueOf k with
    | some t =>
      if wb (d.hycfg k) 0 && decide (d.hper k ≠ 0) then
        (match b with | some (_, u) => if t < u then some (k, t) else b | none => some (k, t))
      else b
    | none => b) none

/-- The stall area the head sends (R764); a byte it cannot read is a free value (log 20). -/
def Device.stallOut (d : Device) (k n : Nat) : Device × List Byte :=
  match d.bytesIn .link (d.lv (bLINK + 0x208 + 0x10 * k)).toNat n with
  | (d, some l) => (d, l)
  | (d, none) => (d.fresh, (List.range n).map (fun i => Config.stallByte (2048 * d.free + i)))

/-- The yard of stream `k` that leaves now, without its checks. -/
def Device.mkYard (d : Device) (k : Nat) (dir : Bool) (stall : List Byte) : YardFrame :=
  let fl := k + (if dir then 4 else 0) + (if d.link.closed then 8 else 0) + (if wb (d.hycfg k) 1 then 16 else 0)
    + (if d.time.src then 32 else 0)
  { flags := BitVec.ofNat 8 fl, hop := 0, ylen := BitVec.ofNat 16 stall.length,
    seq := d.link.hseq.get (fun _ => 0) k + 1, ty := d.time.now, accdly := 0, rsv := 0, hchk := 0, stall := stall, crc := 0 }

/-- The first tick in which the head may start a frame: the one before it has ended, and the gap of 8 code-groups follows it
(R733, R764). -/
def Device.headFree (d : Device) : Nat :=
  let t := max d.link.la.txEnd d.link.lb.txEnd
  if t = 0 then 0 else t + 16 * 8

/-- The head sends on port `p`, whose transmitter works while its receiver is down too (R728, R751). -/
def Device.headSend (d : Device) (p : Port) (x : Sent) (n : Nat) : Device :=
  (d.setPort p { d.port p with txEnd := d.nowN + 16 * n, cross := false }).sends p x

/-- The head's /RP/ that follows a yard leaves by LB (R726, R752; DEDUCED, log 108). -/
def Device.probeNow (d : Device) : Device :=
  match d.link.rpAt with
  | some _ => ({ d with link := { d.link with rpAt := none } }).sends .lb .ringProbe
  | none => d

/-- The yard of stream `k`, due in tick `t`, is sent once the line is free (R735, R751, R752, R764): with the ring open twice,
and /RP/ follows each. -/
def Device.yardSend (d : Device) (k t : Nat) : Device :=
  let d := (d.setHdue k (some (t + d.hper k))).probeNow
  let r := d.stallOut k (wf (d.hycfg k) 27 16)
  let d := r.1
  let f0 := (d.mkYard k false r.2).seal
  let f1 := (d.mkYard k true r.2).seal
  let l := d.link
  let chg := l.rc != l.closed
  let d := { d with link := { l with
    hseq := l.hseq.set (fun _ => 0) k f0.seq, rc := l.closed, fb := d.time.src,
    healFrom := if l.rpWait then none else l.healFrom, rpWait := !l.closed } }
  let d := d.headSend .lb (.yard f0) f0.len
  let d := if l.closed then d
    else ({ d with link := { d.link with rpAt := some (d.nowN + 16 * f0.len) } }).headSend .la (.yard f1) f1.len
  let d := d.yardEventDue k (d.nowN + wf (d.lv (bLINK + 0x50 + 4 * k)) 23 0) d.nowN
  if chg then d.linkIrq 18 164 else d

/-- The head receives a yard back (R751): the stall area, the HOP value, the ring delay. -/
def Device.yardReturn (d : Device) (p : Port) (f : YardFrame) : Device :=
  let d := if p = .lb && !f.dir then { d with link := { d.link with closed := false } } else d
  if f.check ≠ f.hchk then (d.linkCount 4).linkFlag 2
  else
    let d := { d with link := { d.link with rdly := BitVec.ofNat 24 (f.accdly.toNat + (d.port p).dly) } }
    if f.crcOf ≠ f.crc then (d.linkCount 5).linkFlag 3
    else
      let k := f.stream
      let h := d.link.hret.get (fun _ => 0) k
      let h := putF (if f.dir then putF h 15 8 f.hop.toNat else putF h 7 0 f.hop.toNat) 31 16 f.seq.toNat
      let d := { d with link := { d.link with hret := d.link.hret.set (fun _ => 0) k h } }
      d.putMem .link ((d.lv (bLINK + 0x20C + 0x10 * k)).toNat + (if f.dir then 2048 else 0)) f.stall

def execHeadYardReturn (p : Port) (_vern : Fin 32) (f : YardFrame) (s : State) : Host.Outcome State Fault Refusal :=
  s.run (fun d => if d.link.head && d.linkRuns && (d.port p).up then d.yardReturn p f else d)

/-- /RP/ arrives (R752): a member forwards it through the other port while that is up; at the head, on LA, it counts
for the closure. -/
def execRingProbe (p : Port) (s : State) : Host.Outcome State Fault Refusal :=
  s.run (fun d =>
    if !(d.linkAlive && (d.port p).up) then d
    else if d.link.head then
      (if p = .la then { d with link := { d.link with
        rpWait := false, healFrom := match d.link.healFrom with | some t => some t | none => some d.nowN } } else d)
    else if (d.port p.other).up then d.sends p.other .ringProbe else d)

/-- The queues of the head's errands (R763). -/
def Device.txq (d : Device) : Nat := wf (d.lv (bLINK + 0x250)) 4 0
/-- The ECC of the queue RAM word at the head of queue `q`, met by initiator `i`: corrected, or uncorrectable (R669,
R670, R673). -/
def Device.queWordCheck (d : Device) (q i : Nat) : Device × Bool :=
  let w := (d.queC q).ramWord 0
  match d.queEcc q with
  | .good => (d, false)
  | .single => ((d.setEcc (queEccKey w) .good).countCe 4 w, false)
  | .bad => (d.countUe 4 w i 0, true)

/-- Initiator `i` pops queue `q` (R601, R608): the state, the word, whether the word is uncorrectable. -/
def Device.popBy (d : Device) (q i : Nat) : Device × Word × Bool :=
  let r := if d.queHas q then d.queWordCheck q i else (d, false)
  let p := r.1.quePop q
  (if r.2 then p.1.queFlag q 0x80000 else p.1, p.2, r.2)

/-- The head may send the next errand frame once the line is free: none is on its way, no yard falls due before (R763, R764), and the
link controller has a tag to read its buffer (R131). -/
def Device.errandReady (d : Device) : Bool :=
  let t := max d.nowN d.headFree
  let due := match d.nextYard with | some (_, y) => decide (y ≤ t) | none => false
  d.link.head && d.linkRuns && d.link.flight.isNone && !due && d.queHas d.txq && !d.mustWait 5

/-- The buffer of the handle `h` cannot be read: its errand is reported as lost (R763). -/
def Device.errandLost (d : Device) (h : Nat) : Device :=
  ((d.linkPush d.rxq (wd (h + 0x80000000))).linkCount 7).linkFlag 10

/-- The next handle of LINK_HQ.TXQ is sent (R751, R763, R764); a buffer that cannot be read is reported as lost. A word that
cannot be read is removed and nothing is sent (R608; log 90). -/
def Device.errandSend (d : Device) : Device :=
  let p := d.probeNow.popBy d.txq 5
  if p.2.2 then p.1
  else
    let h := p.2.1.toNat % 0x10000
    match p.1.bytesIn .link (bufAddr (h % 1024)) 10 with
    | (d, none) => d.errandLost h
    | (d, some hd) =>
      let n := min 112 ((hd.drop 8).headD 0).toNat
      match d.bytesIn .link (bufAddr (h % 1024) + 10) n with
      | (d, none) => d.errandLost h
      | (d, some data) =>
        let f := errOf hd data
        let d := d.headSend .lb (.errand (f.seal false)) f.size
        let d := if d.link.closed then d else d.headSend .la (.errand (f.seal true)) f.size
        { d with link := { d.link with
          flight := some { handle := h, at' := d.nowN, tag := f.tag, left := if d.link.closed then 1 else 2 } } }

/-- LINK_RTTO. -/
def Device.rtto (d : Device) : Nat := wf (d.lv (bLINK + 0x254)) 23 0

/-- An errand frame comes back to the head (R763), not after LINK_RTTO (R81, R82): with the ring open a copy that no node answered is
written to the buffer and waits for the other (log 67). -/
def execErrandReturn (p : Port) (f : ErrFrame) (s : State) : Host.Outcome State Fault Refusal :=
  s.run (fun d =>
    match d.link.flight with
    | some x =>
      if !(d.link.head && d.linkRuns && (d.port p).up) || decide (f.tag ≠ x.tag) || decide (x.at' + d.rtto < d.nowN) then d
      else if f.crc ≠ f.crcOf then (d.linkCount 5).linkFlag 3
      else if f.stat = 0 ∧ 1 < x.left then
        let d := d.putMem .link (bufAddr (x.handle % 1024)) f.body
        { d with link := { d.link with flight := some { x with left := x.left - 1, back := true } } }
      else
        ({ d with link := { d.link with flight := none } }).putPush (bufAddr (x.handle % 1024)) f.body (wd x.handle)
    | none => d)

/-- The errand frame of the head is over without a further return (R763): none came, or only a copy that no node answered. -/
def Device.returnOver (d : Device) (x : HeadErr) : Device :=
  let d := { d with link := { d.link with flight := none } }
  if x.back then d.linkPush d.rxq (wd x.handle)
  else ((d.linkPush d.rxq (wd (x.handle + 0x80000000))).linkCount 7).linkFlag 10

/-- Yard event 208 + k (R749), with source 162 by LINK_IEN[17]. -/
def Device.yardEvent (d : Device) (k : Nat) : Device := (d.raiseEvent (208 + k)).linkIrq 17 162

/-! ### The reset command (R753 to R755) -/

/-- The node has acted on /RC/ less than 1 ms ago (R754). -/
def Device.rcHeld (d : Device) : Bool :=
  match d.link.rcAt with | some t => decide (d.nowN < t + 200000) | none => false

/-- The reset command at port `p` is for this node (R753, R754). -/
def Device.rcForMe (d : Device) (s1 s2 : RcSet) (gap : Nat) : Bool :=
  !d.link.head && decide (s1 = s2) && decide (gap ≤ 16) && decide (s1.b = ~~~ s1.a)
    && ((decide (s1.m = 0x5A) && decide (s1.a = d.link.addr)) || decide (s1.m = 0xC3))
    && wb (d.lv bLINK) 0 && !d.rcHeld

/-- A member forwards /RC/ (R754): out of the other port, and in U-turn out of both. -/
def Device.rcForward (d : Device) (p : Port) (s1 s2 : RcSet) : Device :=
  if d.link.head || !d.powered then d
  else
    let d := d.sends p.other (.resetCmd s1 s2)
    if d.link.uturn then d.sends p (.resetCmd s1 s2) else d

/-- A write of LINK_HRST (R755, R767): the head sends one /RC/ pair. -/
def Device.hrstWrite (d : Device) (v : Word) : Device :=
  if d.link.head then
    let a : Byte := v.setWidth 8
    let x : RcSet := { a := a, b := ~~~ a, m := (v >>> 8).setWidth 8 }
    (d.sends .lb (.resetCmd x x)).sends .la (.resetCmd x x)
  else d

/-! ### Registers (R767, R768) -/

/-- A head-only offset of the LINK block (R767). -/
def headOnly (o : Nat) : Bool := decide (0x200 ≤ o) && decide (o < 0x400)

/-- A write at offset `o` of the LINK block that does more than store. -/
def Device.linkWrite (d : Device) (who : Who) (o : Nat) (v : Word) : Option Device :=
  let l := d.link
  if o = 0 then some (d.mixedWrite who bLINK 1 2 v)
  else if o = 8 then some (d.linkErrfWrite v)
  else if o = 0x10 then some (if l.head then d else { d with link := { l with addrNext := some (v.setWidth 8) } })
  else if 0x80 ≤ o ∧ o < 0xA0 then
    some { d with link := { l with ecnt := l.ecnt.set (fun _ => 0) ((o - 0x80) / 4) (wf v 15 0) } }
  else if headOnly o then
    (if !l.head then some d
    else if o < 0x240 ∧ o % 0x10 = 0 then some (d.hycfgWrite ((o - 0x200) / 0x10) v)
    else if o < 0x240 ∧ o % 0x10 = 4 then some (d.hperWrite ((o - 0x200) / 0x10) v)
    else if o = 0x260 then some (d.hrstWrite v)
    else none)
  else none

/-- LINK_STAT. -/
def Device.linkStat (d : Device) : Word :=
  let l := d.link
  boolW l.la.up 0 ||| boolW l.lb.up 1 ||| boolW l.uturn 2 ||| boolW l.rc 3 ||| boolW d.time.src 4 ||| boolW l.head 8
    ||| boolW l.sync 9 ||| boolW l.fb 10

/-- A read at offset `o` of the LINK block, LINK_RTIME apart. LINK_ADDR.ADDR reads as it was written (DEDUCED, log 108). -/
def Device.linkRead (d : Device) (o : Nat) : Option Word :=
  let l := d.link
  if o = 4 then some d.linkStat
  else if o = 8 then some l.errf
  else if o = 0x10 then some (wd ((l.addrNext.getD l.addr).toNat + 0x100 * l.pos.toNat) ||| boolW l.auto' 16)
  else if o = 0x20 then some (wd l.la.dly ||| boolW l.la.valid 31)
  else if o = 0x24 then some (wd l.lb.dly ||| boolW l.lb.valid 31)
  else if o = 0x28 then some (l.hdly.setWidth 32)
  else if o = 0x30 then some (loW l.tofs)
  else if o = 0x34 then some (hiW l.tofs)
  else if o = 0x38 then some l.rate
  else if 0x70 ≤ o ∧ o < 0x80 then some ((l.yseq.get (fun _ => 0) ((o - 0x70) / 4)).setWidth 32)
  else if 0x80 ≤ o ∧ o < 0xA0 then some (wd (l.ecnt.get (fun _ => 0) ((o - 0x80) / 4)))
  else if o = 0xA4 then some (wd l.errands.length)
  else if headOnly o && !l.head then some 0
  else if 0x240 ≤ o ∧ o < 0x250 then some (l.hret.get (fun _ => 0) ((o - 0x240) / 4))
  else if o = 0x25C then some (l.rdly.setWidth 32)
  else none

/-- The protocol layer takes its reset values (R766): `unit` for a unit reset. Ports, delays, ring time and address
stay. -/
def Device.linkReset (d : Device) : Device :=
  let d := d.errandsOut
  { d with link := { d.link with
    errf := 0, yevDue := [], ends := [], work := [], yseq := [], ecnt := [], outPrev := [], hseq := [], hdue := [], hret := [], rdly := 0,
    flight := none, rpWait := false, rpAt := none, healFrom := none, closed := false } }

end Sys2Proof.Machine
end

