-- ==== Sys2Proof/Machine/DmaCtl.lean ====
section
/-! DEFINITION. The DMA channels but for the movement of an element: start, trigger, choice of the running channel,
stop, end of a run, registers (R640 to R659). -/
namespace Sys2Proof.Machine

/-- Set flags of DMA_STAT[k] (bits 7:4) and raise source 113 + k by DMA_IEN (R657). -/
def Device.dmaFlag (d : Device) (k : Nat) (bits : Word) : Device :=
  let c := d.dmaC k
  (d.setDma k { c with flags := c.flags ||| bits }).flagUp (aDma k 5) c.flags bits (d.lv (aDmaIen k)) (113 + k)

/-- A write of the W1C bits of DMA_STAT[k] (R28, R657, R894). -/
def Device.dmaStatWrite (d : Device) (k : Nat) (v : Word) : Device :=
  let c := d.dmaC k
  let v := v &&& 0xF0
  (d.setDma k { c with flags := c.flags &&& ~~~ (d.w1c (aDma k 5) v) }).flagKept (aDma k 5) v (d.lv (aDmaIen k)) (113 + k)

/-- The element size in bytes of a DMA_CFG word (R648). -/
def esize (cfg : Word) : Nat := 2 ^ wf cfg 1 0

/-- START of channel `k` (R641, R643, R651). -/
def Device.dmaStart (d : Device) (k : Nat) : Device :=
  let c := d.dmaC k
  if c.st ≠ .idle then d
  else
    let src := d.lv (aDma k 0)
    let dst := d.lv (aDma k 1)
    let cnt := wf (d.lv (aDma k 2)) 15 0
    let cfg := d.lv (aDma k 3)
    if cnt = 0 ∨ wf cfg 1 0 = 3 ∨ src.toNat % esize cfg ≠ 0 ∨ dst.toNat % esize cfg ≠ 0 then d.dmaFlag k 0x80
    else d.setDma k { c with
      st := if wb cfg 4 then .armed else .pending, csrc := src, cdst := dst, cfg := cfg, rem := cnt,
      runLeft := if wb cfg 4 then 0 else cnt, trust := wb (d.lv (aDmaOwn k)) 8, stop := 0 }

/-- A rising edge at DMA destination `k` (R644). A dropped one is noted for the end of a run in the same tick (R647). -/
def Device.dmaTrigger (d : Device) (k : Nat) : Device :=
  let c := d.dmaC k
  match c.st with
  | .idle => d
  | .armed =>
    let b := wf c.cfg 31 16
    d.setDma k { c with st := .pending, runLeft := if b = 0 ∨ c.rem < b then c.rem else b }
  | .pending | .running =>
    (d.note (fun h => { h with
      drops := h.drops ++ [(k, !wb c.flags 6, !d.intc.pend.getLsbD (113 + k))] })).dmaFlag k 0x40

/-- The run of channel `k` ends in a tick in which a trigger was dropped: the drop is taken back, since the end comes first
(R647). It answers whether there was one. -/
def Device.dmaTakeBack (d : Device) (k : Nat) : Device × Bool :=
  match d.here.drops.find? (fun x => decide (x.1 = k)) with
  | some (_, t, p) =>
    let c := d.dmaC k
    let d := (d.setDma k { c with flags := if t then c.flags &&& ~~~ 0x40 else c.flags }).note (fun h => { h with
      drops := h.drops.filter (fun x => decide (x.1 ≠ k)) })
    (d.flagDown (aDma k 5) (if t then 0x40 else 0) (113 + k) (!p), true)
  | none => (d, false)

/-- STOP of channel `k` (R655): a RUNNING channel stops at the next element boundary. An abort that waits for it stays one. -/
def Device.dmaStop (d : Device) (k : Nat) : Device :=
  let c := d.dmaC k
  match c.st with
  | .idle => d
  | .running => if c.stop = 0 then d.setDma k { c with stop := 1 } else d
  | _ => d.setDma k { c with st := .idle, runLeft := 0, ecode := 5 }

/-- The abort of channel `k` by a core reset of its owner (R656). -/
def Device.dmaAbort (d : Device) (k : Nat) : Device :=
  let c := d.dmaC k
  match c.st with
  | .idle => d
  | .running => if c.stop = 3 then d else d.setDma k { c with stop := 2 }
  | _ => (d.setDma k { c with st := .idle, runLeft := 0, ecode := 6 }).dmaFlag k 0x20

/-- A core reset of core `c`: its channels are aborted (R656). -/
def Device.dmaCoreReset (d : Device) (c : Nat) : Device :=
  (List.range 16).foldl (fun d k => if wf (d.lv (aDmaOwn k)) 1 0 = c then d.dmaAbort k else d) d

/-- The engine has an element of channel `k` in flight whose read waits at a unit in reset, or has its answer (R649, R890). -/
def Device.dmaReadOut (d : Device) (k : Nat) : Bool :=
  d.waits.any (fun w => w.eng && w.put.isNone && (match w.who with | .dma j => decide (j.val = k) | _ => false))
    || (match d.engOf 6 with | .answered _ none _ => decide ((d.dmaC k).st = .running) | _ => false)

/-- A unit reset of DMA (R176, R656): every channel takes its reset values, the one with elements in flight once they have
been written (`stop` is 3 until then). -/
def Device.dmaUnitReset (d : Device) : Device :=
  { d with dma := (List.range 16).foldl (fun t k =>
      let c := d.dmaC k
      t.set (fun _ => {}) k (if c.st = .running ∧ (c.buf ≠ [] ∨ d.dmaReadOut k = true) then
        { c with stop := 3, flags := 0, ecode := 0, fail := none } else {})) [] }

/-- A channel still writes elements that were in flight when DMA was reset (R656). -/
def Device.dmaDrains (d : Device) : Bool := (List.range 16).any (fun k => decide ((d.dmaC k).stop = 3))

/-- The channel that runs. -/
def Device.dmaRunning (d : Device) : Option Nat := (List.range 16).find? (fun k => decide ((d.dmaC k).st = .running))

/-- The PENDING channel the engine starts next (R645). -/
def Device.dmaNext (d : Device) : Option Nat :=
  let p := (List.range 16).filter (fun k => decide ((d.dmaC k).st = .pending))
  p.foldl (fun b k =>
    match b with
    | none => some k
    | some j => if wf (d.dmaC j).cfg 9 8 < wf (d.dmaC k).cfg 9 8 then some k else some j) none

/-- A stop, an abort or a unit reset that waited for the element boundary (R649, R655, R656). -/
def Device.dmaStopped (d : Device) (k : Nat) : Device :=
  match (d.dmaC k).stop with
  | 0 => d
  | 3 => d.setDma k {}
  | 1 => d.setDma k { d.dmaC k with st := .idle, runLeft := 0, stop := 0, ecode := 5 }
  | _ => (d.setDma k { d.dmaC k with st := .idle, runLeft := 0, stop := 0, ecode := 6 }).dmaFlag k 0x20

/-- No element of channel `k` is in flight: an element boundary (R649). -/
def Device.dmaBoundary (d : Device) (k : Nat) : Bool := (d.dmaC k).buf.isEmpty && !d.dmaReadOut k

/-- The working addresses of a channel behind one element (R648). -/
def DmaCh.moved (c : DmaCh) : DmaCh :=
  { c with
    csrc := if wb c.cfg 2 then c.csrc + wd (esize c.cfg) else c.csrc,
    cdst := if wb c.cfg 3 then c.cdst + wd (esize c.cfg) else c.cdst }

/-- The oldest element of channel `k` has been written: addresses, counts, the end of the run, DONE (R646, R648, R652), then
a stop that waited for the element boundary, then a trigger of the tick (R647). A channel that a unit reset has made IDLE
meanwhile has no flag set (R656). -/
def Device.dmaAdvance (d : Device) (k : Nat) : Device :=
  if (d.dmaC k).st ≠ .running then d
  else if (d.dmaC k).fail.isSome then d.setDma k (d.dmaC k).moved
  else if (d.dmaC k).stop = 3 then
    let d := d.setDma k (d.dmaC k).moved
    if d.dmaBoundary k then d.dmaStopped k else d
  else
  let ends := decide ((d.dmaC k).runLeft ≤ 1) || (decide ((d.dmaC k).stop ≠ 0) && d.dmaBoundary k)
  let (d, trig) := if ends then d.dmaTakeBack k else (d, false)
  let c := d.dmaC k
  let rem := c.rem - 1
  let left := c.runLeft - 1
  let c' := { c.moved with
    rem := rem, runLeft := left,
    st := if rem = 0 then .idle else if left = 0 then .armed else .running }
  let d := d.setDma k c'
  let d := if rem = 0 then (d.dmaFlag k 0x10).raiseEvent (200 + k / 2) else d
  let d := if ends then d.dmaStopped k else d
  if trig then d.dmaTrigger k else d

/-- Channel `k` has stopped with the error of an element (R653): DMA_CSRC, DMA_CDST and REM show that element. -/
def Device.dmaFailed (d : Device) (k : Nat) : Device :=
  match (d.dmaC k).fail with
  | some (code, src, dst, rem) =>
    let d := (d.dmaTakeBack k).1
    (d.setDma k { d.dmaC k with
      st := .idle, runLeft := 0, stop := 0, ecode := code, csrc := src, cdst := dst, rem := rem, fail := none }).dmaFlag k 0x20
  | none => d

/-- The oldest element in flight of channel `k` has failed with error code `code` (R653): it is not written, and the channel stops once
the elements in flight behind it are complete. One of those that fails as well, and any in a reset of DMA, leaves no further trace. -/
def Device.dmaError (d : Device) (k code : Nat) : Device :=
  let c := d.dmaC k
  if c.stop = 3 then
    let d := d.setDma k c.moved
    if d.dmaBoundary k then d.dmaStopped k else d
  else
    let f := match c.fail with | some f => f | none => (code, c.csrc, c.cdst, c.rem)
    let d := d.setDma k { c.moved with fail := some f }
    if d.dmaBoundary k then d.dmaFailed k else d

/-- A write at offset `o` of the DMA block that does more than store. -/
def Device.dmaWrite (d : Device) (o : Nat) (v : Word) : Option Device :=
  if o < 0x100 ∨ 0x300 ≤ o then none
  else
    let k := (o - 0x100) / 0x20
    match o % 0x20 with
    | 0x10 => some (if wb v 1 then d.dmaStop k else if wb v 0 then d.dmaStart k else d)
    | 0x14 => some (d.dmaStatWrite k v)
    | _ => none

/-- The state code of R640. -/
def dmaCode : DmaSt → Nat
  | .idle => 0 | .armed => 1 | .pending => 2 | .running => 3

/-- A read at offset `o` of the DMA block. -/
def Device.dmaRead (d : Device) (o : Nat) : Option Word :=
  if o = 0 then some (match d.dmaRunning with | some k => wd (k + 0x100) | none => 0)
  else if o = 4 then some (wd (bitsFrom 16 (fun k => decide ((d.dmaC k).st = .pending))))
  else if o = 8 then some (wd (bitsFrom 16 (fun k => decide ((d.dmaC k).st ≠ .idle))))
  else if o < 0x100 ∨ 0x300 ≤ o then none
  else
    let c := d.dmaC ((o - 0x100) / 0x20)
    match o % 0x20 with
    | 0x14 => some (wd (dmaCode c.st + 0x100 * c.ecode + 0x10000 * c.rem) ||| c.flags)
    | 0x18 => some c.csrc
    | 0x1C => some c.cdst
    | _ => none

/-- With no channel RUNNING, the engine starts the PENDING channel of R645. -/
def execDmaRunStart (s : State) : Host.Outcome State Fault Refusal :=
  s.run (fun d =>
    match d.dmaRunning, d.dmaNext with
    | none, some k => d.setDma k { d.dmaC k with st := .running }
    | _, _ => d)

end Sys2Proof.Machine
end

