-- ==== Sys2Proof/Machine/Sns.lean ====
section
/-! DEFINITION. Converters, comparators and calibration (R210 to R235). -/
namespace Sys2Proof.Machine

/-- SNS_STAT[n]. -/
def aSnsStat (n : Nat) : Nat := bSNS + 0x114 + 0x20 * n

/-- Set bits of SNS_STAT[n] and raise source n + 1 by SNS_IEN (R248). -/
def Device.snsFlag (d : Device) (n : Nat) (bits : Word) : Device :=
  let c := d.snsC n
  (d.setSns n { c with stat := c.stat ||| bits }).flagUp (aSnsStat n) c.stat bits (d.lv (aSnsIen n)) (n + 1)

/-- SNS_CFG[n] in force. -/
def Device.snsCfg (d : Device) (n : Nat) : Word := d.act (aSnsCfg n)
/-- SNS_CMPCTL[n] in force. -/
def Device.snsCmp (d : Device) (n : Nat) : Word := d.act (aSnsCmp n)

/-- The tick at which a running sequence stops being busy (R212). -/
def SnsRun.busyEnd (r : SnsRun) : Nat := r.start + 50 * (r.avg + (if r.alt then 1 else 0))

/-- Converter `n` is busy with a sequence in the present tick (R212, R253). -/
def Device.snsBusy (d : Device) (n : Nat) : Bool :=
  match (d.snsC n).run with
  | some r => decide (d.nowN < r.busyEnd) || !r.mainDone || (r.alt && !r.auxDone)
  | none => false

/-- SNS_OFS[n] and SNS_GAIN[n] at the end of the tick before tick `now` (R221). -/
def SnsCh.coef (c : SnsCh) (now : Nat) : Word × Word := if c.coefAt = now then (c.ofsOld, c.gainOld) else (c.ofs, c.gain)

/-- The coefficients are written in tick `now` (R221). -/
def SnsCh.putCoef (c : SnsCh) (now : Nat) (ofs gain : Word) : SnsCh :=
  let old := c.coef now
  { c with ofs := ofs, gain := gain, coefAt := now, ofsOld := old.1, gainOld := old.2 }

/-- A sample point reaches converter `n` from its selected source (R212, R215, R216, R218, R221, R231). -/
def Device.sample (d : Device) (n : Nat) : Device :=
  let cfg := d.snsCfg n
  if !wb cfg 0 || d.parked then d
  else
    let c := d.snsC n
    if d.snsBusy n then (d.setSns n { c with miss := satInc 16 c.miss }).snsFlag n 2
    else
      let cut := match c.cal with | some k => k.running.isSome | none => false
      let late := match c.calEnd with | some t => decide (d.nowN < t + 14) | none => false
      let k := c.coef d.nowN
      d.setSns n { c with
        run := some { start := d.nowN, avg := 2 ^ wf cfg 9 8, inp := wb cfg 3, alt := wb cfg 4, fmt := wb cfg 5,
                      ofs := k.1, gain := k.2,
                      short := cut || late, vlo := d.pwr.vddalo, auxVlo := false, mainDone := false, auxDone := false },
        cal := c.cal.map (fun k => { k with running := none }) }

/-- A sample point from PWM channel `n`, the router or SNS_SWTRIG is taken when TRIG selects that source (R210). -/
def Device.sampleFrom (d : Device) (n src : Nat) : Device := if wf (d.snsCfg n) 2 1 = src then d.sample n else d

/-- The ideal code of an input voltage `v` (R895): a half is rounded up, and the code is limited to 0 to 4,095. -/
def idealCode (v vref : Nat) : Nat := min 4095 ((2 * 4096 * v + vref) / (2 * vref))

/-- The code of a conversion whose ideal code is `k` by a converter that deviates by `dev` codes (R869). -/
def realCode (k : Nat) (dev : Int) : Nat := (clampI (k + dev) 0 4095).toNat

/-- The code of a hold of the AUX input (`aux`) or of SNSn. -/
def acqCode (aux : Bool) (a : Acq) : Nat := realCode (idealCode (if aux then a.aux else a.sns) a.vref) a.dev

/-- The result arithmetic (R219): the codes' sum `u` = 16 times their mean, the coefficients. -/
def snsArith (u : Nat) (ofs gain : Word) : Nat :=
  let v : Int := (u : Int) - sxI 16 (wf ofs 15 0)
  (clampI (sarI (v * (wf gain 15 0 : Int) + 16384) 15) 0 0xFFFF).toNat

/-- The format of R220. -/
def snsFmt (fmt : Bool) (w : Nat) : Nat := if fmt then w ^^^ 0x8000 else w

/-- The tick in which the last averaged conversion of `r` ends (R213). -/
def SnsRun.endTick (r : SnsRun) : Nat := r.start + 50 * (r.avg - 1) + 36
/-- The tick in which its AUX conversion ends (R214). -/
def SnsRun.auxTick (r : SnsRun) : Nat := r.start + 50 * r.avg + 36

/-- The last averaged conversion of converter `n` ends of the holds `acqs` (R213, R219, R220, R222). -/
def Device.convEnd (d : Device) (n : Nat) (r : SnsRun) (acqs : List Acq) : Device :=
  let u := 16 * (acqs.foldl (fun a c => a + acqCode r.inp c) 0) / r.avg
  let w := snsArith u r.ofs r.gain
  let c := d.snsC n
  let d := d.setSns n { c with
    res := wd (snsFmt r.fmt w) ||| boolW r.vlo 24 ||| boolW r.short 25,
    handed := BitVec.ofNat 16 (w ^^^ 0x8000), handedVlo := r.vlo,
    run := some { r with mainDone := true } }
  ((d.snsFlag n (1 ||| boolW r.vlo 5 ||| boolW r.short 6)).raiseEvent n).triggerBy 0 n

/-- The AUX conversion of converter `n` ends (R214, R222). -/
def Device.auxEnd (d : Device) (n : Nat) (r : SnsRun) (acq : Acq) : Device :=
  let c := d.snsC n
  let d := d.setSns n { c with
    aux := wd (snsFmt r.fmt (snsArith (16 * acqCode true acq) r.ofs r.gain)), run := some { r with auxDone := true } }
  d.snsFlag n (0x10 ||| boolW (r.auxVlo || d.pwr.vddalo) 5)

/-! ### Comparators (R223 to R228) -/

/-- A trip-enabled comparator of channel `n` asserts (R226): a hard trip. A boundary of the tick that has cleared HARD is taken
anew, with HARD set (R284, R297). -/
def Device.cmpTrips (d : Device) (n : Nat) : Device :=
  let d := match d.here.bounds.find? (fun x => decide (x.n = n)) with
    | some x => if wb x.c0.trip 1 && !wb x.c1.trip 1 then (d.boundaryAgain x false).hardStays x else d
    | none => d
  d.hardTrip n

/-- The filtered output of a comparator of channel `n` takes level `b` (R225, R226). -/
def Device.cmpLevel (d : Device) (n : Nat) (high b : Bool) : Device :=
  let c := d.snsC n
  let d := d.setSns n (if high then { c with filtH := b } else { c with filtL := b })
  let d := if b then d.snsFlag n (if high then 4 else 8) else d
  let d := if b && wb (d.snsCmp n) (if high then 2 else 3) then d.cmpTrips n else d
  d.levelsChanged

/-- The comparator is enabled (R228). -/
def Device.cmpEn (d : Device) (n : Nat) (high : Bool) : Bool := wb (d.snsCmp n) (if high then 0 else 1)

/-- The comparator is enabled (R228) and not settling (R227). -/
def Device.cmpLive (d : Device) (n : Nat) (high : Bool) : Bool := d.cmpEn n high && (d.snsC n).settle.isNone

/-- SNS_CMPCTL.HYST in codes (R223). -/
def hystCodes (k : Word) : Nat := match wf k 5 4 with | 0 => 0 | 1 => 8 | 2 => 16 | _ => 32

/-- The raw outputs of CMPH and CMPL, which were `h` and `l`, with input `v`, thresholds `thr` and hysteresis `hy` (R223):
code k lies at k · VREFP ÷ 4,096. -/
def rawOutputs (h l : Bool) (thr : Word) (hy v vref : Nat) : Bool × Bool :=
  let x : Int := v * 4096
  let hi : Int := wf thr 27 16
  let lo : Int := wf thr 11 0
  (if h then !decide (x < (hi - hy) * vref) else decide (hi * vref < x),
   if l then !decide ((lo + hy) * vref < x) else decide (x < lo * vref))

/-- The raw output of a comparator: forced while VDDA is low and the comparator enabled (R872). -/
def Device.cmpRaw (d : Device) (n : Nat) (high : Bool) : Bool :=
  (if high then (d.snsC n).rawH else (d.snsC n).rawL) || (d.pwr.vddaForce && d.cmpEn n high)

/-- Channel `n`'s raw outputs have changed from `h` and `l` to what they are now in this tick: their samples start. -/
def Device.rawMoved (d : Device) (n : Nat) (h l : Bool) : Device :=
  let c := d.snsC n
  d.setSns n { c with
    hAt := if d.cmpRaw n true != h then d.nowN else c.hAt, lAt := if d.cmpRaw n false != l then d.nowN else c.lAt }

/-- The tick from which the filtered output of a comparator has the level of its raw output (R224). -/
def Device.cmpReady (d : Device) (n : Nat) (high : Bool) : Nat :=
  (if high then (d.snsC n).hAt else (d.snsC n).lAt) + (wf (d.snsCmp n) 11 8 - 1)

/-- A live comparator's filtered output differs from its raw output. -/
def Device.cmpWaits (d : Device) (n : Nat) (high : Bool) : Bool :=
  d.cmpLive n high && d.cmpRaw n high != (if high then (d.snsC n).filtH else (d.snsC n).filtL)

/-- The filtered output follows the raw one once the filter's samples up to tick `t` agree (R224). -/
def Device.cmpFollow (d : Device) (n : Nat) (high : Bool) (t : Nat) : Device :=
  if d.cmpWaits n high && decide (d.cmpReady n high ≤ t) then d.cmpLevel n high (d.cmpRaw n high) else d

/-- Both comparators of channel `n` follow, with the sample of the present tick. -/
def Device.cmpBoth (d : Device) (n : Nat) : Device := (d.cmpFollow n true d.nowN).cmpFollow n false d.nowN

/-- Both follow with the samples before the present tick: the one of the tick may still change. -/
def Device.cmpPast (d : Device) (n : Nat) : Device :=
  if d.nowN = 0 then d else (d.cmpFollow n true (d.nowN - 1)).cmpFollow n false (d.nowN - 1)

/-- The raw outputs of channel `n` for the input as it is, by the thresholds in force (R223). -/
def Device.cmpSense (d : Device) (n : Nat) : Device :=
  let c := d.snsC n
  let r := rawOutputs c.rawH c.rawL (d.act (aSnsThr n)) (hystCodes (d.snsCmp n)) c.inV c.inRef
  d.setSns n { c with rawH := r.1, rawL := r.2 }

/-- The input at SNSn moves to `v` (R223). -/
def Device.cmpInput (d : Device) (n v vref : Nat) : Device :=
  ((d.setSns n { d.snsC n with inV := v, inRef := vref }).cmpSense n).rawMoved n (d.cmpRaw n true) (d.cmpRaw n false)

/-- The 20 ticks of settling end (R227): the filtered outputs follow the raw ones, with the filter restarted. -/
def Device.cmpSettled (d : Device) (n : Nat) : Device :=
  (d.setSns n { d.snsC n with settle := none, hAt := d.nowN, lAt := d.nowN }).cmpBoth n

/-! ### Calibration (R229 to R235) -/

/-- A calibration request ends with result `res` (R232 to R234): 1 OK, 2 BUSY, 3 VLOW, 4 RANGE. -/
def Device.calFinish (d : Device) (n res : Nat) : Device :=
  let c := d.snsC n
  (d.setSns n { c with cal := none, stat := putF c.stat 18 16 res }).snsFlag n (0x100 ||| boolW (res ≠ 1) 9)

/-- The first sample point at or after tick `now` of a channel with the parameters of `c` whose boundary in tick `b` starts period
number `p` (R290). -/
def PwmCh.samplesFrom (c : PwmCh) (b p now : Nat) : Option Nat :=
  if decide (c.perN ≠ 0) && wb c.smp 16 && decide (wf c.smp 15 0 < c.units) then
    let ofs := wf c.smp 15 0 * 2 ^ c.pre
    let div := wf c.smp 23 20 + 1
    ((List.range (div + 1)).filterMap (fun j =>
      if (p + j) % div = 0 ∧ now ≤ b + j * c.ticks + ofs then some (b + j * c.ticks + ofs) else none)).head?
  else none

/-- The next sample point of PWM channel `n` at or after the present tick (R230, R290): one of the present period by the values
in force, later ones by those the next boundary takes (R292). -/
def Device.nextSample (d : Device) (n : Nat) : Option Nat :=
  let c := d.pwmC n
  let nx := { c with cfg := d.act (aPwm n 0), per := d.act (aPwm n 1), smp := d.act (aPwm n 5) }
  if !c.en then none
  else
    match c.first with
    | some t => nx.samplesFrom t 0 d.nowN
    | none =>
      match c.sampleOfs with
      | some o => if d.nowN ≤ c.bt + o then some (c.bt + o) else nx.samplesFrom (c.bt + c.ticks) (c.periods + 1) d.nowN
      | none => if c.perN = 0 then none else nx.samplesFrom (c.bt + c.ticks) (c.periods + 1) d.nowN

/-- A calibration step of converter `n` may start in the present tick (R216, R230). -/
def Device.calFree (d : Device) (n : Nat) : Bool :=
  let cfg := d.snsCfg n
  !d.snsBusy n && !d.pwr.vddalo &&
    (d.parked || !wb cfg 0 || decide (wf cfg 2 1 = 3) ||
      (decide (wf cfg 2 1 = 0) &&
        (match d.nextSample n with | some t => decide (d.nowN + 64 ≤ t) | none => true)))

/-- gain of R234 from the sums of 16 ground and 16 reference codes; 0 where no gain in range can result. -/
def calGain (sumG sumR : Nat) : Nat :=
  if sumR ≤ sumG then 0 else (2 * (32768 * 49152) + (sumR - sumG)) / (2 * (sumR - sumG))

/-- The wait of a request expires (R232): it ends with BUSY, but a step that can start in the tick of expiry starts (R82). -/
def Device.calExpire (d : Device) (n : Nat) : Device :=
  match (d.snsC n).cal with
  | some k =>
    if d.calFree n && decide (d.nowN ≤ k.expire) then
      d.setSns n { d.snsC n with cal := some { k with running := some d.nowN } }
    else d.calFinish n 2
  | none => d

/-- The ideal code of a calibration step (R234): the first 16 steps convert the internal ground, the others the internal
reference at three quarters of VREF. -/
def calIdeal (step : Nat) : Nat := if step < 16 then 0 else 3072

/-- A calibration step ends with `code` (R232, R234): after the last one the coefficients are computed. The wait that
restarts takes SNS_CAL_WAIT as it is now; a write while the wait runs acts from the next restart (DESIGN CHOICE, log 78). -/
def Device.calStep (d : Device) (n : Nat) (k : SnsCal) (code : Nat) : Device :=
  let c := d.snsC n
  let g := decide (k.step < 16)
  let sg := k.sumG + (if g then code else 0)
  let sr := k.sumR + (if g then 0 else code)
  if k.step + 1 < 32 then
    d.setSns n { c with
      cal := some { step := k.step + 1, sumG := sg, sumR := sr, running := none,
                    expire := d.nowN + wf (d.lv bSNS) 23 0 },
      calEnd := some d.nowN }
  else
    let gain := calGain sg sr
    let ok := decide (sg ≤ 0x400) && decide (0x7000 ≤ gain) && decide (gain ≤ 0x9000)
    let c := { c with calEnd := some d.nowN }
    let d := d.setSns n (if ok then c.putCoef d.nowN (wd sg) (wd gain) else c)
    d.calFinish n (if ok then 1 else 4)

/-! ### Registers -/

/-- A write at offset `o` of the SNS block that does more than store. -/
def Device.snsWrite (d : Device) (o : Nat) (v : Word) : Option Device :=
  if o = 4 then
    some (forEach (bitsOf v.toNat 32) (fun n d =>
      let c := d.snsC n
      if c.cal.isSome then d else d.setSns n { c with cal := some { expire := d.nowN + wf (d.lv bSNS) 23 0 } }) d)
  else if o = 0xC then some (forEach (bitsOf v.toNat 32) (fun n d => d.sampleFrom n 2) d)
  else if 0x600 ≤ o ∧ o < 0x680 then
    let n := (o - 0x600) / 4
    some (d.setSns n { d.snsC n with miss := wf v 15 0 })
  else if o < 0x100 ∨ 0x500 ≤ o then none
  else
    let n := (o - 0x100) / 0x20
    let c := d.snsC n
    match o % 0x20 with
    | 0x14 => some ((d.setSns n { c with stat := c.stat &&& ~~~ (d.w1c (aSnsStat n) (v &&& 0x37F)) }).flagKept
        (aSnsStat n) v (d.lv (aSnsIen n)) (n + 1))
    | 0x18 => some (d.setSns n (c.putCoef d.nowN (v &&& 0xFFFF) c.gain))
    | 0x1C => some (d.setSns n (c.putCoef d.nowN c.ofs (v &&& 0xFFFF)))
    | _ => none

/-- A read at offset `o` of the SNS block. -/
def Device.snsRead (d : Device) (o : Nat) : Option Word :=
  if o = 8 then some (wd (bitsFrom 32 (fun n => (d.snsC n).cal.isSome)))
  else if o = 0x10 then some (wd (bitsFrom 32 (fun n => (d.snsC n).filtH)))
  else if o = 0x14 then some (wd (bitsFrom 32 (fun n => (d.snsC n).filtL)))
  else if 0x600 ≤ o ∧ o < 0x680 then some (wd (d.snsC ((o - 0x600) / 4)).miss)
  else if o < 0x100 ∨ 0x500 ≤ o then none
  else
    let c := d.snsC ((o - 0x100) / 0x20)
    match o % 0x20 with
    | 0xC => some c.res
    | 0x10 => some c.aux
    | 0x14 => some c.stat
    | 0x18 => some c.ofs
    | 0x1C => some c.gain
    | _ => none

/-! ### The events -/

def execCalStepStart (n : Fin 32) (s : State) : Host.Outcome State Fault Refusal :=
  s.run (fun d =>
    match (d.snsC n).cal with
    | some k =>
      if k.running.isNone && d.calFree n && decide (d.nowN ≤ k.expire) then
        d.setSns n { d.snsC n with cal := some { k with running := some d.nowN } }
      else d
    | none => d)

/-- VDDA's force on the comparators takes level `b` (R872): the raw outputs of the enabled comparators change with it. -/
def Device.vddaForces (d : Device) (b : Bool) : Device :=
  let d1 := { d with pwr := { d.pwr with vddaForce := b } }
  (List.range 32).foldl (fun x n => (x.rawMoved n (d.cmpRaw n true) (d.cmpRaw n false)).cmpBoth n) d1

/-- VDDA falls below 2.50 V: the raw output of every enabled comparator is forced asserted (R872). -/
def execVddaForceTrip (s : State) : Host.Outcome State Fault Refusal := s.run (fun d => d.vddaForces true)

/-- VDDA rises above 2.60 V: the force ends (R872), and the raw outputs are those of the input. -/
def execVddaForceEnd (s : State) : Host.Outcome State Fault Refusal := s.run (fun d => d.vddaForces false)

/-- VDDA falls below its threshold (R134, R222, R233): results in progress are marked, requests end with VLOW. -/
def Device.vddaLow (d : Device) : Device :=
  let d := { d with pwr := { d.pwr with vddalo := true } }
  (List.range 32).foldl (fun d n =>
    let c := d.snsC n
    let d := d.setSns n { c with run := c.run.map (fun r => if r.mainDone then r else { r with vlo := true }) }
    if c.cal.isSome then d.calFinish n 3 else d) d

def execVddaLow (s : State) : Host.Outcome State Fault Refusal :=
  s.run (fun d => d.vddaLow)

/-- VDDA recovers (R134): an AUX conversion that has been held saw VDDALO (R222). -/
def Device.vddaOk (d : Device) : Device :=
  let d := { d with pwr := { d.pwr with vddalo := false } }
  (List.range 32).foldl (fun d n =>
    let c := d.snsC n
    d.setSns n { c with
      run := c.run.map (fun r => if r.mainDone && decide (r.start + 50 * r.avg ≤ d.nowN) then { r with auxVlo := true } else r) }) d

def execVddaRecover (s : State) : Host.Outcome State Fault Refusal :=
  s.run (fun d => if d.pwr.vddaForce then d else if d.pwr.vddalo then d.vddaOk else d)

end Sys2Proof.Machine
end

