-- ==== Sys2Proof/Machine/Router.lean ====
section
/-! DEFINITION. The event router beyond the evaluation of a route: delivery to the destinations, software events,
locks, the swap tick, the unit reset, registers (R387 to R413). -/
namespace Sys2Proof.Machine

/-- Among the delivered outputs `t`, route `r` delivers 1 to destination `i` of kind `k`. -/
def delivers (t : Tab (Option (Nat × Word))) (k i r : Nat) : Bool :=
  match t.get (fun _ => none) r with
  | some (k', m) => decide (k' = k) && m.getLsbD i
  | none => false

/-- The combined input of destination `i` of kind `k` under the delivered outputs `t` (R390). -/
def combined (t : Tab (Option (Nat × Word))) (k i : Nat) : Bool := (List.range 64).any (fun r => delivers t k i r)

/-- The combined input of destination `i` of kind `k` (R390). -/
def Device.destIn (d : Device) (k i : Nat) : Bool := combined d.evr.dl k i

/-- How many destinations a kind has (R391). -/
def destCount (k : Nat) : Nat :=
  match k with
  | 1 => 32 | 2 => 32 | 3 => 32 | 4 => 8 | 5 => 16 | 6 => 8 | 7 => 8 | _ => 0

/-- What a rising edge of the combined input does at destination `i` of kind `k` (R391); the soft-trip request acts
while the input is 1, and so at its rise. -/
def Device.destRise (d : Device) (k i : Nat) : Device :=
  match k with
  | 1 => d.sampleFrom i 1
  | 2 => d.routerTrigger i
  | 3 => d.softTrip i
  | 4 => d.loadAll i
  | 5 => d.dmaTrigger i
  | _ => d

/-- The interrupt outputs follow their combined inputs (R391, R556). -/
def Device.refreshIrqOut (d : Device) : Device :=
  d.levelInputs (BitVec.ofNat 8 (bitsFrom 8 (fun k => d.destIn 6 k)))

/-- Store what route `r` delivers. -/
def Device.setDl (d : Device) (r : Nat) (v : Option (Nat × Word)) : Device :=
  { d with evr := { d.evr with dl := d.evr.dl.set (fun _ => none) r v } }

/-- What route `f.route` delivers from `f` on. -/
def Device.putFlight (d : Device) (f : Flight) : Device :=
  match f.out with
  | .fall => d.setDl f.route none
  | .rise =>
    let d := d.setDl f.route (some (f.kind, f.mask))
    { d with evr := { d.evr with roseAt := d.evr.roseAt.set (fun _ => 0) f.route f.tick } }

/-- The fall `f` ends an output of one tick. -/
def Device.endsPulse (d : Device) (f : Flight) : Bool :=
  decide (f.out = .fall) && decide (d.evr.roseAt.get (fun _ => 0) f.route + 1 = f.tick)

/-- Destination `i` of kind `k` acts on a rise in the present tick, once (R390, R411): its combined input was 0 under `old`. -/
def Device.act1 (d : Device) (old : Tab (Option (Nat × Word))) (k i : Nat) : Device :=
  if combined old k i || d.here.acted.elem (k, i) then d
  else (d.note (fun h => { h with acted := (k, i) :: h.acted })).destRise k i

/-- The deliveries `fs` of one tick reach their destinations (R390 to R392): the outputs of all routes change together, and a
destination acts where the combined input was 0 in the tick before. An output of one tick that ends now leaves a gap: another
route's rise one tick later is a second edge (R411; DEDUCED, log 102). -/
def Device.deliver (d : Device) (now : Bool) (fs : List Flight) : Device :=
  let was := match (if now then d.here.dl0 else none) with | some t => t | none => d.evr.dl
  let old := (fs.filter (fun f => d.endsPulse f)).foldl (fun t f => Tab.set (fun _ => none) t f.route none) was
  let d := if now then d.note (fun h => { h with dl0 := some old }) else d
  let d := ((fs.filter (fun f => decide (f.out = .rise))).foldl (fun d f => d.putFlight f)
    ((fs.filter (fun f => decide (f.out = .fall))).foldl (fun d f => d.putFlight f) d)).refreshIrqOut
  (fs.filter (fun f => decide (f.out = .rise))).foldl (fun d f =>
    ((List.range (destCount f.kind)).filter (fun i => f.mask.getLsbD i)).foldl (fun d i => d.act1 old f.kind i) d) d

/-- The destinations of kind `k` lie in the cadence domain (R391). -/
def cadenceKind (k : Nat) : Bool := decide (k = 1) || decide (k = 3) || decide (k = 4) || decide (k = 7)

/-- The tick in which a delivery reaches its destinations (R37, R393): one later in the cadence domain, the same in the
handshake domain. -/
def Flight.due (f : Flight) : Nat := if cadenceKind f.kind then f.tick + 1 else f.tick

/-- The deliveries in flight for which `p` holds reach their destinations. -/
def Device.deliverWhere (d : Device) (now : Bool) (p : Flight → Bool) : Device :=
  ({ d with evr := { d.evr with fly := d.evr.fly.filter (fun f => !p f) } }).deliver now (d.evr.fly.filter p)

/-- The earliest tick in which one of some deliveries is due. -/
def firstDue : List Flight → Option Nat
  | [] => none
  | f :: t => match firstDue t with | some x => some (min f.due x) | none => some f.due

/-- At most `n` times, the deliveries in flight for which `p` holds and that are due first reach their destinations. -/
def Device.deliverSome (d : Device) (p : Flight → Bool) : Nat → Device
  | 0 => d
  | n + 1 =>
    match firstDue (d.evr.fly.filter p) with
    | some x => (d.deliverWhere (decide (x = d.nowN)) (fun f => p f && decide (f.due = x))).deliverSome p n
    | none => d

/-- The deliveries in flight for which `p` holds reach their destinations, those of one tick together, the earliest first. -/
def Device.deliverAll (d : Device) (p : Flight → Bool) : Device := d.deliverSome p d.evr.fly.length

/-- The deliveries due up to tick `x` reach their destinations. -/
def Device.deliverUpTo (d : Device) (x : Nat) : Device := d.deliverAll (fun f => decide (f.due ≤ x))

/-- What was sent before the present tick reaches its destinations (R406). -/
def Device.deliverOld (d : Device) : Device := d.deliverAll (fun f => decide (f.tick < d.nowN))

/-- The oldest delivery in flight of route `r`, and the others in their order. -/
def popFlight (r : Nat) : List Flight → Option (Flight × List Flight)
  | [] => none
  | f :: t =>
    if f.route = r then some (f, t)
    else match popFlight r t with | some (g, t') => some (g, f :: t') | none => none

/-- EVR_GPFILT.FILTp (R386). -/
def Device.gpFilterN (d : Device) (p : Nat) : Nat := wf (d.act (bEVR + 0x20)) (4 * p + 3) (4 * p)

/-- The tick from which GP pin `p` has the filtered level of its pad (R386). -/
def Device.gpReady (d : Device) (p : Nat) : Nat := d.rst.gpAt.get (fun _ => 0) p + (d.gpFilterN p - 1)

/-- The filtered level of GP pin `p` waits for its samples. -/
def Device.gpWaits (d : Device) (p : Nat) : Bool := d.rst.gpFilt.getLsbD p != d.rst.gpIn.getLsbD p

/-- The filtered level of GP pin `p` follows its pad once the filter's samples up to before tick `t` agree (R386). -/
def Device.gpFollowTo (d : Device) (p t : Nat) : Device :=
  if decide (p < 8) && d.gpWaits p && decide (d.gpReady p < t) then
    (({ d with rst := { d.rst with gpFilt := d.rst.gpFilt ^^^ BitVec.twoPow 8 p } }).note (fun h => { h with
      gpEdge := h.gpEdge ||| BitVec.twoPow 8 p })).levelsChanged
  else d

/-- It follows with the sample of the present tick. -/
def Device.gpFollow (d : Device) (p : Nat) : Device := d.gpFollowTo p (d.nowN + 1)

/-- The pad of GP pin `p` takes `level` (R195, R386): the samples of the filter start anew with a change. -/
def Device.padTakes (d : Device) (p : Nat) (level : Bool) : Device :=
  if d.rst.gpIn.getLsbD p = level then d
  else
    let d := d.gpFollowTo p d.nowN
    ({ d with rst := { d.rst with
      gpIn := d.rst.gpIn ^^^ BitVec.twoPow 24 p,
      gpAt := if p < 8 then d.rst.gpAt.set (fun _ => 0) p d.nowN else d.rst.gpAt } }).gpFollow p

/-- Route `r` is locked (R399). -/
def Device.routeLocked (d : Device) (r : Nat) : Bool := d.evr.lock.getLsbD r

/-- Lock route `r` (R399, R400): its shadow copy takes the active value. -/
def Device.lockRoute (d : Device) (r : Nat) : Device :=
  if d.routeLocked r then d
  else { d.note (fun h => { h with
      locks := h.locks ||| BitVec.twoPow 64 r,
      undo := (aRtCfg r, d.shd (aRtCfg r), .good) :: (aRtMask r, d.shd (aRtMask r), .good) :: h.undo }) with
    evr := { d.evr with lock := d.evr.lock ||| BitVec.twoPow 64 r },
    shadow := (d.shadow.set setReset (aRtCfg r) (d.act (aRtCfg r))).set setReset (aRtMask r) (d.act (aRtMask r)) }

/-- The levels of the software events change to `sw` (R387). -/
def Device.swLevels (d : Device) (sw : BitVec 16) : Device :=
  ({ d with evr := { d.evr with sw := sw } }).levelsChanged

/-- EVR_SWPULSE (R387): a pulse of every named event; under a level that is 1 it has no effect, and a clear of the same
tick comes before it (R413). -/
def Device.swPulse (d : Device) (v : Word) : Device :=
  d.raiseEvents ((bitsOf (wf v 15 0) 16).map (fun k => 224 + k))

/-- A write of EVR_RT_CNT[r] (R20, R389): a rise of the present tick that has been counted is not counted again. -/
def Device.rtCntWrite (d : Device) (r v : Nat) : Device :=
  let made := (d.evr.sig.get (fun _ => {}) r).rises d.nowN
  { d with evr := { d.evr with
      cnt := d.evr.cnt.set (fun _ => 0) r v,
      cntAt := d.evr.cntAt.set (fun _ => 0) r (if made then d.nowN + 1 else d.nowN) } }

/-- A write at offset `o` of the EVR block that does more than store. -/
def Device.evrWrite (d : Device) (o : Nat) (v : Word) : Option Device :=
  if o = 0 then some (forEach (bitsOf v.toNat 32) (fun r d => d.lockRoute r) d)
  else if o = 4 then some (forEach (bitsOf v.toNat 32) (fun r d => d.lockRoute (32 + r)) d)
  else if o = 0x10 then some (d.swLevels (d.evr.sw ||| v.setWidth 16))
  else if o = 0x14 then some (d.swLevels (d.evr.sw &&& ~~~ (v.setWidth 16)))
  else if o = 0x18 then some (d.swPulse v)
  else if 0x100 ≤ o ∧ o < 0x500 ∧ o % 0x10 = 0xC then
    some (d.rtCntWrite ((o - 0x100) / 0x10) (wf v 15 0))
  else none

/-- A read at offset `o` of the EVR block. -/
def Device.evrRead (d : Device) (o : Nat) : Option Word :=
  if o = 0 then some (d.evr.lock.setWidth 32)
  else if o = 4 then some ((d.evr.lock >>> 32).setWidth 32)
  else if o = 0x10 ∨ o = 0x14 then some (d.evr.sw.setWidth 32)
  else if 0x40 ≤ o ∧ o < 0x60 then some (wd (bitsFrom 32 (fun i => d.srcSeen (32 * ((o - 0x40) / 4) + i))))
  else if o = 0x60 then
    some (wd (bitsFrom 8 (fun k => d.destIn 6 k)) ||| wd (0x100 * bitsFrom 8 (fun k => d.destIn 7 k)))
  else if 0x100 ≤ o ∧ o < 0x500 ∧ o % 0x10 = 0xC then some (wd (min 0xFFFF (d.rtCount ((o - 0x100) / 0x10) (d.nowN + 1))))
  else none

/-- A soft-trip input that is 1 requests the trip in each tick (R391): after a swap or a reset it acts anew. -/
def Device.softRefresh (d : Device) : Device :=
  (List.range 32).foldl (fun d i => if d.destIn 3 i && !wb (d.pwmC i).trip 3 then d.softTrip i else d) d

/-! ### Swap and reset (R402 to R406) -/

/-- Whether a swap from `c0` to `c1` leaves SRCA, SRCB, GATE, INVB and MODE as they are (R404). -/
def sameSelect (c0 c1 : Word) : Bool := (c0 &&& 0x33FFFF) == (c1 &&& 0x33FFFF)

/-- Route `r` in the swap tick, with its new configuration in force and old configuration and mask `was` (R403, R404): a kept
selection continues its edge detection, another takes g of the tick as its reference. What a level-mode output of a
changed route stands at, and an edge that EN alone has made, is no rise at its destinations (R405); an output that the old
configuration too has raised in the swap tick, and that has not come yet, is none of the swap's at a destination of both. -/
def Device.swapRoute (d : Device) (was : Word × Word) (chg : Bool) (r : Nat) : Device :=
  let x := d.nowN
  let c0 := was.1
  let cfg := d.rtCfg r
  let old := d.evr.sig.get (fun _ => {}) r
  let t := old.next cfg (fun s => d.srcSeen s) (fun s => d.srcLevel s) x (!sameSelect c0 cfg)
  let made := (wb c0 31 != wb cfg 31) && t.o1 && routeOut cfg t.g0 t.g2
  let stand := routeOut cfg t.g2 t.g2 || made
  let rose := decide (old.tick = x) && !old.o0 && old.o1 && t.o1 && !made && (d.evr.dl.get (fun _ => none) r).isNone
    && decide (wf c0 26 24 = wf cfg 26 24)
  if chg then
    let d := d.setDl r (if stand then
      some (wf cfg 26 24, if rose then d.act (aRtMask r) &&& ~~~ was.2 else d.act (aRtMask r)) else none)
    let d := if made then { d with evr := { d.evr with roseAt := d.evr.roseAt.set (fun _ => 0) r x } } else d
    d.putSig r x t
  else d.putSig r x t

/-- The swap tick of the router (R403 to R406): `old` gives the configuration and mask each route had. What was sent before
the tick reaches its old destinations first; then every route is evaluated in this tick anew; what the changed routes
deliver moves to the new destinations at once, on which a level that stands only because of the swap acts as no edge. -/
def Device.swapRoutes (d : Device) (old : Nat → Word × Word) : Device :=
  let chg := fun r => decide (old r ≠ (d.act (aRtCfg r), d.act (aRtMask r)))
  let ever := (List.range 64).filter (fun r => chg r || d.liveRoutes.elem r)
  let d := ever.foldl (fun d r => d.swapRoute (old r) (chg r) r) d
  (d.note (fun h => { h with dl0 := some d.evr.dl })).refreshIrqOut.softRefresh

/-- A unit reset of the event router (R402): every unlocked route takes its reset value in both copies, undelivered
and delivered outputs of unlocked routes are discarded, the software-event levels are cleared. -/
def Device.evrUnitReset (d : Device) : Device :=
  let free := (List.range 64).filter (fun r => !d.routeLocked r)
  let d := free.foldl (fun d r => { d with
    shadow := (d.shadow.set setReset (aRtCfg r) 0).set setReset (aRtMask r) 0,
    active := (d.active.set setReset (aRtCfg r) 0).set setReset (aRtMask r) 0,
    rw := d.rw.set liveReset (aRtOwn r) 0x100,
    evr := { d.evr with
      sig := d.evr.sig.set (fun _ => {}) r {},
      dl := d.evr.dl.set (fun _ => none) r none, cnt := d.evr.cnt.set (fun _ => 0) r 0 } }) d
  let d := { d with
    shadow := d.shadow.set setReset (bEVR + 0x20) 0, active := d.active.set setReset (bEVR + 0x20) 0,
    evr := { d.evr with sw := 0, fly := d.evr.fly.filter (fun f => d.routeLocked f.route) } }
  d.refreshIrqOut.levelsChanged

end Sys2Proof.Machine
end

