-- ==== Sys2Proof/Machine/Trk.lean ====
section
/-! DEFINITION. The trackers (R236 to R248): counting in four modes, wrap and modulus, direction changes, index
capture. -/
namespace Sys2Proof.Machine

/-- TRK_CFG[n] in force. -/
def Device.trkCfg (d : Device) (n : Nat) : Word := d.act (aTrkCfg n)

/-- TRK_STAT[n]. -/
def aTrkStat (n : Nat) : Nat := bTRK + 0x10C + 0x40 * n

/-- Set bits of TRK_STAT[n] and raise source 97 + n by TRK_IEN (R248). -/
def Device.trkFlag (d : Device) (n : Nat) (bits : Word) : Device :=
  let c := d.trkC n
  (d.setTrk n { c with stat := c.stat ||| bits }).flagUp (aTrkStat n) c.stat bits (d.lv (aTrkIen n)) (97 + n)

/-- What a change of the filtered levels makes: the direction of a count (true backward), an error flag. -/
structure TrkMove where
  count : Option Bool := none
  err : Word := 0
deriving DecidableEq, Repr

/-- The place of (A, B) in the forward cycle 00, 10, 11, 01 of the quadrature mode (R237). -/
def quadPos (a b : Bool) : Nat := if a then (if b then 2 else 1) else if b then 3 else 0

/-- Quadrature counting (R237). -/
def quadMove (a b la lb : Bool) : TrkMove :=
  if a != la && b != lb then { err := 2 }
  else if a != la || b != lb then { count := some (decide ((quadPos la lb + 4 - quadPos a b) % 4 = 3)) }
  else {}

/-- The Hall state (W, V, U) of the levels A, B, Z = U, V, W (R237). -/
def hallState (a b z : Bool) : Nat := (if a then 1 else 0) + (if b then 2 else 0) + (if z then 4 else 0)

/-- The place of a valid Hall state in the forward cycle 001, 011, 010, 110, 100, 101 (R237). -/
def hallPos (s : Nat) : Nat :=
  match s with | 1 => 0 | 3 => 1 | 2 => 2 | 6 => 3 | 4 => 4 | _ => 5

/-- A Hall state other than 000 and 111. -/
def hallValid (s : Nat) : Bool := decide (1 ≤ s) && decide (s ≤ 6)

/-- Hall counting from the reference `ref` (0: no valid state seen yet) to the state `s` (R237). -/
def hallMove (ref s : Nat) : TrkMove :=
  if !hallValid s then { err := 4 }
  else if ref = 0 ∨ ref = s then {}
  else
    match (hallPos s + 6 - hallPos ref) % 6 with
    | 1 => { count := some false }
    | 5 => { count := some true }
    | _ => { err := 4 }

/-- Step/direction counting: a rising edge of A, by B as it stood before (R237). -/
def stepMove (a b la : Bool) : TrkMove := if !a && la then { count := some b } else {}

/-- The count after one step: forward or backward, with the modulus (R239); whether it wrapped. -/
def trkNext (pos : Word) (m : Nat) (back : Bool) : Word × Bool :=
  if m = 0 then
    (if back then pos - 1 else pos + 1, if back then decide (pos = 0x80000000) else decide (pos = 0x7FFFFFFF))
  else if back then (if pos.toNat = 0 ∨ m < pos.toNat then (wd (m - 1), true) else (pos - 1, false))
  else if m ≤ pos.toNat + 1 then (0, true) else (pos + 1, false)

/-- What tracker `n` did in the present tick so far, with what it held before. -/
def Device.trkHere (d : Device) (n : Nat) : TrkTick :=
  let c := d.trkC n
  if c.did.tick = d.nowN then c.did
  else { tick := d.nowN, pos := c.pos, prev := c.prev, edgeTs := c.edgeTs, stat := c.stat,
         irq := d.intc.pend.getLsbD (97 + n) }

/-- The flags of tracker `n` are `stat` and no others: those of `c` that it had besides are taken back, and the request they alone
have made in the present tick. -/
def Device.trkStat (d : Device) (n : Nat) (t : TrkTick) (stat : Word) : Device :=
  let c := d.trkC n
  let gone := c.stat &&& ~~~ stat &&& 0x3F
  let d := d.setTrk n { c with stat := stat }
  if gone = 0 then d
  else d.flagDown (aTrkStat n) gone (97 + n) (t.irq || (stat &&& ~~~ t.stat &&& d.lv (aTrkIen n)) != 0)

/-- A count of tracker `n` is accepted (R239, R240, R241); the direction-change event is raised by the caller. -/
def Device.trkCount (d : Device) (n : Nat) (back : Bool) : Device :=
  let c := d.trkC n
  let nx := trkNext c.pos (d.act (aTrkMod n)).toNat back
  let chg := match c.prev with | some p => p != back | none => false
  let d := d.setTrk n { c with
    pos := nx.1, prev := some back, edgeTs := d.time.now, stat := setB c.stat 8 back,
    did := { (d.trkHere n) with count := some back } }
  d.trkFlag n (boolW nx.2 3 ||| boolW chg 4)

/-- An error of the counting (R237): its flag and the count QERR/HERR of TRK_ERRCNT. -/
def Device.trkErr (d : Device) (n : Nat) (bits : Word) : Device :=
  if bits = 0 then d
  else (d.setTrk n { d.trkC n with errQ := satInc 16 (d.trkC n).errQ }).trkFlag n bits

/-- The Z edge that ZQUAL selects (R243); in step/direction mode the A and B conditions are ignored. -/
def isIndex (cfg : Word) (z la lb lz : Bool) : Bool :=
  let q := wf cfg 11 10
  let edge := if q < 2 then !z && lz else z && !lz
  edge && (q % 2 == 0 || wf cfg 2 1 == 2 || (la && lb))

/-- An index of tracker `n` (R244, R245). -/
def Device.trkIndex (d : Device) (n : Nat) : Device :=
  let cfg := d.trkCfg n
  let c := d.trkC n
  let d :=
    if wb c.stat 0 && !wb cfg 9 then
      (d.setTrk n { c with errI := satInc 16 c.errI, did := { (d.trkHere n) with index := true } }).trkFlag n 0x20
    else (d.setTrk n { c with
      idxPos := c.pos, idxTs := d.time.now, did := { (d.trkHere n) with index := true, idx := true } }).trkFlag n 1
  if wb cfg 8 then d.setTrk n { d.trkC n with pos := 0 } else d

/-- The filtered levels of tracker `n` take the values `la`, `lb`, `lz` in one tick (R236 to R245). With EN = 0 the
count and the captures are frozen and the levels alone follow (R252); the last valid Hall state is the reference, also one
seen while EN was 0, and stays it through a state 000 or 111 (DESIGN CHOICE, log 55). In a tick in which a swap changes the
mode nothing is counted (R247). -/
def Device.trkStep (d : Device) (n : Nat) (la lb lz : Bool) : Device :=
  let cfg := d.trkCfg n
  let c := d.trkC n
  let s := hallState la lb lz
  let moved := c.a != la || c.b != lb || c.z != lz
  let d := d.setTrk n { c with a := la, b := lb, z := lz, hall := if hallValid s then s else c.hall }
  if !wb cfg 0 || !moved then d
  else
    let m : TrkMove :=
      if c.refAt = some d.nowN then {} else
      match wf cfg 2 1 with
      | 0 => quadMove c.a c.b la lb
      | 1 => hallMove c.hall s
      | 2 => stepMove c.a c.b la
      | _ => {}
    let d := d.trkErr n m.err
    let dir := m.count.map (fun b => b != wb cfg 3)
    let d := match dir with | some b => d.trkCount n b | none => d
    let rev := match dir, c.prev with | some b, some p => b != p | _, _ => false
    let idx := (wf cfg 2 1 != 1) && isIndex cfg c.z la lb lz
    let d := if idx then d.trkIndex n else d
    d.raiseEvents ((if rev then [144 + n] else []) ++ (if idx then [128 + n] else []))

/-- The count of tracker `n` of the present tick is taken back; an index of the tick stands, with the count as it then is. -/
def Device.trkUncount (d : Device) (n : Nat) (t : TrkTick) (clr : Bool) : Device :=
  let c := d.trkC n
  let d := d.setTrk n { c with
    pos := if t.index && clr then 0 else t.pos, prev := t.prev, edgeTs := t.edgeTs,
    idxPos := if t.idx then t.pos else c.idxPos, did := { t with count := none } }
  (d.trkStat n t (if t.index then t.stat ||| (c.stat &&& 0x21) else t.stat)).note
    (fun h => { h with pulses := h.pulses.filter (fun e => e != 144 + n) })

/-- A swap changes the mode of tracker `n` (R247): the present levels are the reference, and a count of the swap tick, which the
old configuration `cfg` made, is taken back; a QERR or HERR of it stands (DESIGN CHOICE, log 55). -/
def Device.trkRef (d : Device) (n : Nat) (cfg : Word) : Device :=
  let t := d.trkHere n
  let d := if t.count.isSome then d.trkUncount n t (wb cfg 8) else d
  let c := d.trkC n
  let s := hallState c.a c.b c.z
  d.setTrk n { c with hall := if hallValid s then s else 0, refAt := some d.nowN }

/-- A firmware write of TRK_POS[n] (R242, R255): with M > 0 the written number is stored modulo M; a count and an index of
the same tick are applied after it. -/
def Device.trkPosWrite (d : Device) (n : Nat) (v : Word) : Device :=
  let m := (d.act (aTrkMod n)).toNat
  let c := d.trkC n
  let t := d.trkHere n
  let p0 := if m = 0 then v else wd (v.toNat % m)
  let nx := match t.count with | some b => trkNext p0 m b | none => (p0, false)
  let d := d.setTrk n { c with
    pos := if t.index && wb (d.trkCfg n) 8 then 0 else nx.1, idxPos := if t.idx then nx.1 else c.idxPos,
    did := { t with pos := p0 } }
  let d := if t.count.isSome && !nx.2 then d.trkStat n t (setB c.stat 3 (wb t.stat 3)) else d
  if nx.2 then d.trkFlag n 8 else d

/-! ### Pins and filter (R236) -/

/-- The filtered level of input `i` of a tracker: 0 A, 1 B, 2 Z. -/
def TrkCh.level (c : TrkCh) (i : Nat) : Bool := if i = 0 then c.a else if i = 1 then c.b else c.z

/-- The tick in which the filtered level of input `i` takes its pin's level: FILT + 3 ticks after the pin changed (R236). -/
def Device.trkReady (d : Device) (n i : Nat) : Nat :=
  (d.trkC n).pinAt.get (fun _ => 0) i + wf (d.trkCfg n) 6 4 + 3

/-- The filtered level that input `i` has once the changes of `l` have come. -/
def TrkCh.levelAfter (c : TrkCh) (l : List (Nat × Nat × Bool)) (i : Nat) : Bool :=
  match (l.filter (fun x => decide (x.2.1 = i))).getLast? with | some x => x.2.2 | none => c.level i

/-- The inputs of tracker `n` whose filtered level is to become the pin's. -/
def Device.trkWaits (d : Device) (n : Nat) : List Nat :=
  (List.range 3).filter (fun i => (d.trkC n).levelAfter (d.trkC n).due i != (d.trkC n).pins.getLsbD i)

/-- The changes of the filtered levels of tracker `n` that are to come while the pins stay as they are: tick, input, level. -/
def Device.trkChanges (d : Device) (n : Nat) : List (Nat × Nat × Bool) :=
  (d.trkC n).due ++ (d.trkWaits n).map (fun i => (d.trkReady n i, i, (d.trkC n).pins.getLsbD i))

/-- The pin levels of tracker `n` are `p` (A, B, Z in bits 0 to 2) from the present tick on. A level that ends now and lasted for
FILT + 1 samples still reaches the filtered level, FILT + 3 ticks after its start (R236). -/
def Device.trkPins (d : Device) (n : Nat) (p : BitVec 3) : Device :=
  let c := d.trkC n
  let ends := (d.trkWaits n).filter (fun i => p.getLsbD i != c.pins.getLsbD i && decide (d.trkReady n i ≤ d.nowN + 2))
  d.setTrk n { c with
    pins := p,
    due := c.due ++ ends.map (fun i => (d.trkReady n i, i, c.pins.getLsbD i)),
    pinAt := (List.range 3).foldl (fun t i =>
      if p.getLsbD i != c.pins.getLsbD i then t.set (fun _ => 0) i d.nowN else t) c.pinAt }

/-- The tick in which a filtered level of tracker `n` changes next. -/
def Device.trkNextAt (d : Device) (n : Nat) : Option Nat :=
  match (d.trkChanges n).map (fun x => x.1) with | [] => none | t :: l => some (l.foldl min t)

/-- The filtered levels of tracker `n` change as tick `t` asks, all at once (R236, R237). -/
def Device.trkAt (d : Device) (n t : Nat) : Device :=
  let c := d.trkC n
  let l := (d.trkChanges n).filter (fun x => decide (x.1 ≤ t))
  (d.setTrk n { c with due := c.due.filter (fun x => decide (t < x.1)) }).trkStep n
    (c.levelAfter l 0) (c.levelAfter l 1) (c.levelAfter l 2)

/-- At most `k` times, the filtered levels of tracker `n` change as the next tick up to the present one asks. -/
def Device.trkUpTo (d : Device) (n : Nat) : Nat → Device
  | 0 => d
  | k + 1 =>
    match d.trkNextAt n with
    | some t => if t ≤ d.nowN then (d.trkAt n t).trkUpTo n k else d
    | none => d

/-- The filtered levels of tracker `n` follow the pins up to the present tick (R236). -/
def Device.trkFollow (d : Device) (n : Nat) : Device := d.trkUpTo n (d.trkChanges n).length

/-- A write at offset `o` of the TRK block that does more than store. -/
def Device.trkWrite (d : Device) (o : Nat) (v : Word) : Option Device :=
  if o < 0x100 ∨ 0x500 ≤ o then none
  else
    let n := (o - 0x100) / 0x40
    let c := d.trkC n
    match o % 0x40 with
    | 0x08 => some (d.trkPosWrite n v)
    | 0x0C => some ((d.setTrk n { c with
        stat := c.stat &&& ~~~ (d.w1c (aTrkStat n) (v &&& 0x3F)) }).flagKept (aTrkStat n) v (d.lv (aTrkIen n)) (97 + n))
    | 0x24 => some (d.setTrk n { c with errQ := wf v 15 0, errI := wf v 31 16 })
    | _ => none

/-- A read at offset `o` of the TRK block, the timestamps' pairs apart. -/
def Device.trkRead (d : Device) (o : Nat) : Option Word :=
  if o = 0 then some (wd (bitsFrom 32 (fun i => if i % 2 = 0 then (d.trkC (i / 2)).a else (d.trkC (i / 2)).b)))
  else if o = 4 then some (wd (bitsFrom 16 (fun n => (d.trkC n).z)))
  else if o < 0x100 ∨ 0x500 ≤ o then none
  else
    let c := d.trkC ((o - 0x100) / 0x40)
    match o % 0x40 with
    | 0x08 => some c.pos
    | 0x0C => some c.stat
    | 0x10 => some c.idxPos
    | 0x14 => some (c.idxTs.setWidth 32)
    | 0x18 => some ((c.idxTs >>> 32).setWidth 32)
    | 0x24 => some (wd (c.errQ + 0x10000 * c.errI))
    | _ => none

end Sys2Proof.Machine
end

