-- ==== Sys2Proof/Machine/Swap.lean ====
section
/-! DEFINITION. The configuration sets (R795 to R812): arming, checks, the swap tick in every unit, refusals, the online
program exchange up to the restart of a core. -/
namespace Sys2Proof.Machine

/-! ### The state machine (R799 to R803) -/

/-- SYS_SWAP would ignore a command (R800): ARM and DISCARD outside IDLE, CANCEL in IDLE, codes that name none. -/
def Device.swapIgnores (d : Device) (v : Word) : Bool :=
  match wf v 2 0 with
  | 1 | 3 => decide (d.swap.st ≠ .idle)
  | 2 => decide (d.swap.st = .idle)
  | _ => true

/-- A shadow value has changed (R801): the checks of an armed swap start again. -/
def Device.shadowTouched (d : Device) : Device :=
  if d.swap.st = .idle then d else { d with swap := { d.swap with st := .check, hit := false } }

/-- Store the word `v` in the shadow copy of a register of the sets (R22, R801); the written LE RAM word has valid ECC. What
it held before is kept for a swap of the same tick (R25). -/
def Device.putShadow (d : Device) (a : Nat) (v : Word) : Device :=
  let d := d.note (fun h => { h with
    undo := (a, d.shd a, d.eccOf a) :: h.undo, undoSt := some (if d.swap.st = .ready then .ready else h.undoSt.getD d.swap.st) })
  let d := if blkOf a = bLERAM then d.setEcc a .good else d
  if d.shd a = v then d else ({ d with shadow := d.shadow.set setReset a v }).shadowTouched

/-- The bits of word `i` of a descriptor that are no reserved ones under the state-feedback law (R363). -/
def sfMask (i : Nat) : Word := if i = 10 ∨ i = 11 then 0 else if i = 12 then 0x20 else 0xFFFFFFFF

/-- The slot and the word of a descriptor at address `a` of the shadow view. -/
def descAt (a : Nat) : Option (Nat × Nat) :=
  let o := a % 0x10000
  if blkOf a = bLERAM ∧ o < 0x800 then some (o / 0x40, o % 0x40 / 4) else none

/-- Store a word in the shadow copy of a register of the sets: a descriptor of the state-feedback law holds 0 in the bits
that R363 reserves (R17). -/
def Device.setShadow (d : Device) (a : Nat) (v : Word) : Device :=
  match descAt a with
  | none => d.putShadow a v
  | some (n, i) =>
    if i = 0 then
      let d := d.putShadow a v
      if wf v 1 0 = 1 then
        [10, 11, 12].foldl (fun d k =>
          let w := d.shd (aDesc n k)
          if w &&& sfMask k = w then d else d.putShadow (aDesc n k) (w &&& sfMask k)) d
      else d
    else d.putShadow a (if wf (d.shd (aDesc n 0)) 1 0 = 1 then v &&& sfMask i else v)

/-- A refusal with the codes found (R805). -/
def Device.swapRefuse (d : Device) (codes : List Nat) : Device :=
  let low := codes.foldl min 15
  ({ d with swap := { d.swap with
    st := .idle, result := 2, reason := low, hit := false,
    reasons := codes.foldl (fun w c => w ||| bitW (16 + c)) 0 } }).raiseIrq 168

/-- The ring time of the present tick reaches `t`, or TBASE_NOW does (R802, R804 code 1). -/
def Device.swapPast (d : Device) (mode : Nat) (t : DWord) : Bool :=
  match mode with
  | 1 => decide (t.toNat ≤ d.nowN)
  | 2 => decide ((t.toNat : Int) ≤ d.link.ringAt d.nowN)
  | _ => false

/-- ARM (R800, R804): SYS_SWAPPT and SYS_SWAPT are read. -/
def Device.swapArm (d : Device) : Device :=
  let pt := d.lv (bSYS + 0x104)
  let t := joinW (d.lv (bSYS + 0x10C)) (d.lv (bSYS + 0x108))
  let d := { d with swap := { d.swap with
    st := .check, mode := wf pt 1 0, stream := wf pt 5 4, at' := t, hit := false, exch := false } }
  if d.swapPast (wf pt 1 0) t then d.swapRefuse [1] else d

/-- The LE RAM marks of one view (shadow, or active under + 0x8000) take those of the other. -/
def Device.leEccCopy (d : Device) (toActive : Bool) : Device :=
  let lo := if toActive then bLERAM else bLERAM + 0x8000
  let dst := if toActive then bLERAM + 0x8000 else bLERAM
  let e := d.mem.ecc
  let kept := Tab.keep (fun k => decide (k < dst) || decide (dst + 0x2000 ≤ k)) e
  let src := Tab.keep (fun k => decide (lo ≤ k) && decide (k < lo + 0x2000)) e
  { d with mem := { d.mem with ecc := src.foldl (fun t x => t.set (fun _ => .good) (x.1 - lo + dst) x.2) kept } }

/-- DISCARD (R798): every active value is copied to its shadow. -/
def Device.swapDiscard (d : Device) : Device := ({ d with shadow := d.active }).leEccCopy false

/-- A command is ignored and REARM is set (R800). -/
def Device.swapRearm (d : Device) : Device :=
  ({ d with swap := { d.swap with rearm := true } }).hwFlag (bSYS + 0x110) 0x40

/-- A write of SYS_SWAP (R799, R800). -/
def Device.swapCmd (d : Device) (v : Word) : Device :=
  match wf v 2 0 with
  | 1 => if d.swap.st = .idle then d.swapArm else d.swapRearm
  | 2 => if d.swap.st = .idle then d else { d with swap := { d.swap with st := .idle, result := 3, hit := false } }
  | 3 => if d.swap.st = .idle then d.swapDiscard else d.swapRearm
  | _ => d

/-! ### Checks (R801, R804, R807) -/

/-- A claim word of RST_CLAIMSTAT[k] (R202): 0 GP, 1 PWMH, 2 PWML. -/
def Device.claimWord (d : Device) (k : Nat) : Word :=
  match k with
  | 0 => (d.rst.claim.setWidth 32) &&& 0xFFFFFF
  | 1 => (d.rst.claim >>> 32).setWidth 32
  | _ => (d.rst.claim >>> 64).setWidth 32

/-- The shadow BANK differs from the active one: the armed swap is an exchange (R808). -/
def Device.swapExch (d : Device) : Bool := wb (d.shd aSwBank) 0 != wb (d.act aSwBank) 0

/-- A request of the incoming set for pins is not met (R804 code 6). -/
def Device.pinMiss (d : Device) : Bool :=
  (List.range 3).any (fun k => d.shd (bSYS + 0x128 + 4 * k) &&& ~~~ (d.claimWord k) != 0)

/-- A command targets the incoming bank, it is idle, or its header is not valid (R700). -/
def Device.bankMiss (d : Device) : Device × Bool :=
  if d.swapExch then
    let b := wf (d.shd aSwBank) 0 0
    if d.flashTargets b || d.mem.idle.getLsbD b then (d, true)
    else
      let r := d.bootHeader 15 b
      (r.1, r.2.isNone)
  else (d, false)

/-- The codes marked "again" of R804 on their live values. -/
def Device.liveCodes (d : Device) : Device × List Nat :=
  let r := d.bankMiss
  let q := d.shd (bSYS + 0x120)
  let park := decide (d.pwr.mode = .park)
  let fw := if 56 ≤ wf q 22 16 ∧ wf q 22 16 ≤ 71 then 0 else d.fuseW (wf q 22 16)
  (r.1,
    (if r.2 then [5] else [])
    ++ (if !park && d.pinMiss then [6] else [])
    ++ (if !park && wb q 9 && d.time.src then [7] else [])
    ++ (if wb q 8 && d.link.addr != BitVec.ofNat 8 (wf q 7 0) then [8] else [])
    ++ (if wb q 10 && fw != d.shd (bSYS + 0x124) then [9] else []))

/-- The shadow words of LE RAM the checks read: words 0, 2 and 3 of the descriptors of the enabled slots. -/
def Device.checkWords (d : Device) : List Nat :=
  d.slotsOn.flatMap (fun n => [aDesc n 0, aDesc n 2, aDesc n 3])

/-- Their ECC (R669, R673): whether one is uncorrectable. -/
def Device.checkEcc (d : Device) : Device × Bool :=
  d.checkWords.foldl (fun s a =>
    match s.1.eccOf a with
    | .good => s
    | .single => ((s.1.setEcc a .good).countCe 5 a, s.2)
    | .bad => (s.1.countUe 5 a 15 0, true)) (d, false)

/-- The checks of the incoming set complete (R801, R804). -/
def Device.checksDone (d : Device) : Device :=
  if d.swap.st ≠ .check then d
  else
    let conf := d.setConflict d.shd
    let r := d.liveCodes
    let e := r.1.checkEcc
    let codes := (if conf then [4] else []) ++ r.2 ++ (if e.2 then [10] else [])
    if codes = [] then { e.1 with swap := { e.1.swap with st := .ready, hit := false } } else e.1.swapRefuse codes

def execSetCheckDone (s : State) : Host.Outcome State Fault Refusal := s.run (fun d => d.checksDone)

/-! ### The swap tick in each unit (R796) -/

/-- Converters and comparators (R223, R227, R228): the raw outputs follow the new thresholds; a new threshold or hysteresis
holds the filtered outputs for 20 ticks; a disabled comparator is held deasserted; an enabled one follows its samples. A TRIPH or
TRIPL that is set while the filtered output is asserted makes no hard trip (R226; DESIGN CHOICE, log 94). -/
def Device.swapSns (d : Device) (old : Nat → Word) (n : Nat) : Device :=
  let c := d.snsC n
  let k := d.snsCmp n
  let ok := old (aSnsCmp n)
  let settle := decide (old (aSnsThr n) ≠ d.act (aSnsThr n)) || decide (wf ok 5 4 ≠ wf k 5 4)
  let d := d.setSns n { c with
    settle := if settle then some (d.nowN + 20) else c.settle,
    filtH := c.filtH && wb k 0, filtL := c.filtL && wb k 1 }
  ((d.cmpSense n).rawMoved n (c.rawH || (d.pwr.vddaForce && wb ok 0)) (c.rawL || (d.pwr.vddaForce && wb ok 1))).cmpBoth n

/-- Trackers (R247). -/
def Device.swapTrk (d : Device) (old : Nat → Word) (n : Nat) : Device :=
  if wf (old (aTrkCfg n)) 2 1 ≠ wf (d.trkCfg n) 2 1 then d.trkRef n (old (aTrkCfg n)) else d

/-- Channels (R292): TRIPCFG at once; a boundary of this tick that has been taken is taken with the new values (R296); a
channel whose PER is 0 in force has no boundary to wait for. -/
def Device.swapPwm (d : Device) (old : Nat → Word) (n : Nat) : Device :=
  let c := d.pwmC n
  let moved := decide (old (aPwm n 6) ≠ d.tripCfg n)
  let d := if moved && !c.running then d.toTrip n else d
  match d.here.bounds.find? (fun x => decide (x.n = n)) with
  | some x => d.boundaryAgain x moved
  | none =>
    if c.en && c.first.isNone && decide (c.perN = 0) && decide (wf (d.act (aPwm n 1)) 15 0 ≠ 0) && !d.frozen
    then d.boundary n else d

/-- Whether words `i` to `j` of something at `a` differ between two sets. -/
def wordsDiffer (g h : Nat → Word) (a : Nat → Nat) (i n : Nat) : Bool :=
  (List.range n).any (fun k => g (a (i + k)) != h (a (i + k)))

/-- Slots (R339, R340, R372): what clears, what is marked bump-pending. -/
def Device.swapSlot (d : Device) (old : Nat → Word) (n : Nat) : Device :=
  let c := d.slotC n
  let lawN := wf (d.desc n 0) 1 0
  let same := decide (wf (old (aDesc n 0)) 1 0 = lawN)
  let p := wf (d.desc n 5) 20 16
  let shape := decide (wf (old (aDesc n 0)) 4 2 = wf (d.desc n 0) 4 2) && decide (wf (old (aDesc n 5)) 20 16 = p)
  let clr := !same || (decide (lawN = 1) && !shape)
  let diff := wordsDiffer old d.act (aDesc n) 8 8
    || (decide (lawN = 1) && decide (p < 24) && wordsDiffer old d.act (aPage p) 0 64)
  let bump := wb (d.desc n 12) 5 && same && (decide (lawN ≠ 1) || shape) && diff
  if c.st = .off then d else d.setSlot n { c with clr := c.clr || clr, bump := c.bump || bump }

/-- Arenas (R327): a winner that is no member any more has left its arena. -/
def Device.swapArena (d : Device) (a : Nat) : Device :=
  let w := d.le.win.get (fun _ => 0) a
  if w ≠ 0 ∧ (d.members a).elem (w - 1) = false then
    (d.setSlot (w - 1) { d.slotC (w - 1) with lose := false }).arenaSelect a true (d.act (aArena a))
  else d

/-! ### The online program exchange (R808 to R811) -/

/-- A write of `n` bytes by hardware that is no initiator of R133: none in a region marked idle (R701). -/
def Device.hwWrite (d : Device) (a n v : Nat) : Device :=
  if d.memIdle a then d else (d.killLine (lineOf a) none).physWrite 15 a n v

/-- The handover block (R811). -/
def handAddr : Nat := 0x1007FC00

/-- The locks core `c` holds (R811). -/
def Device.locksOf (d : Device) (c : Nat) : Nat :=
  bitsFrom 32 (fun n => match (d.lockC n).holder with | some h => decide (h.val = c) | none => false)

/-- HOW of core `c` (R811). -/
def Core.how (k : Core) : Nat :=
  match k.st with
  | .running => if k.halted then 3 else 1
  | .asleep => if k.halted then 3 else 2
  | _ => 0

/-- The repetitions of a REP.I not yet run (R810, R838). -/
def Core.repLeft (k : Core) : Nat := match k.rep with | some r => if r.isI then r.left else 0 | none => 0

/-- The repetitions not yet run, of a REP too: a watchpoint halts within one (R838, R843). -/
def Core.repsLeft (k : Core) : Nat := match k.rep with | some r => r.left | none => 0

/-- The record of core `c` in the handover block (R811). -/
def Device.handRecord (d : Device) (c how : Nat) : Device :=
  let k := d.coreC c
  let b := handAddr + 0x20 + 0x20 * c
  let z := fun n => if how = 0 then 0 else n
  let d := d.hwWrite b 8 (z (k.pc.toNat + k.status.toNat * 0x100000000))
  let d := d.hwWrite (b + 8) 8 (z k.repLeft + d.locksOf c * 0x100000000)
  d.hwWrite (b + 16) 8 how

/-- The exchange in the swap tick (R808 to R811): the handover block, RST_ENTRY, the cores that will restart; a core halted by
the service tool has its record, and restarts when it is resumed. It resets no unit: the new program finds the active interrupts in
INTC_ACT with ACTC naming its core, and the forwarded errands in the queue (R809, R812). -/
def Device.exchange (d : Device) (oldB newB : Nat) (entry stack : Word) : Device :=
  let how := fun c => (d.coreC c).how
  let cores := bitsFrom 4 (fun c => decide (how c = 1) || decide (how c = 2))
  let d := (List.range 32).foldl (fun d i => d.hwWrite (handAddr + 8 * i) 8 0) d
  let d := d.hwWrite handAddr 8 (0x00014858 + (oldB + 0x100 * newB + 0x10000 * cores) * 0x100000000)
  let d := d.hwWrite (handAddr + 8) 8 d.nowN
  let d := d.hwWrite (handAddr + 16) 8 d.swap.gen.toNat
  let d := (List.range 4).foldl (fun d c => d.handRecord c (how c)) d
  let d := (List.range 4).foldl (fun d c => d.setLv (aEntry c) entry) d
  let d := d.setLv aBootSel (wd newB)
  (List.range 4).foldl (fun d c => if how c = 0 then d else d.setCore c { d.coreC c with
    hand := some (entry, stack), handed := decide (how c = 3) }) d

/-! ### The swap point (R796, R797, R802 to R805) -/

/-- The swap takes place (R796, R797). -/
def Device.swapNow (d : Device) : Device :=
  let d := d.deliverOld
  let was := d.active
  let old := fun a => d.act a
  let rt := fun r => (d.act (aRtCfg r), d.act (aRtMask r))
  let exch := d.swapExch
  let oldB := wf (d.act aSwBank) 0 0
  let newB := wf (d.shd aSwBank) 0 0
  let d := ({ d with active := d.shadow }).leEccCopy true
  let d := ({ d with swap := { d.swap with
    st := .idle, result := 1, hit := false, exch := exch, gen := d.swap.gen + 1 } }).note (fun h => { h with
      pulses := h.pulses ++ [248], before := some (h.before.getD was) })
  let d := (List.range 32).foldl (fun d n => d.swapSns old n) d
  let d := (List.range 8).foldl (fun d p => d.gpFollow p) d
  let d := (List.range 16).foldl (fun d n => d.swapTrk old n) d
  let d := d.swapRoutes rt
  let d := (List.range 32).foldl (fun d n => d.swapSlot old n) d
  let d := (List.range 8).foldl (fun d a => d.swapArena a) d
  let d := (List.range 32).foldl (fun d n => d.loseSync n) d
  let d := (List.range 32).foldl (fun d n => d.swapPwm old n) d
  let d := d.raiseIrq 167
  if exch then
    match d.bootHeader 15 newB with
    | (d, some (entry, stack)) => d.exchange oldB newB entry stack
    | (d, none) => d
  else d

/-- The swap point with the refusal codes `codes` found there (R803 to R805). -/
def Device.swapPoint (d : Device) (codes : List Nat) : Device :=
  let r := d.liveCodes
  let all := codes ++ r.2
  if all ≠ [] then r.1.swapRefuse all
  else if r.1.swap.st = .ready then r.1.swapNow else r.1

/-- The swap point of the armed swap, in the present tick (R802). -/
def Device.swapDue (d : Device) : Device :=
  let w := d.swap
  let ready := decide (w.st = .ready)
  let late := if ready then [] else [2]
  match w.mode with
  | 0 => if ready then d.swapPoint [] else d
  | 1 => d.swapPoint late
  | 2 => d.swapPoint (late ++ (if d.link.head || d.link.sync then [] else [3]))
  | _ => if w.hit && ready then d.swapPoint [] else d

/-- Store words in the shadow copies, with the ECC state of LE RAM, beside every check. -/
def Device.shadowPut (d : Device) (l : List (Nat × Word × Ecc)) : Device :=
  l.foldl (fun d x =>
    let d := { d with shadow := d.shadow.set setReset x.1 x.2.1 }
    if blkOf x.1 = bLERAM then d.setEcc x.1 x.2.2 else d) d

/-- The device before the shadow writes and the locks of the present tick: a set swap of the tick comes before them (R25,
R409, R816). -/
def Device.unwritten (d : Device) : Device :=
  let h := d.here
  let d := d.shadowPut h.undo
  let back := decide (h.undoSt = some .ready)
  { d with
    swap := { d.swap with st := if back then .ready else d.swap.st, hit := d.swap.hit || (back && h.yard) },
    evr := { d.evr with lock := d.evr.lock &&& ~~~ h.locks } }

/-- The swap point, before the shadow writes and the locks of its tick, which are applied after it; a unit reset of the tick has taken
the writes to its own registers away and leaves the swap due (R206). -/
def Device.swapTick (d : Device) : Device :=
  let h := d.here
  if h.undo = [] ∧ h.undoSt ≠ some .ready then d.swapDue
  else
    let d' := d.unwritten.swapDue
    if d'.swap.st ≠ .idle then d
    else
      let d' := d'.shadowPut (h.undo.map (fun x => (x.1, d.shd x.1, d.eccOf x.1)))
      (bitsOf h.locks.toNat 64).foldl (fun d r => d.lockRoute r) d'

/-- The tick of the armed swap has passed: TBASE_NOW lies beyond SYS_SWAPT (R802; log 106). -/
def Device.swapGone (d : Device) : Bool := decide (d.swap.mode = 1) && decide (d.swap.at'.toNat < d.nowN)

/-- The present tick is the swap tick of the armed swap (R802). -/
def Device.swapNowDue (d : Device) : Bool :=
  let w := d.swap
  match w.mode with
  | 0 => decide (w.st = .ready) || decide (d.here.undoSt = some .ready)
  | 1 => decide (w.at'.toNat = d.nowN)
  | 2 => decide ((d.link.ringTick w.at'.toNat).toNat ≤ d.nowN)
  | _ => w.hit || d.here.yard

/-- The swap of an idle tick (R802). -/
def Device.swapIdle (d : Device) : Device := if d.swap.st = .idle || !d.swapNowDue then d else d.swapTick

/-- A swap that is ready and waits for the yard event of stream `k` has its point (R802). -/
def Swap.yardHit (w : Swap) (k : Nat) : Swap :=
  if w.st = .ready then (if w.mode = 3 then (if w.stream = k then { w with hit := true } else w) else w) else w

/-- The yard event `x` is raised, with EVLATE where its header was complete only after its tick (R749); it is the swap point of
a swap that waits for it (R802). -/
def Device.yardRaise (d : Device) (x : YardEv) : Device :=
  let k := x.k
  let d := d.yardEvent k
  let d := if x.late then d.linkFlag 8 else d
  let w := d.swap
  let d := if w.mode = 3 ∧ w.stream = k ∧ (w.st = .ready ∨ d.here.undoSt = some .ready) then
    d.note (fun h => { h with yard := true }) else d
  { d with swap := w.yardHit k }

/-! ### Registers (R813, R814) -/

/-- SYS_SETSTAT. -/
def Device.setStat (d : Device) : Word :=
  let w := d.swap
  let st := match w.st with | .idle => 0 | .check => 1 | .ready => 2
  let ex := if w.st = .idle then w.exch else d.swapExch
  wd (st + 0x10 * w.result + 0x100 * w.reason) ||| boolW ex 2 ||| boolW w.rearm 6 ||| w.reasons

/-- A write at offset `o` of the set-control registers that does more than store. -/
def Device.swapWrite (d : Device) (o : Nat) (v : Word) : Option Device :=
  if o = 0x100 then some (d.swapCmd v)
  else if o = 0x110 then some { d with swap := { d.swap with rearm := d.swap.rearm && !wb (d.w1c (bSYS + 0x110) v) 6 } }
  else none

/-- A read at offset `o` of the set-control registers. -/
def Device.swapRead (d : Device) (o : Nat) : Option Word :=
  if o = 0x110 then some d.setStat
  else if o = 0x114 then some (d.swap.gen.setWidth 32)
  else none

end Sys2Proof.Machine
end

