-- ==== Sys2Proof/Machine/Rst.lean ====
section
/-! DEFINITION. The reset controller (R161 to R201): what each class of reset keeps, unit, core, warm and cold resets,
boot, Owl's resets. -/
namespace Sys2Proof.Machine

/-! ### What a reset keeps (R176) -/

/-- The bits of a plain register that warm and unit resets keep: WONCE fields with the fields they lock, RST_BOOTSEL,
the backup domain, the debug port but for DBG_CCTL.STEPIRQ (R176, R845, R853). -/
def keptMask (a : Nat) : Nat :=
  if a = bTBASE ∨ a = bPWR then 0x80000003
  else if a = aPwmGctl ∨ a = bFLASH ∨ a = bLINK then 0x80000001
  else if (aOwlCtl ≤ a ∧ a ≤ aOwlEw) ∨ a = aBootSel ∨ (aAttr 0 ≤ a ∧ a ≤ aAttr 7) then 0xFFFFFFFF
  else if (List.range 4).any (fun c => decide (a = aDbgC c 0)) then 0x100
  else if blkOf a = bDBG ∨ backupRegs.elem a then 0xFFFFFFFF
  else 0

/-- The plain registers that `p` selects take their reset values, but for the bits that are kept. -/
def Device.rwReset (d : Device) (p : Nat → Bool) : Device :=
  { d with rw := d.rw.foldl (fun t x =>
      t.set liveReset x.1 (if p x.1 then maskW (wd (keptMask x.1)) (liveReset x.1) x.2 else x.2)) [] }

/-- The registers of both sets that `p` selects take their reset values. -/
def Device.setsReset (d : Device) (p : Nat → Bool) : Device :=
  { d with shadow := Tab.keep (fun a => !p a) d.shadow, active := Tab.keep (fun a => !p a) d.active }

/-- The register belongs to a locked route (R399, R402). -/
def Device.ofLockedRoute (d : Device) (a : Nat) : Bool :=
  let o := a % 0x10000
  decide (blkOf a = bEVR) && decide (0x100 ≤ o) && decide (o < 0x500) && d.routeLocked ((o - 0x100) / 0x10)

/-- The registers of block `b` take their reset values in both copies (R176). -/
def Device.blockReset (d : Device) (b : Nat) : Device :=
  let p := fun a => decide (blkOf a = b) && !d.ofLockedRoute a
  (d.rwReset p).setsReset p

/-! ### Unit resets (R180, R181) -/

/-- Converters and comparators: the inputs and the raw comparator levels stay. -/
def Device.snsReset (d : Device) : Device :=
  { d with sns := (List.range 32).foldl (fun t n =>
      let c := d.snsC n
      t.set (fun _ => {}) n { rawH := c.rawH, rawL := c.rawL, inV := c.inV, inRef := c.inRef }) [] }

/-- Trackers: the pins and the filtered levels stay. -/
def Device.trkReset (d : Device) : Device :=
  { d with trk := (List.range 16).foldl (fun t n =>
      let c := d.trkC n
      t.set (fun _ => {}) n { pins := c.pins, pinAt := c.pinAt, a := c.a, b := c.b, z := c.z }) [] }

/-- The PWM stage: every channel disabled; claimed pins hold their fuse state until enabled again (R181) after a unit
reset. -/
def Device.pwmReset (d : Device) (unit : Bool) : Device :=
  { d with pwm := (List.range 32).foldl (fun t n => t.set (fun _ => {}) n { unitHold := unit }) [] }

/-- The loop engine: every slot OFF, the self-test ended; LE RAM stays (R176, R344). With the running evaluations abandoned,
the outputs that waited for them in PARK take the trip state (R139). -/
def Device.leReset (d : Device) : Device :=
  let d := d.slotsOff
  let d := { d with le := { d.le with bistBusy := false, bistRes := 0, laneFail := 0 } }
  if d.pwr.parkWait then ({ d with pwr := { d.pwr with parkWait := false } }).tripAll else d

/-- The block of a unit of RST_UNIT (R180). -/
def unitBlock (u : Nat) : Nat :=
  match u with
  | 0 => bEVR | 1 => bDMA | 2 => bQUE | 3 => bSHED | 4 => bLOCK | 5 => bSNS | 6 => bTRK | 7 => bPWM | 8 => bLE
  | 9 => bLINK | _ => bOD

/-- The unit of RST_UNIT a block belongs to. -/
def blockUnit (b : Nat) : Option Nat := (List.range 11).find? (fun u => decide (unitBlock u = b))

/-- Interrupt source `s` is a source of unit `u` (R176). -/
def unitSrc (u s : Nat) : Bool :=
  match u with
  | 0 => decide (181 ≤ s) && decide (s ≤ 188)
  | 1 => decide (113 ≤ s) && decide (s ≤ 128)
  | 2 => (decide (129 ≤ s) && decide (s ≤ 160)) || decide (s = 190)
  | 3 => decide (s = 189)
  | 5 => decide (1 ≤ s) && decide (s ≤ 32)
  | 6 => decide (97 ≤ s) && decide (s ≤ 112)
  | 7 => decide (33 ≤ s) && decide (s ≤ 64)
  | 8 => decide (65 ≤ s) && decide (s ≤ 96)
  | 9 => decide (161 ≤ s) && decide (s ≤ 164)
  | 10 => decide (165 ≤ s) && decide (s ≤ 166)
  | _ => false

/-- The state of unit `u` besides its plain registers takes its reset value (R176). -/
def Device.unitState (d : Device) (u : Nat) : Device :=
  match u with
  | 0 => d.evrUnitReset
  | 1 => d.dmaUnitReset
  | 2 => { d with que := [] }
  | 3 => { d with shed := {} }
  | 4 => { d with lock := {} }
  | 5 => d.snsReset.levelsChanged
  | 6 => d.trkReset
  | 7 => d.pwmReset true
  | 8 => d.leReset
  | 9 => d.linkReset
  | _ => { d with od := {} }

/-- What took place in the present tick at unit `u` counts no more: a set swap or a boundary of the tick comes before its
reset (R206). -/
def Same.unitGone (h : Same) (u : Nat) : Same :=
  { h with
    undo := h.undo.filter (fun x => decide (blkOf x.1 ≠ unitBlock u)),
    bounds := if u = 7 then [] else h.bounds,
    trigs := if u = 8 then [] else h.trigs,
    drops := if u = 1 then [] else h.drops }

/-- The unit reset of unit `u` (R176, R180, R181, R206): its pending sources are cleared. -/
def Device.unitReset1 (d : Device) (u : Nat) : Device :=
  let d := ((d.blockReset (unitBlock u)).unitState u).note (fun h => h.unitGone u)
  let d := sources.foldl (fun d s => if unitSrc u s && !isLevelSrc s then d.setPend s false else d) d
  ({ d with rst := { d.rst with unitBusy := d.rst.unitBusy ||| BitVec.twoPow 11 u } }).withdrawCheck d.prio

/-- A write of RST_UNIT (R180): other bits are ignored. -/
def Device.unitResetWrite (d : Device) (v : Word) : Device := (bitsOf v.toNat 11).foldl (fun d u => d.unitReset1 u) d

/-! ### Core resets (R161, R164, R176 to R179, R208) -/

/-- No device reset is in progress: core and unit requests are taken (R164). -/
def Device.resetsTaken (d : Device) : Bool := match d.rst.phase with | .bootRead | .run => true | _ => false

/-- The cause bits of the resets requested in the present stable-oscillator period, if there are any (R163). A period is eight
ticks that begin with a multiple of eight; while TBASE_NOW stands still it lasts until the next idle tick (DESIGN CHOICE,
log 86). -/
def Device.perBits (d : Device) : Option Word :=
  match d.rst.per with | some (k, b) => if k = d.nowN / 8 then some b else none | none => none

/-- The cause bits `bits` are those of a reset requested in the present period: RST_CAUSE shows them (R161, R163). -/
def Device.causeIn (d : Device) (bits : Word) : Device :=
  { d with rst := { d.rst with
      cause := d.rst.cause ||| bits, per := some (d.nowN / 8, d.perBits.getD 0 ||| bits) } }

/-- The device reset in progress was requested in the present period, so that a request made now is one of the same period
(R163). -/
def Device.samePeriod (d : Device) : Bool :=
  match d.rst.phase with
  | .warm => decide (d.rst.warmAt / 8 = d.nowN / 8)
  | .coldHold | .fuseLoaded => d.perBits.isSome
  | _ => false

/-- A request of a lower class than the device reset in progress: of the same period it shows its cause, later it is ignored
(R163, R164). -/
def Device.causeLate (d : Device) (bits : Word) : Device := if d.samePeriod then d.causeIn bits else d

/-- The access that the engine of core `c` has made is no longer its own: it completes, and nothing takes its answer. -/
def Device.engDrop (d : Device) (c : Nat) : Device :=
  ({ d with waits := d.waits.map (fun (w : Wait) => if whoIdx w.who = c then { w with eng := false } else w) }).engDone c

/-- A core that a reset has stopped (R177): nothing that it had begun goes on, and its registers and caches stay. -/
def Core.stopped (k : Core) : Core :=
  { k with st := .inReset, halted := false, stepping := false, haltReq := false, bpSkip := false, rep := none, hand := none, handed := false }

/-- A core reset of core `c` is requested (R177): it stops. The other steps are those of Device.coreReset2: a warm reset of the same
period comes before them (R163, R176). A request for a core in reset is ignored (R208). -/
def Device.coreReset1 (d : Device) (c : Nat) : Device :=
  if !d.resetsTaken then d.causeLate (bitW (16 + c))
  else if (d.coreC c).st = .inReset then d
  else
    let d := (d.causeIn (bitW (16 + c))).hwFlag bRST (bitW (16 + c))
    let d := { d with rst := { d.rst with inrst := d.rst.inrst ||| BitVec.twoPow 4 c } }
    ((d.setCore c (d.coreC c).stopped).engDrop c).owlSync

/-- The core resets of a mask (R163). -/
def Device.coreResets (d : Device) (m : Nat) : Device := (bitsOf m 4).foldl (fun d c => d.coreReset1 c) d

/-- Core `c`, at its reset values, starts at `pc` with g31 = `sp` (R178, R201, R416). -/
def Device.startCore (d : Device) (c : Nat) (pc sp : Word) : Device :=
  (d.setCore c { st := .running, pc := pc, g := if sp = 0 then [] else [(31, sp)] }).startHalt c

/-- g31 of a core that starts out of reset: C0 has STACK of its boot header (R201, R416; log 85). -/
def Device.bootSp (d : Device) (c : Nat) : Word := if c = 0 then d.rst.stack else 0

/-- A core that is not held may start now: not in SLEEP, which only a warm reset ends for it (R159; log 84). -/
def Device.mayStart (d : Device) (c : Nat) : Bool := !d.rst.hold.getLsbD c && decide (d.pwr.mode ≠ .sleep)

/-- The steps of R177 once core `c` has stopped, in their order: its dirty lines are written back; its locks, channels and interrupts are
released (R176); its registers take their reset values. -/
def Device.coreReset2 (d : Device) (c : Nat) : Device :=
  let d := (((d.cachesOut c).lockCoreReset c).dmaCoreReset c).intcCoreReset c
  d.setCore c { st := .inReset }

/-- The sequence of R177 completes, and the core starts or is held (R178). -/
def execCoreResetDone (c : Fin 4) (s : State) : Host.Outcome State Fault Refusal :=
  s.run (fun d =>
    if (d.coreC c).st ≠ .inReset then d
    else
      let d := d.coreReset2 c
      let d := { d with rst := { d.rst with inrst := d.rst.inrst &&& ~~~ (BitVec.twoPow 4 c) } }
      if d.mayStart c then d.startCore c (d.lv (aEntry c)) (d.bootSp c)
      else (d.setCore c { st := .held }).owlSync)

/-- A write of HOLD (R178, R200): a held core whose bit becomes 0 starts at RST_ENTRY. -/
def Device.holdWrite (d : Device) (h : BitVec 4) : Device :=
  let d := { d with rst := { d.rst with hold := h } }
  (List.range 4).foldl (fun d c =>
    if (d.coreC c).st = .held ∧ d.mayStart c = true then d.startCore c (d.lv (aEntry c)) (d.bootSp c) else d) d

/-- A write of RST_CORECTL (R177 to R179, R203): HOLD, then the core resets. -/
def Device.corectlWrite (d : Device) (v : Word) : Device := (d.holdWrite (v.setWidth 4)).coreResets (wf v 11 8)

/-! ### Warm reset (R172 to R176) -/

/-- The handshake units take their reset values (R172, R176): evictions in flight are written first. Locked routes, LE RAM and
what `keptMask` names stay. DESIGN CHOICE (log 87): the cadence compares with their held words, the captured upper words and
the RTC interface registers take their reset values too, and a command the RTC has not yet carried out is dropped. -/
def Device.unitsReset (d : Device) : Device :=
  let d := ((List.range 4).foldl (fun d c => d.evictsOut c) d).linkReset
  let p := fun a => !d.ofLockedRoute a
  let d := (d.rwReset p).setsReset (fun a => p a && decide (blkOf a ≠ bLERAM))
  let d := (((d.snsReset).trkReset).pwmReset false).leReset
  let m := d.mem
  let d := { d with
    core := [], intc := {}, que := [], lock := {}, shed := {}, dma := [], od := {}, swap := {},
    waits := [], fabEng := [],
    flash := { d.flash with key := 0, done := false, err := false, ecode := 0 },
    fuse := { d.fuse with res := 0 },
    time := { d.time with cmp := [], snap := [] },
    rtc := { d.rtc with cmd := none, refused := false, snapTime := 0, snapDate := 0x2000C101, snapTicks := 0 },
    mem := { m with
      sPos := 0, fPos := 0, sAt := d.nowN + 200, fAt := d.nowN + 20000, sPass := 0, fPass := 0, idle := 0, idleClr := 0, bistBusy := false, bistReg := 0,
      bistRes := 0, bistFail := 0 },
    dbg := { d.dbg with
      frz := false, onHalt := false, inForce := d.dbg.shown.isSome, frzAt := d.nowN, core := [], mbusy := none } }
  d.evrUnitReset

/-- The power manager's flags and counters take their reset values; `wake` keeps PWR_WAKESRC (R175, R176). -/
def Device.pwrReset (d : Device) (wake : Bool) : Device :=
  { d with pwr := { d.pwr with
    mode := .run, req := 0, wakeSrc := if wake then d.pwr.wakeSrc else 0, ceilCnt := 0, belowCnt := 0, below := false,
    ceil := false, vmin := false, wokeEarly := false, safeAct := false, parkWait := false, hiRun := 0, loRun := 0,
    underRun := 0, okRun := 0 } }

/-- Every core stops where it stands (R172). -/
def Device.coresStop (d : Device) : Device :=
  (List.range 4).foldl (fun d c => d.setCore c { d.coreC c with st := .held }) d

/-- Owl's count reaches RST_OWL_TO before the present period ends. -/
def Device.owlNear (d : Device) : Bool :=
  d.owlCounts && decide (d.owlTo * owlUnit ≤ d.owlTicks + (7 - d.nowN % 8))

/-- The floor below which the count of the window that ends in the present tick starts an episode with the action RESET (R129, R144). -/
def Device.floorNear (d : Device) : Option Nat :=
  let p := d.pwr
  if d.resetsTaken && decide (p.mode ≠ .sleep) && !p.ramp && !p.episode && decide (3 ≤ p.underRun)
    && decide (wf (d.lv aPwrCtl) 1 0 = 3) && decide (d.nowN % 256 = 0) && decide (p.winAt < d.nowN) then some d.floorCmp else none

/-- What units that a device reset stops now would still have requested in its period (R163). -/
def Device.lateAsks (d : Device) : RstLate :=
  let l : RstLate := if d.samePeriod then d.rst.late else {}
  { owl := l.owl || d.owlNear, floor := l.floor <|> d.floorNear, tool := l.tool || decide (d.dbg.level = 2) }

/-- A warm reset starts with the cause bits `bits` (R172, R174, R682, R893): the rows t = 0; `off` for the one that ends OFF.
With the pins back in fuse custody no swap is pending (R821). -/
def Device.warmStart (d : Device) (bits : Word) (off : Bool) : Device :=
  let ramp := (d.pwr.ramp || decide (d.pwr.mode = .sleep)) && decide (d.pwr.vcode < d.pwr.wake)
  let late := d.lateAsks
  let d := (((d.episodeEnd.mergeFlushAll).flashAbortErase).causeIn bits).owlSync
  let d := { d with
    rst := { d.rst with
      phase := .warm, rstout := false, warmAt := d.nowN, claim := 0, gpOut := 0,
      hold := 0xE, inrst := 0, unitBusy := 0, offWake := off, reset400 := false, reload := false, late := late },
    owl := { d.owl with on := false }, swap := {} }
  let d := ((((d.pwrReset off).coresStop).pwmReset false).leReset).setLv aPaceTgt (wd d.paceTgt0)
  { d with pwr := { d.pwr with ramp := ramp } }

/-- A warm request with cause bits `bits` (R161 to R164): absorbed by a running warm reset; in a cold one it shows its cause
where it comes in the same period. -/
def Device.warmRequest (d : Device) (bits : Word) : Device :=
  match d.rst.phase with
  | .bootRead | .run => d.warmStart bits false
  | .warm => d.causeIn bits
  | .coldHold | .fuseLoaded => d.causeLate bits
  | _ => d

/-! ### Boot (R198 to R201, R698) -/

/-- The bit of a fuse word. -/
def Device.fuseBit (d : Device) (w i : Nat) : Bool := wb (d.fuseW w) i

/-- Both copies of FLASH_SWBANK hold bank `b` (R698). -/
def Device.setBank (d : Device) (b : Nat) : Device :=
  { d with shadow := d.shadow.set setReset aSwBank (wd b), active := d.active.set setReset aSwBank (wd b) }

/-- The boot status: BANK, ALT, FAIL (R202). -/
def bootWord (b : Nat) (alt fail : Bool) : Word := wd b ||| boolW alt 1 ||| boolW fail 2

/-- C0 starts from bank `b` (R201). -/
def Device.bootFrom (d : Device) (b : Nat) (alt : Bool) (entry stack : Word) : Device :=
  let d := (d.setBank b).setLv (aEntry 0) entry
  ({ d with rst := { d.rst with boot := bootWord b alt false, stack := stack } }).startCore 0 entry stack

/-- No header is valid (R200): every core stays held. -/
def Device.bootFail (d : Device) (b : Nat) (alt : Bool) : Device :=
  let d := d.setBank b
  ({ d with rst := { d.rst with boot := bootWord b alt true, hold := 0xF, stack := 0 } }).setCore 0 { st := .held }

/-- C0 reads the boot header of bank `b`, then of the other one where fuse BOOTALT is 1 (R199, R200). -/
def Device.boot (d : Device) (b : Nat) : Device :=
  match d.bootHeader 0 b with
  | (d, some (e, k)) => d.bootFrom b false e k
  | (d, none) =>
    if d.fuseBit 32 1 then
      match d.bootHeader 0 (1 - b) with
      | (d, some (e, k)) => d.bootFrom (1 - b) true e k
      | (d, none) => d.bootFail (1 - b) true
    else d.bootFail b false

/-! ### The end of a device reset (R170, R172, R182, R833) -/

/-- Fuse OWLTO. -/
def Device.owlTo0 (d : Device) : Word := wd (wf (d.fuseW 33) 15 0)

/-- OWLFORCE enables Owl with OWLTO (R182); an enabled Owl starts counting. -/
def Device.owlBoot (d : Device) : Device :=
  (if d.fuseBit 32 2 then (d.setLv aOwlCtl 1).setLv aOwlTo d.owlTo0 else d).owlStart

/-- DBGMODE and DBGMAX as the shadows hold them (R704, R832). -/
def Device.dbgMode (d : Device) : Nat := wf (d.fuseW 48) 1 0
def Device.dbgMax (d : Device) : Nat := match wf (d.fuseW 48) 5 4 with | 0 => 2 | 1 => 1 | _ => 0

/-- The access level at the end of a device reset with `level` held before (R706, R831 to R833). -/
def Device.dbgLevel (d : Device) (level : Nat) : Nat :=
  if d.fuseDbgBad then 0
  else match d.dbgMode with | 0 => d.dbgMax | 3 => 0 | _ => min level d.dbgMax

/-- What both ends of a device reset share: the target, the level, RSTOUT_n's release, Owl, the SAFE latches (R891), what the
locked routes see and request (R391), the boot from bank `b`. -/
def Device.resetEnd (d : Device) (b : Nat) : Device :=
  let d := d.setLv aPaceTgt (wd d.paceTgt0)
  let d := (d.setLevel (d.dbgLevel d.dbg.level)).tapAgain
  let d := { d with rst := { d.rst with phase := .run, rstoutAt := d.nowN + 2000 } }
  (d.owlBoot.safeTrips.levelsChanged.softRefresh).boot b

/-! ### Cold reset (R134, R161 to R164, R169 to R171, R176) -/

/-- Power, flash, fuses and the backup domain through a cold reset that starts with the cause `cause` (R161, R162,
R164, R176): the rest of the device takes its reset values. -/
def Device.coldDevice (d : Device) (cause : Word) : Device :=
  let flash := fun (a : Nat) => decide (a < 0x400000)
  let m := d.mem
  { rtc := { d.rtc with cmd := none, refused := false, snapTime := 0, snapDate := 0x2000C101, snapTicks := 0 },
    pwr := {
      opHours := d.pwr.opHours, lowHour := d.pwr.lowHour, due := d.pwr.due, page0 := d.pwr.page0, page1 := d.pwr.page1,
      ecc0 := d.pwr.ecc0, ecc1 := d.pwr.ecc1, vdd33ok := d.pwr.vdd33ok, vcoreok := false, vddalo := d.pwr.vddalo, vddaForce := d.pwr.vddaForce },
    rst := {
      phase := .coldHold, cause := cause, rstLow := d.rst.rstLow, safeLow := d.rst.safeLow, rstout := false,
      gpIn := d.rst.gpIn, gpFilt := d.rst.gpIn.setWidth 8, gpExt := d.rst.gpExt, gpDrv := d.rst.gpDrv,
      padOut := d.rst.padOut, fuseUp := false, per := some (0, cause), late := d.lateAsks },
    time := { src := true, qual := false },
    sns := d.snsReset.sns, trk := d.trkReset.trk,
    core := [(0, { st := .held })],
    mem := { cells := Tab.keep flash m.cells, ecc := Tab.keep flash m.ecc, undefPage := m.undefPage, undefDw := m.undefDw },
    fuse := { d.fuse with res := 0 },
    rw := Tab.keep (fun a => backupRegs.elem a) d.rw,
    dbg := { ir := d.dbg.ir, cells := d.dbg.cells, level := 0 },
    free := d.free }

/-- A fuse program cut off by a cold reset leaves what a failed one leaves (R708; log 15). -/
def Device.fuseCut (d : Device) : Device :=
  match d.fuse.prog with
  | some (w, _) =>
    ({ d with fuse := { (d.fuseBurn w 0 false) with res := 0 } }).fresh
  | none => d

/-- A cold source with cause bit `bits` (R157, R162 to R164): the causes requested in its period show with it; in a cold reset
it restarts it and the causes are kept. An AGING average that runs is given up (DESIGN CHOICE, log 88). -/
def Device.coldStart (d : Device) (bits : Word) : Device :=
  match d.rst.phase with
  | .unpowered => d
  | .coldHold | .fuseLoaded => ((d.flashCut).fuseCut).coldDevice (d.rst.cause ||| bits)
  | _ => ((d.ledgerCut.episodeEnd.flashCut).fuseCut).coldDevice (bits ||| d.perBits.getD 0)

/-- VDD33 powers up anew (R164, R169, R831): a ledger record that was still due is lost with the supply (DESIGN CHOICE, log 93:
R148 has writes never dropped, R157 speaks of the one being written). -/
def execPowerUp (s : State) : Host.Outcome State Fault Refusal :=
  s.run (fun d =>
    let d := ((d.flashCut).fuseCut).coldDevice 1
    { d with pwr := { d.pwr with vdd33ok := true, due := [] }, dbg := { level := 0 } })

def execBrownOut (s : State) : Host.Outcome State Fault Refusal :=
  s.run (fun d => ({ d with pwr := { d.pwr with vdd33ok := false } }).coldStart 2)

/-- VDD33 rises above 2.95 V (R134). -/
def execBrownOutRelease (s : State) : Host.Outcome State Fault Refusal :=
  s.run (fun d => { d with pwr := { d.pwr with vdd33ok := true } })

/-- VCORE is off in OFF, where its monitor has nothing to report. -/
def Device.vcoreFault (d : Device) : Device := if d.rst.phase = .off then d else d.coldStart 4

def execVcoreLow (s : State) : Host.Outcome State Fault Refusal := s.run (fun d => d.vcoreFault)
def execVcoreHigh (s : State) : Host.Outcome State Fault Refusal := s.run (fun d => d.vcoreFault)

/-- Fuse load in the hold (R169, R705): the fuse shadows, VCORE at code 30, the fields loaded from fuses. -/
def execFuseLoad (s : State) : Host.Outcome State Fault Refusal :=
  s.run (fun d =>
    if d.rst.phase = .coldHold ∧ d.pwr.vdd33ok then
      let d := d.fuseLoadAll
      let d := { d with
        pwr := { d.pwr with vcoreok := true, vcode := 30 },
        time := { d.time with qual := false },
        rst := { d.rst with phase := .fuseLoaded, fuseUp := true, per := none },
        link := { d.link with head := d.fuseBit 34 8, addr := if d.fuseBit 34 8 then 0 else (d.fuseW 34).setWidth 8 } }
      ((d.setLv aBootSel (wd (wf (d.fuseW 32) 0 0))).setLv bTBASE (wd (wf (d.fuseW 32) 5 4))).setLv aOwlTo d.owlTo0
    else d)

/-- The sentinel check at release (R104, R105, R146). -/
def Device.coldSentinel (d : Device) : Device :=
  let lost := decide (d.rtc.sentinel ≠ 0xA5C3)
  let d := d.sentinelCheck
  if lost then { d with pwr := { d.pwr with opHours := d.ledgerHours } } else d

/-- The clock at release (R70). -/
def Device.coldClock (d : Device) : Device :=
  let t := d.time
  if t.qual then { d with time := { t with src := false, pllLock := true, now := 0 } }
  else ({ d with time := { t with src := true, now := 0, stat := 0x100, fbcnt := 1 } }).raiseIrq 192

/-- The release of cold reset (R170): while the header is still to be read (log 5) C0 reads it; in the hold the whole
release runs. The cadence starts anew with it: what took place in the hold counts to no tick of it. -/
def execColdResetRelease (s : State) : Host.Outcome State Fault Refusal :=
  s.run (fun d =>
    match d.rst.phase with
    | .bootRead => d.resetEnd (wf (d.fuseW 32) 0 0)
    | .fuseLoaded =>
      if d.rst.rstLow then d
      else ((({ d.coldSentinel with same := {} }).coldClock).setCore 0 { st := .bootWait }).resetEnd (wf (d.fuseW 32) 0 0)
    | _ => d)

/-! ### OFF (R145, R175) -/

/-- Without VCORE no unit outside the backup domain works (R145, R175): what they held is reset when OFF ends. -/
def Device.offUnits (d : Device) : Device :=
  let d := ((((d.snsReset).trkReset).pwmReset false).leReset).linkReset
  { d with
    core := [], waits := [], fabEng := [], intc := {}, dma := [], que := [], evr := { lock := d.evr.lock }, time := { d.time with cmp := [], snap := [] },
    swap := {}, owl := {}, dbg := { d.dbg with mbusy := none, check := none } }

/-- OFF is entered: VCORE is off and only the retention latches, the backup domain, flash and fuses stay (R145, R175). DESIGN
CHOICE (log 89): the cadence source, TBASE_STAT, TBASE_FBCNT, the ECC counters and the records of SYS, which R176 keeps at the
warm reset that ends OFF, outlast OFF; log 80: a below-floor episode ends with the entry to OFF. -/
def Device.offEnter (d : Device) : Device :=
  let d := (((d.episodeEnd.mergeFlushAll).tripAll).portsDown).offUnits
  { d with rst := { d.rst with phase := .off, claim := 0 }, pwr := { d.pwr with wakeSrc := 0 } }

/-- What does not outlast OFF: SRAM, caches, queue RAM and LE RAM read zero (R145, R175). -/
def Device.offLoses (d : Device) : Device :=
  let flash := fun (a : Nat) => decide (a < 0x400000)
  { d with
    mem := { d.mem with cells := Tab.keep flash d.mem.cells, ecc := Tab.keep flash d.mem.ecc, merge := [] }, core := [],
    shadow := Tab.keep (fun a => decide (blkOf a ≠ bLERAM)) d.shadow,
    active := Tab.keep (fun a => decide (blkOf a ≠ bLERAM)) d.active }

/-- OFF ends through a warm reset with OFF_WAKE and the cause bits `bits` (R145, R161, R175); PWR_VCORE.WAKE reads 0 (R153; DESIGN
CHOICE, log 6). -/
def Device.offEnd (d : Device) (bits src : Word) : Device :=
  let d := { d.offLoses with pwr := { d.pwr with wakeSrc := src, vcode := 30, wake := 0, ramp := false } }
  d.warmStart (bits ||| 0x8000) true

/-- A wake source, RST_n or the link reset command ends OFF (R143, R145, R175); the node acts on the command (R754, R755). -/
def execWakeFromOff (cause : OffWake) (s : State) : Host.Outcome State Fault Refusal :=
  s.run (fun d =>
    if d.rst.phase ≠ .off then d
    else
      let en := fun i => wb (d.lv (bPWR + 0xC) &&& offWakes) i
      match cause with
      | .rtc => if en 0 then d.offEnd 0 1 else d
      | .pin p => if decide (p.val = 0) && en 24 then d.offEnd 0 0x1000000 else d
      | .link =>
        if wb (d.lv bLINK) 0 && !d.link.head && !d.rcHeld then
          ({ d with link := { d.link with rcAt := some d.nowN } }).offEnd 0x800 0
        else d)

/-! ### RST_n, keys, Owl's resets (R166, R168, R173, R183 to R187, R893) -/

def execRstPinLow (s : State) : Host.Outcome State Fault Refusal :=
  s.run (fun d =>
    let d := { d with rst := { d.rst with rstLow := true } }
    if d.rst.phase = .off then d.offEnd 0x100 0 else d.warmRequest 0x100)

/-- The filtered RST_n returns high (R166, R173): a warm reset it held back ends 8 ticks later at the earliest. -/
def execRstPinHigh (s : State) : Host.Outcome State Fault Refusal :=
  s.run (fun d => ({ d with rst := { d.rst with rstLow := false } }).warmLag 2400)

/-- A write of RST_SWRST (R168). -/
def Device.swrstWrite (d : Device) (v : Word) : Device := if v = 0x5A17 then d.warmRequest 0x1000 else d

/-- A write of RST_OWL_KICK (R183 to R185, R187). -/
def Device.owlKick (d : Device) (v : Word) : Device :=
  if !d.owlEn then d
  else if v = 0x3C96 then { d with owl := { d.owl with isOpen := true } }
  else if v = 0xC369 then
    if d.owl.isOpen then
      if d.owlCount < wf (d.lv aOwlWin) 15 0 then d.warmRequest 0x400 else d.owlStart
    else d.warmRequest 0x400
  else d.warmRequest 0x400

/-- A write of RST_OWL_CTL (R182, R889): its first write spends EN, whatever it writes. One that finds EN set by fuse OWLFORCE starts the
count from 0 too (DESIGN CHOICE, log 111). -/
def Device.owlCtlWrite (d : Device) (who : Who) (v : Word) : Device :=
  if d.spent.get (fun _ => false) aOwlCtl then d.lockViolation who aOwlCtl 0
  else
    let d := d.setLv aOwlCtl (v &&& 1)
    let d := { d with spent := d.spent.set (fun _ => false) aOwlCtl true }
    if wb v 0 then d.owlStart else d.owlSync

/-- A write of RST_OWL_TO, WIN or EW (R182, R889): locked while EN is 1. -/
def Device.owlFieldWrite (d : Device) (who : Who) (a : Nat) (v : Word) : Device :=
  if d.owlEn then d.lockViolation who a 1 else d.setLv a (v &&& 0xFFFF)

/-! ### Pins and registers (R191, R196, R202, R203) -/

/-- A write of RST_PINCFG[p] (R191, R209): CLAIM is only ever set. -/
def Device.pincfgWrite (d : Device) (p : Nat) (v : Word) : Device :=
  let d := d.setLv (aPinCfg p) (v &&& 0x7F7)
  if wb v 16 then { d with rst := { d.rst with claim := d.rst.claim ||| BitVec.twoPow 96 p } } else d

/-- The reserved pin numbers of the table: GP is p = 0 to 23, PWMH 32 to 63, PWML 64 to 95. -/
def isPin (p : Nat) : Bool := decide (p < 24) || (decide (32 ≤ p) && decide (p < 96))

/-- A write at offset `o` of the RST block that does more than store. -/
def Device.rstWrite (d : Device) (who : Who) (o : Nat) (v : Word) : Option Device :=
  let r := d.rst
  if o = 0 then some { d with rst := { r with cause := r.cause &&& ~~~ (d.w1c bRST v) } }
  else if o = 4 then some (d.swrstWrite v)
  else if o = 8 then some (d.corectlWrite v)
  else if o = 0x20 then some (d.unitResetWrite v)
  else if o = 0x40 then some (d.owlCtlWrite who v)
  else if 0x44 ≤ o ∧ o < 0x50 ∧ o % 4 = 0 then some (d.owlFieldWrite who (bRST + o) v)
  else if o = 0x50 then some (d.owlKick v)
  else if o = 0x64 then some { d with rst := { r with gpOut := r.gpOut ||| v.setWidth 24 } }
  else if o = 0x68 then some { d with rst := { r with gpOut := r.gpOut &&& ~~~ (v.setWidth 24) } }
  else if 0x200 ≤ o ∧ o < 0x380 then
    some (if isPin ((o - 0x200) / 4) then d.pincfgWrite ((o - 0x200) / 4) v else d)
  else none

/-- A read at offset `o` of the RST block. -/
def Device.rstRead (d : Device) (o : Nat) : Option Word :=
  let r := d.rst
  if o = 0 then some r.cause
  else if o = 8 then some (r.hold.setWidth 32 ||| wd (0x10000 * r.inrst.toNat))
  else if o = 0x24 then some (r.unitBusy.setWidth 32)
  else if o = 0x30 then some r.boot
  else if o = 0x54 then some (wd d.owlCount)
  else if o = 0x60 then some (r.gpIn.setWidth 32)
  else if o = 0x64 ∨ o = 0x68 then some (r.gpOut.setWidth 32)
  else if 0x70 ≤ o ∧ o < 0x7C then some (d.claimWord ((o - 0x70) / 4))
  else if 0x200 ≤ o ∧ o < 0x380 then
    let p := (o - 0x200) / 4
    some (d.lv (aPinCfg p) ||| boolW (r.claim.getLsbD p) 16)
  else none

/-! ### The crystal (R65, R729) -/

/-- The crystal monitor declares the crystal failed (R65): the ports of the link go down (R729). -/
def execCrystalFailure (s : State) : Host.Outcome State Fault Refusal :=
  s.run (fun d => if d.time.src then d.xtalFail else d.xtalFail.portsDown)

end Sys2Proof.Machine
end

