-- ==== Sys2Proof/Machine/CoreRegs.lean ====
section
/-! DEFINITION. The registers of a Genha core (R417 to R426, R458): the banks of general registers, the system
registers. -/
namespace Sys2Proof.Machine

/-- STATUS.MODE, DOM, IE and SB (R424). -/
def Core.sup (k : Core) : Bool := wb k.status 0
def Core.trusted (k : Core) : Bool := wb k.status 1
def Core.ie (k : Core) : Bool := wb k.status 2
def Core.sb (k : Core) : Bool := wb k.status 3

/-- The key of general register `r` in the bank `sb` (R418). -/
def gKey (sb : Bool) (r : Nat) : Nat := if sb && decide (1 ≤ r) && decide (r ≤ 15) then 32 + r else r

/-- General register `r` of bank `sb`; g0 reads 0 (R417, R418). -/
def Core.gOf (k : Core) (sb : Bool) (r : Nat) : Word := if r = 0 then 0 else k.g.get (fun _ => 0) (gKey sb r)
/-- Write general register `r` of bank `sb`; a write to g0 is discarded. -/
def Core.putOf (k : Core) (sb : Bool) (r : Nat) (v : Word) : Core :=
  if r = 0 then k else { k with g := k.g.set (fun _ => 0) (gKey sb r) v }

/-- General register `r` of the selected bank. -/
def Core.reg (k : Core) (r : Nat) : Word := k.gOf k.sb r
/-- Write general register `r` of the selected bank. -/
def Core.put (k : Core) (r : Nat) (v : Word) : Core := k.putOf k.sb r v

/-- Halves of the accumulator (R458). -/
def Core.accLo (k : Core) : Word := k.acc.setWidth 32
def Core.accHi (k : Core) : Word := (k.acc >>> 32).setWidth 32

/-- CORE_ID of core `c` (R415, R424). -/
def coreId (c : Nat) : Word := wd (c + 0x100)

/-- System register `n` of core `c` as MFS reads it (R421, R423). -/
def Core.sysReg (k : Core) (c n : Nat) : Word :=
  match n with
  | 0x000 => k.status | 0x001 => k.estat | 0x002 => k.epc | 0x003 => k.ecause | 0x004 => k.faddr | 0x005 => k.vbase
  | 0x006 => k.tsbp | 0x007 => k.rpc | 0x020 => coreId c | 0x021 => k.accLo | 0x022 => k.accHi | 0x023 => k.accst
  | 0x024 => k.icount.setWidth 32 | 0x025 => k.icountHi | _ => 0

/-- A read of system register `n` of core `c`: ICOUNT_LO captures the upper word (R426). -/
def Device.sysRead (d : Device) (c n : Nat) : Device × Word :=
  let k := d.coreC c
  (if n = 0x024 then d.setCore c { k with icountHi := (k.icount >>> 32).setWidth 32 } else d, k.sysReg c n)

/-- A write of system register `n` by MTS, CACHEOP apart (R421, R424, R425, R428, R458, R512); `dbg` for the service
tool, which may change DOM and SB (R841). -/
def Core.sysPut (k : Core) (n : Nat) (v : Word) (dbg : Bool) : Core :=
  match n with
  | 0x000 => { k with status := maskW (if dbg then 0xF else 5) k.status v }
  | 0x001 => { k with estat := v &&& 0xF }
  | 0x002 => { k with epc := v }
  | 0x005 => if k.trusted || dbg then { k with vbase := (v &&& 0xFFFFFF00) ||| 1 } else k
  | 0x006 => { k with tsbp := v &&& 0xFFFFFFF8 }
  | 0x007 => { k with rpc := v &&& 0x1FF }
  | 0x021 => { k with acc := k.accHi ++ v }
  | 0x022 => { k with acc := v ++ k.accLo }
  | 0x023 => { k with accst := v &&& 0x101 }
  | _ => k

/-- A write of system register `n` of core `c`: a write to CACHEOP acts on the caches (R448). -/
def Device.sysWrite (d : Device) (c n : Nat) (v : Word) (dbg : Bool) : Device :=
  if n = 0x010 then d.cacheOp c v else d.setCore c ((d.coreC c).sysPut n v dbg)

/-- A supervisor number (R419). -/
def supNum (n : Nat) : Bool := !(decide (0x20 ≤ n) && decide (n ≤ 0x3F))

end Sys2Proof.Machine
end

