-- ==== Sys2Proof/Machine/Dbg.lean ====
section
/-! DEFINITION. The debug port (R822 to R860) but for the accesses of the debug master: TAP, levels, authorisation, run
control, FREEZE, the DBG registers. -/
namespace Sys2Proof.Machine

/-! ### The TAP (R822 to R826) -/

/-- IDCODE of stepping A1 (R823). -/
def idcodeWord : Word := 0x140325D3

/-- The instruction register takes `code` (R822). -/
def Device.tapCode (d : Device) (code : BitVec 5) : Device := { d with dbg := { d.dbg with ir := code } }

/-- EXTEST, CLAMP or HIGHZ is loaded: it takes effect at full level only, and acts as BYPASS else (R825). -/
def Device.tapDrives (d : Device) (code : BitVec 5) : Device :=
  let d := d.tapCode code
  if d.dbg.level = 2 then d.tapApply else { d with dbg := { d.dbg with shown := none, bsref := true } }

/-- An instruction that leaves the pins to the device is loaded. -/
def Device.tapLoad (d : Device) (code : BitVec 5) : Device :=
  let d := d.tapCode code
  { d with dbg := { d.dbg with shown := none } }

def execExtest (s : State) : Host.Outcome State Fault Refusal := s.run (fun d => d.tapDrives 0x00)

/-- The preloaded cells: each pin's three bits, output data, output enable, input (R822, R824; log 22). -/
def execSamplePreload (cells : List (Nat × BitVec 3)) (s : State) : Host.Outcome State Fault Refusal :=
  s.run (fun d =>
    let d := d.tapLoad 0x01
    { d with dbg := { d.dbg with cells := cells.foldl (fun t x => t.set (fun _ => 0) x.1 x.2) d.dbg.cells } })

def execIdcode (s : State) : Host.Outcome State Fault Refusal := s.run (fun d => d.tapLoad 0x02)
def execClamp (s : State) : Host.Outcome State Fault Refusal := s.run (fun d => d.tapDrives 0x03)
def execHighz (s : State) : Host.Outcome State Fault Refusal := s.run (fun d => d.tapDrives 0x04)
def execDbgacc (s : State) : Host.Outcome State Fault Refusal := s.run (fun d => d.tapLoad 0x08)
/-- BYPASS with its own code; every code that has no instruction acts as BYPASS too (Device.tapIr, R822). -/
def execBypass (s : State) : Host.Outcome State Fault Refusal := s.run (fun d => d.tapLoad 0x1F)
/-- Test-Logic-Reset loads IDCODE (R822) and clears BSREF (R854); the level stays (R833). -/
def execTapReset (s : State) : Host.Outcome State Fault Refusal :=
  s.run (fun d => let d := d.tapLoad 0x02; { d with dbg := { d.dbg with bsref := false } })

/-- The access before has not completed (R828): a free value where it came in the same tick (log 105). A WAIT that has been captured in
the tick holds for it. -/
def Device.dbgWaits (d : Device) : Bool :=
  decide (d.dbg.accAt = some d.nowN) && (decide (d.dbg.waitAt = some d.nowN) || Config.dbgBusy d.free)

/-- ACK as Capture-DR finds it (R828): WAIT in a tick in which the access before has been found incomplete, else that of the last
completed access. -/
def Device.tapAck (d : Device) : Nat := if d.dbg.waitAt = some d.nowN then 2 else d.dbg.ack

/-- What the selected data register captures (R822, R823, R828): ACK with the data of the last read under DBGACC. What the
boundary register captures under EXTEST and SAMPLE/PRELOAD is Device.boundaryReg (R824). -/
def Device.tapCapture (d : Device) : BitVec 48 :=
  match d.tapIr with
  | .idcode => idcodeWord.setWidth 48
  | .dbgacc => BitVec.ofNat 48 (d.tapAck * 0x100000000 + (if d.tapAck = 1 then d.dbg.data.toNat else 0))
  | _ => 0

/-! ### Levels (R830) -/

/-- The offset is one of DBG_STAT and DBG_AUTH_*. -/
def dbgOpen (o : Nat) : Bool := decide (o < 0x40)
/-- The offset is a register of the memory window. -/
def dbgWindow (o : Nat) : Bool := decide (0x80 ≤ o) && decide (o < 0x90)
/-- A read of the offset is allowed from the level observe. -/
def dbgSeen (o : Nat) : Bool :=
  let i := (o - 0x100) % 0x40 / 4
  (decide (0x40 ≤ o) && decide (o < 0x50) && decide (o ≠ 0x44)) ||
    (decide (0x100 ≤ o) && decide (o < 0x200) && (decide (i = 1) || decide (4 ≤ i)))

/-- The level table of R830 for the registers of the DBG block. -/
def Device.dbgAllowed (d : Device) (o : Nat) (wr : Bool) : Bool :=
  match d.dbg.level with
  | 0 => dbgOpen o
  | 1 => dbgOpen o || dbgWindow o || (!wr && dbgSeen o)
  | _ => true

/-- The outcome of an access of the service tool: ACK OK, or ERROR where the level refuses it (R828, R830). Without
VCORE, and in the hold of a cold reset, nothing answers (log 3). -/
def Device.tool (d : Device) (ok : Bool) (f : Device → Device) : Device :=
  if !d.powered then d
  else if ok then f { d with dbg := { d.dbg with ack := 1 } } else { d with dbg := { d.dbg with ack := 3 } }

/-! ### Authorisation (R831 to R837, R859) -/

/-- The bytes of some words, byte 0 of the first word first. -/
def bytesOf (n : Nat) (f : Nat → Word) : List Byte := (List.range n).flatMap (fun i => wordBytes (f i))

/-- The words written match the hash or the response for level `lv` (R834, R835); in open mode the spec names no
comparison: a free value (log 23). -/
def Device.authMatch (d : Device) (lv : Nat) : Bool :=
  let resp := fun i => d.dbg.resp.get (fun _ => 0) i
  match d.dbgMode with
  | 1 => decide (sha256 (bytesOf 4 resp) = bytesOf 8 (fun i => d.fuseW (56 + i)))
  | 2 =>
    let msg := bytesOf 4 (fun i => d.dbg.chal.get (fun _ => 0) i) ++ bytesOf 2 (fun i => d.fuseW (3 + i)) ++ [BitVec.ofNat 8 lv]
    decide (bytesOf 8 resp = hmac (bytesOf 8 (fun i => d.fuseW (64 + i))) msg)
  | _ => Config.openMatch d.free

/-- The delay after a failed check runs (R837). -/
def Device.authDelayed (d : Device) : Bool :=
  match d.dbg.dlyEnd with | some t => decide (d.nowN < t) | none => false

/-- CHECK is answered at once with this RES, else it runs (R831, R835, R837). -/
def Device.authRefusal (d : Device) : Nat :=
  if d.dbgMode = 3 then 6
  else if d.dbg.locked then 4
  else if d.authDelayed then 3
  else if d.dbgMode = 2 ∧ d.dbg.chv = false then 5
  else 0

/-- CHECK (R834 to R837, R859). -/
def Device.authStart (d : Device) (lv : Nat) : Device :=
  if d.dbg.check.isSome then d
  else if d.authRefusal ≠ 0 then { d with dbg := { d.dbg with res := d.authRefusal } }
  else ({ d with dbg := { d.dbg with check := some (lv, d.authMatch lv) } }).fresh

/-- NEWCHAL (R835): random words are free values (log 10). -/
def Device.newChal (d : Device) : Device :=
  if d.dbgMode = 2 then
    ({ d with dbg := { d.dbg with
      chal := (List.range 4).foldl (fun t i => t.set (fun _ => 0) i (Config.challengeWord (4 * d.free + i))) d.dbg.chal,
      chv := true } }).fresh
  else d

/-- DROP (R833): with it the instructions of R825 act as BYPASS. -/
def Device.authDropNow (d : Device) : Device := d.setLevel 0

/-- The delay after failure `f` in ticks at the nominal rate: 10 ms doubled f − 1 times (R837; log 21). -/
def failDelay (f : Nat) : Nat := 2000000 * 2 ^ (f - 1)

/-- A check succeeds or fails (R836, R837, R852). -/
def Device.authResult (d : Device) (lv : Nat) (ok : Bool) : Device :=
  let g := d.dbg
  if ok then
    let d := ({ d with dbg := { g with check := none, chv := false, fails := 0, res := 1 } }).setLevel
      (if d.fuseDbgBad then 0 else min lv d.dbgMax)
    d.tapAgain.dbgEvt 0
  else
    let f := g.fails + 1
    ({ d with dbg := { g with
      check := none, chv := false, fails := f, res := 2, locked := decide (8 ≤ f),
      dlyEnd := if f < 8 then some (d.nowN + failDelay f) else none } }).dbgEvt 1

def execAuthCheckDone (s : State) : Host.Outcome State Fault Refusal :=
  s.run (fun d => match d.dbg.check with | some (lv, ok) => d.authResult lv ok | none => d)

def execAuthCheck (level : BitVec 2) (s : State) : Host.Outcome State Fault Refusal :=
  s.run (fun d => d.tool true (fun d => d.authStart level.toNat))
def execAuthNewchal (s : State) : Host.Outcome State Fault Refusal := s.run (fun d => d.tool true (fun d => d.newChal))
def execAuthDrop (s : State) : Host.Outcome State Fault Refusal := s.run (fun d => d.tool true (fun d => d.authDropNow))

/-! ### Run control (R838 to R845, R855 to R857, R860) -/

/-- A register block has accepted the access that the engine of core `c` makes: its instruction is under way (R452). -/
def Device.accepted (d : Device) (c : Nat) : Bool :=
  d.waits.any (fun w => w.eng && decide (whoIdx w.who = c)) || (match d.engOf c with | .answered _ _ _ => true | _ => false)

/-- No interrupt, halt or handover is taken here (R492, R493): between a REP and its first repetition, and between the
repetitions of a REP without I. -/
def Core.repBusy (k : Core) : Bool :=
  match k.rep with
  | none => false
  | some r => if r.follower.isNone then !r.resumed else !r.isI

/-- The lowest breakpoint that matches at the boundary before the instruction at the pc of core `c` (R842): not before a
follower under REP, but before one that RFE resumes. -/
def Device.bpAt (d : Device) (c : Nat) : Option Nat :=
  let k := d.coreC c
  let reached := match k.rep with | none => true | some r => r.resumed && r.follower.isNone
  if reached && !k.bpSkip then
    (List.range 4).find? (fun b =>
      let v := d.lv (aDbgC c (4 + b))
      wb v 0 && decide (wf v 31 2 = wf k.pc 31 2) && decide (wf k.pc 1 0 = 0))
  else none

/-- Core `c` halts at breakpoint `b`. -/
def Device.bpHalt (d : Device) (c b : Nat) : Device :=
  (d.setDbgC c { d.dbgC c with bp := b }).haltCore c 3

/-- Core `c` halts with cause `k`; where a breakpoint matches at the same boundary the cause is BKPT (R855). -/
def Device.haltOrBp (d : Device) (c k : Nat) : Device :=
  match d.bpAt c with
  | some b => d.bpHalt c b
  | none => d.haltCore c k

/-- HALT of core `c` (R838, R855, R857): a REP without I completes first, and so does an instruction whose access a register block has
accepted. -/
def Device.haltAsk (d : Device) (c : Nat) : Device :=
  let k := d.coreC c
  if k.halted then d
  else
    match k.st with
    | .asleep => (d.setCore c { k with st := .running }).haltOrBp c 1
    | .running =>
      if k.repBusy || d.accepted c then d.setCore c { k with haltReq := true } else d.haltOrBp c 1
    | _ => d

/-- RESUME of core `c` (R840): the instruction it halted at runs without meeting its breakpoint again. -/
def Device.resumeCore (d : Device) (c : Nat) : Device :=
  let k := d.coreC c
  if k.halted then (d.setCore c { k with halted := false }).owlSync else d

/-- STEP of core `c` (R840). -/
def Device.stepCore (d : Device) (c : Nat) : Device :=
  let k := d.coreC c
  if k.halted then (d.setCore c { k with halted := false, stepping := true }).owlSync else d

/-- A write of DBG_CCTL[c] (R838 to R845, R853). -/
def Device.cctlWrite (d : Device) (c : Nat) (v : Word) : Device :=
  let d := d.setLv (aDbgC c 0) (v &&& 0x300)
  if wb v 3 then d.coreReset1 c
  else if wb v 0 then d.haltAsk c
  else if wb v 1 then d.resumeCore c
  else if wb v 2 then d.stepCore c
  else d

/-- Full level: what R830 asks of run control, FREEZE and DBG_SYSRST. -/
def Device.toolFull (d : Device) (f : Device → Device) : Device := d.tool (decide (d.dbg.level = 2)) f

def execHalt (c : Fin 4) (s : State) : Host.Outcome State Fault Refusal :=
  s.run (fun d => d.toolFull (fun d => d.haltAsk c.val))
def execResume (c : Fin 4) (s : State) : Host.Outcome State Fault Refusal :=
  s.run (fun d => d.toolFull (fun d => d.resumeCore c.val))
def execStep (c : Fin 4) (s : State) : Host.Outcome State Fault Refusal :=
  s.run (fun d => d.toolFull (fun d => d.stepCore c.val))
def execDebugCoreReset (c : Fin 4) (s : State) : Host.Outcome State Fault Refusal :=
  s.run (fun d => d.toolFull (fun d => d.coreReset1 c.val))

/-- A write of DBG_SYSRST (R845). -/
def Device.sysrst (d : Device) (v : Word) : Device := if v = 0xD5E1 then d.warmRequest 0x2000 else d

/-- A system reset of the service tool that comes in the period of a cold reset: it was asked of a device that ran, and shows its cause
(R163). -/
def Device.sysrstLate (d : Device) (v : Word) : Device :=
  if !d.powered && d.samePeriod && d.rst.late.tool && decide (v = 0xD5E1) then d.causeIn 0x2000 else d

def execDebugSystemReset (v : Word) (s : State) : Host.Outcome State Fault Refusal :=
  s.run (fun d => (d.sysrstLate v).toolFull (fun d => d.sysrst v))

/-- Core `c` executes: it is running and not halted; one that is to restart after an exchange first completes its REP
(R810). -/
def Core.live (k : Core) : Bool := decide (k.st = .running) && !k.halted && (k.hand.isNone || k.repBusy)

def execBreakpointHit (c : Fin 4) (s : State) : Host.Outcome State Fault Refusal :=
  s.run (fun d =>
    if (d.coreC c).live then (match d.bpAt c with | some b => d.bpHalt c b | none => d) else d)

/-! ### The core register window (R841) -/

/-- The register that DBG_CREGSEL[c] selects. -/
def Device.cregSel (d : Device) (c : Nat) : Nat := wf (d.lv (aDbgC c 2)) 10 0

/-- A refused access to the window (R841). -/
def Device.cregErr (d : Device) (c : Nat) : Device :=
  (d.setDbgC c { d.dbgC c with rerr := true }).hwFlag (aDbgC c 1) 0x2000

/-- A read of DBG_CREGDATA[c]; a selection that names no register brings a free value (log 27). -/
def Device.cregRead (d : Device) (c : Nat) : Device × Word :=
  let k := d.coreC c
  let s := d.cregSel c
  if k.halted = false then (d.cregErr c, 0)
  else if s < 0x20 then (d, k.reg s)
  else if 0x20 < s ∧ s < 0x30 then (d, k.gOf (!k.sb) (s - 0x20))
  else if s = 0x30 then (d, k.pc)
  else if 0x400 ≤ s then d.sysRead c (s - 0x400)
  else (d.fresh, Config.noValue d.free)

/-- A write of DBG_CREGDATA[c]. -/
def Device.cregWrite (d : Device) (c : Nat) (v : Word) : Device :=
  let k := d.coreC c
  let s := d.cregSel c
  if k.halted = false then d.cregErr c
  else if s < 0x20 then d.setCore c (k.put s v)
  else if 0x20 < s ∧ s < 0x30 then d.setCore c (k.putOf (!k.sb) (s - 0x20) v)
  else if s = 0x30 then
    (if wf v 1 0 = 0 then
      d.engDrop c |>.setCore c { k with pc := v, rep := none, bpSkip := k.bpSkip && decide (v = k.pc) }
     else d)
  else if 0x400 ≤ s then d.sysWrite c (s - 0x400) v true
  else d

/-- Data that the service tool reads. -/
def Device.toolData (r : Device × Word) : Device := { r.1 with dbg := { r.1.dbg with data := r.2 } }

def execCoreRegAccess (c : Fin 4) (wr : Bool) (v : Word) (s : State) : Host.Outcome State Fault Refusal :=
  s.run (fun d => d.toolFull (fun d => if wr then d.cregWrite c.val v else Device.toolData (d.cregRead c.val)))

/-! ### FREEZE (R849 to R851) -/

/-- FRZ written 0 (R851): FREEZE ends, unless an instruction of R826 holds it. -/
def Device.unfreezeNow (d : Device) : Device :=
  let d := { d with dbg := { d.dbg with frz := false } }
  if d.dbg.shown.isSome then d else d.freezeEnd

/-- FRZ written 1 (R849). -/
def Device.freezeNow (d : Device) : Device := ({ d with dbg := { d.dbg with frz := true } }).freezeStart

def execFreeze (s : State) : Host.Outcome State Fault Refusal := s.run (fun d => d.toolFull (fun d => d.freezeNow))
def execUnfreeze (s : State) : Host.Outcome State Fault Refusal := s.run (fun d => d.toolFull (fun d => d.unfreezeNow))

/-- A write of DBG_FREEZE (R849 to R851). -/
def Device.dbgFreezeWrite (d : Device) (v : Word) : Device :=
  let d := { d with dbg := { d.dbg with onHalt := wb v 1 } }
  if wb v 0 then d.freezeNow else d.unfreezeNow

/-! ### The memory window (R846, R848) -/

/-- A read that is a use of its register: it pops, takes, allocates or claims (R540, R830). -/
def readUses (a : Nat) : Bool :=
  let b := blkOf a
  let o := a % 0x10000
  (decide (b = bQUE) && decide (0x100 ≤ o) && decide (o < 0x500) && decide (o % 0x20 = 4))
    || (decide (b = bLOCK) && decide (0x100 ≤ o) && decide (o < 0x300) && decide (o % 0x10 = 0))
    || (decide (b = bSHED) && decide (o = 0))
    || (decide (b = bINTC) && decide (0x10 ≤ o) && decide (o < 0x20))

/-- The register operations that stay operations of a core at every level (R847). -/
def coreOp (wr : Bool) (a : Nat) : Bool :=
  let b := blkOf a
  let o := a % 0x10000
  if wr then (decide (b = bLOCK) && decide (0x100 ≤ o) && decide (o < 0x300) && decide (o % 0x10 = 4))
    || (decide (b = bINTC) && decide (0x20 ≤ o) && decide (o < 0x30) && decide (o % 4 = 0))
  else decide (b ≠ bQUE) && readUses a

/-- A command of DBG_MCMD: 1 READ, 2 WRITE. A size of 3 names no access and is ignored (log 24). A WRITE below full level ends with ERR
LEVEL, but one that is an operation of a core goes on to its domain violation (R847). -/
def Device.mcmd (d : Device) (cmd size : Nat) (inc : Bool) : Device :=
  let g := d.dbg
  if g.mbusy.isSome then ({ d with dbg := { g with movr := true } }).hwFlag (bDBG + 0x8C) 0x100
  else if size = 3 ∨ (cmd ≠ 1 ∧ cmd ≠ 2) then d
  else if cmd = 2 ∧ g.level ≠ 2 ∧ coreOp true g.maddr.toNat = false then { d with dbg := { g with merr := 4 } }
  else ({ d with dbg := { g with merr := 0, mbusy := some (decide (cmd = 2), size, inc, g.maddr, g.mdata) } }).engWait 8

/-- The window is open from the level observe (R830). -/
def Device.toolWindow (d : Device) (f : Device → Device) : Device := d.tool (decide (1 ≤ d.dbg.level)) f

def execDebugMemRead (size : BitVec 2) (inc : Bool) (s : State) : Host.Outcome State Fault Refusal :=
  s.run (fun d => d.toolWindow (fun d => d.mcmd 1 size.toNat inc))
def execDebugMemWrite (size : BitVec 2) (inc : Bool) (s : State) : Host.Outcome State Fault Refusal :=
  s.run (fun d => d.toolWindow (fun d => d.mcmd 2 size.toNat inc))

/-! ### Registers (R853, R854) -/

/-- A write at offset `o` of the DBG block that does more than store. -/
def Device.dbgWrite (d : Device) (o : Nat) (v : Word) : Option Device :=
  let g := d.dbg
  if o = 4 then
    some (match wf v 2 0 with
      | 1 => d.authStart (wf v 5 4) | 2 => d.newChal | 3 => d.authDropNow | _ => d)
  else if 0x20 ≤ o ∧ o < 0x40 then some { d with dbg := { g with resp := g.resp.set (fun _ => 0) ((o - 0x20) / 4) v } }
  else if o = 0x40 then some (d.dbgFreezeWrite v)
  else if o = 0x44 then some (d.sysrst v)
  else if o = 0x48 then
    some (({ d with dbg := { g with evt := g.evt &&& ~~~ (d.w1c (bDBG + 0x48) v &&& 0xF) } }).flagKept (bDBG + 0x48)
      (v &&& 0xF) (d.lv (bDBG + 0x4C)) 191)
  else if o = 0x80 then some { d with dbg := { g with maddr := v } }
  else if o = 0x84 then some { d with dbg := { g with mdata := v } }
  else if o = 0x88 then some (d.mcmd (wf v 1 0) (wf v 5 4) (wb v 8))
  else if o = 0x8C then some { d with dbg := { g with movr := g.movr && !wb (d.w1c (bDBG + 0x8C) v) 8 } }
  else if 0x100 ≤ o ∧ o < 0x200 then
    let c := (o - 0x100) / 0x40
    match o % 0x40 with
    | 0 => some (d.cctlWrite c v)
    | 4 => some (d.setDbgC c { d.dbgC c with rerr := (d.dbgC c).rerr && !wb (d.w1c (aDbgC c 1) v) 13 })
    | 0xC => some (d.cregWrite c v)
    | _ => none
  else none

/-- DBG_CSTAT[c]. -/
def Device.cstat (d : Device) (c : Nat) : Word :=
  let k := d.coreC c
  let x := d.dbgC c
  boolW k.halted 0 ||| wd (0x10 * x.cause + 0x100 * x.bp + 0x1000 * x.wp) ||| boolW x.rerr 13
    ||| wd (0x10000 * (if k.halted then k.repsLeft else 0))

/-- DBG_STAT. -/
def Device.dbgStat (d : Device) : Word :=
  let g := d.dbg
  wd (g.level + 0x10 * d.dbgMode + 0x100 * g.fails) ||| boolW g.locked 12 ||| boolW g.chv 13 ||| boolW g.check.isSome 14
    ||| wd (0x10000 * g.res) ||| boolW g.bsref 20

/-- A read at offset `o` of the DBG block: the state after it and the word. -/
def Device.dbgRead (d : Device) (o : Nat) : Option (Device × Word) :=
  let g := d.dbg
  if o = 0 then some (d, d.dbgStat)
  else if o = 8 then some (d, match g.dlyEnd with | some t => wd ((t - d.nowN) / 8) | none => 0)
  else if 0x10 ≤ o ∧ o < 0x20 then some (d, g.chal.get (fun _ => 0) ((o - 0x10) / 4))
  else if o = 0x40 then some (d, boolW g.frz 0 ||| boolW g.onHalt 1 ||| boolW g.inForce 8)
  else if o = 0x48 then some (d, g.evt)
  else if o = 0x80 then some (d, g.maddr)
  else if o = 0x84 then some (d, g.mdata)
  else if o = 0x8C then some (d, boolW g.mbusy.isSome 0 ||| wd (2 * g.merr) ||| boolW g.movr 8)
  else if 0x100 ≤ o ∧ o < 0x200 then
    let c := (o - 0x100) / 0x40
    match o % 0x40 with
    | 4 => some (d, d.cstat c)
    | 0xC => some (d.cregRead c)
    | _ => none
  else none

/-- A plain register of the DBG block is written or read. -/
def Device.dbgPlain (d : Device) (o : Nat) : Word :=
  match findRow (liveRows bDBG) o with | some _ => d.lv (bDBG + o) | none => 0

/-- A write of the DBG block. -/
def Device.dbgPut (d : Device) (o : Nat) (v : Word) : Device :=
  match d.dbgWrite o v with
  | some d => d
  | none => match findRow (liveRows bDBG) o with | some r => d.setLv (bDBG + o) (v &&& wd r.mask) | none => d

/-- A read of the DBG block. -/
def Device.dbgGet (d : Device) (o : Nat) : Device × Word :=
  match d.dbgRead o with | some r => r | none => (d, d.dbgPlain o)

/-- A read or write through DBGACC (R827, R828, R830): with ACK WAIT its Update-DR is ignored, and the access before completes. -/
def execDebugAccess (wr : Bool) (addr : BitVec 14) (v : Word) (s : State) : Host.Outcome State Fault Refusal :=
  s.run (fun d =>
    if d.tapIr ≠ .dbgacc then d
    else if !d.powered then (if wr && decide (addr = 0x11) then d.sysrstLate v else d)
    else if d.dbgWaits then ({ d with dbg := { d.dbg with waitAt := some d.nowN } }).fresh
    else
      let o := 4 * addr.toNat
      ({ d.fresh with dbg := { d.dbg with accAt := some d.nowN } }).tool (d.dbgAllowed o wr) (fun d => if wr then d.dbgPut o v else Device.toolData (d.dbgGet o)))

end Sys2Proof.Machine
end

