-- ==== Sys2Proof/Machine/Od.lean ====
section
/-! DEFINITION. The object-dictionary engine (R776 to R794, R815): answers, forwarding, intent and mismatch, the OD
registers. What an entry stands for is served in OdEv. -/
namespace Sys2Proof.Machine

/-- Set flag `i` of OD_STAT: 0 BADANS, 1 FWDDROP, 2 TMO, 3 REFUSED. -/
def Device.odFlag (d : Device) (i : Nat) : Device :=
  ({ d with od := { d.od with stat := d.od.stat ||| bitW i } }).hwFlag (bOD + 4) (bitW i)

/-- The handle of buffer `i` (R618). -/
def Device.handleOf (d : Device) (i : Nat) : Nat := i + 0x1000 * (d.bufC i).gen

/-- OD_LAST's INDEX and SUB, from the buffer of errand `e`. -/
def Device.odWhere (d : Device) (e : Errand) : Nat :=
  let b := fun i => ((d.physRead 7 (dwOf (bufAddr e.buf + i))).2.1.toNat / 2 ^ (8 * ((bufAddr e.buf + i) % 8))) % 256
  b 4 + 0x100 * b 5 + 0x10000 * b 6

/-- The buffer of errand `e` passes to owner `o`, unless it has been released since the errand took it (R619). -/
def Device.bufTo (d : Device) (e : Errand) (o : Nat) : Device :=
  let b := d.bufC e.buf
  if b.owner = 7 ∨ b.gen ≠ e.gen then d else d.setBuf e.buf { b with owner := o }

/-- The buffer of errand `e` goes back to the link controller (R783, R788). -/
def Device.odPass (d : Device) (e : Errand) : Device :=
  (d.bufTo e 4).setErrand e.tag (fun x => { x with st := .answered })

/-- An answer that is no refusal of the engine is counted (log 25). -/
def Device.odCount (d : Device) : Device := { d with od := { d.od with answered := satInc 16 d.od.answered } }

/-- A refusal of the engine (R785). -/
def Device.odRefused (d : Device) (e : Errand) (code : Nat) : Device :=
  let d := { d with od := { d.od with
    refused := satInc 16 d.od.refused, last := wd (d.odWhere e + 0x1000000 * code) } }
  (d.odFlag 3).raiseIrq 166

/-- The engine answers errand `e` with `code` and the data `out` (R783 to R785). -/
def Device.odReply (d : Device) (e : Errand) (code : Nat) (out : List Byte) : Device :=
  let a := bufAddr e.buf
  let d := d.putMem .od (a + 7) [BitVec.ofNat 8 code]
  let d := (d.putMem .od (a + 9) [BitVec.ofNat 8 out.length]).putMem .od (a + 10) out
  let d := if 0x10 ≤ code then d.odRefused e code else d.odCount
  d.odPass e

/-! ### Forwarding (R786 to R790) -/

/-- LINK_FWDQ.Q. -/
def Device.fwdq (d : Device) : Nat := wf (d.lv (bLINK + 0x14)) 4 0

/-- The push of the handle of errand `e` has been served (R786, R787); `drop` says that it was dropped. -/
def Device.forwardDone (d : Device) (e : Errand) (drop : Bool) : Device :=
  if drop then ((d.bufTo e 5).odFlag 1).odReply e 0x1A []
  else (d.setErrand e.tag (fun x => { x with st := .forwarded, fwdAt := d.nowN })).raiseIrq 165

/-- Errand `e` is forwarded to firmware (R786, R787): its handle is pushed, and at a queue unit in reset the push waits with the
other requests there (R890). -/
def Device.odForward (d : Device) (e : Errand) : Device :=
  let q := d.fwdq
  let a := bQUE + 0x100 + 0x20 * q
  let v := wd (d.handleOf e.buf)
  let d := d.bufTo e (wf (d.lv (aQueOwn q)) 1 0)
  match d.engTake 7 a (some v) with
  | some r => (d.engDone 7).forwardDone e (decide (r = .bus 4))
  | none =>
    if d.rst.unitBusy.getLsbD 2 then
      (d.engWait 7).addJoin { who := .od, addr := a, put := some v, tag := true, req := { sup := true, trusted := true }, eng := true }
    else
      match d.quePush q v with
      | (d, b) => d.forwardDone e b

/-- The forwarded errand still waiting whose buffer is `i`. -/
def Device.forwarded (d : Device) (i : Nat) : Option Errand :=
  d.link.errands.find? (fun e => decide (e.buf = i) && decide (e.st = .forwarded))

/-- OD_FWDTO. -/
def Device.fwdTo (d : Device) : Nat := wf (d.lv (bOD + 8)) 23 0

/-- The timeout of the forwarded errand `e` has expired before the present tick (R789; R82: an answer in the tick of expiry is in
time). -/
def Device.fwdGone (d : Device) (e : Errand) : Bool := decide (e.st = .forwarded) && decide (e.fwdAt + d.fwdTo < d.nowN)

/-- The errand an OD_ANSWER write with handle `h` by `who` answers (R788, R789). -/
def Device.answerFor (d : Device) (who : Who) (h : Nat) : Option Errand :=
  let i := fld h 9 0
  match coreOf who with
  | some c =>
    if (d.bufC i).gen = fld h 15 12 ∧ (d.bufC i).owner = c then (d.forwarded i).filter (fun e => !d.fwdGone e) else none
  | none => none

/-- The answer in the buffer of errand `e` is taken (R784, R788): with RLEN above 112 it is answered RANGE. -/
def Device.answerTake (d : Device) (e : Errand) : Device :=
  match d.bytesIn .od (bufAddr e.buf) 10 with
  | (d, none) => d.odReply e 0xF1 []
  | (d, some h) => if 112 < ((h.drop 9).headD 0).toNat then d.odReply e 0x16 [] else d.odCount.odPass e

/-- A write of OD_ANSWER (R788, R784): accepted at once, it is taken once the OD engine has a tag (R131). -/
def Device.odAnswer (d : Device) (who : Who) (v : Word) : Device :=
  match d.answerFor who (wf v 15 0) with
  | none => d.odFlag 0
  | some e =>
    if d.mustWait 7 then (d.setErrand e.tag (fun x => { x with st := .answered })).workLater 7 (.ans e.tag)
    else d.answerTake e

/-- The work `w` has its tag (R131). -/
def Device.workGo (d : Device) (w : LinkWork) : Device :=
  match w with
  | .put who a l push =>
    let d := d.bytesOut who l.length a l
    match push with
    | some v => d.linkPush d.rxq v
    | none => d
  | .ans t =>
    match d.errandOf t with
    | some e => d.answerTake e
    | none => d
  | .store f => d.errandStore f

/-- The first of the work that waits for a tag of initiator `i`, and the rest. -/
def popWork (i : Nat) : List LinkWork → Option (LinkWork × List LinkWork)
  | [] => none
  | w :: l => if w.tagOf = some i then some (w, l) else (popWork i l).map (fun x => (x.1, w :: x.2))

/-- A tag of initiator `i` is free: its oldest work is done (R131). -/
def Device.workFree (d : Device) (i : Nat) : Device :=
  match popWork i d.link.work with
  | some (w, l) => if d.tagBars i then d else ({ d with link := { d.link with work := l } }).workGo w
  | none => d

/-- OD_FWDTO ticks pass without an accepted answer (R789). -/
def Device.odTimeout (d : Device) (e : Errand) : Device := ((d.bufTo e 5).odFlag 2).odReply e 0x19 []

/-! ### Intent and mismatch (R791 to R794) -/

/-- OD_MISCH bit `n` (R792). -/
def Device.misCh (d : Device) (n : Nat) : Bool :=
  let c := d.pwmC n
  if wb d.od.intCh n then !c.en || decide (wf c.trip 3 0 ≠ 0) else c.en

/-- OD_MISSL bit `n` (R792). -/
def Device.misSl (d : Device) (n : Nat) : Bool :=
  let st := (d.slotC n).st
  if wb d.od.intSl n then decide (st = .off) || decide (st = .held) || decide (st = .parked) || decide (st = .fault)
  else decide (st ≠ .off)

/-! ### Registers (R815) -/

/-- A write at offset `o` of the OD block that does more than store. -/
def Device.odWrite (d : Device) (who : Who) (o : Nat) (v : Word) : Option Device :=
  if o = 4 then some { d with od := { d.od with stat := d.od.stat &&& ~~~ (d.w1c (bOD + 4) v &&& 0xF) } }
  else if o = 0xC then some (d.odAnswer who v)
  else if o = 0x10 then some { d with od := { d.od with answered := wf v 15 0, refused := wf v 31 16 } }
  else if o = 0x20 then some { d with od := { d.od with intCh := v } }
  else if o = 0x24 then some { d with od := { d.od with intSl := v } }
  else none

/-- A read at offset `o` of the OD block. -/
def Device.odRead (d : Device) (o : Nat) : Option Word :=
  let e := d.od
  let count := fun st => (d.link.errands.filter (fun x => decide (x.st = st))).length
  if o = 4 then some (e.stat ||| boolW (decide (0 < count .stored)) 8)
  else if o = 0x10 then some (wd (e.answered + 0x10000 * e.refused))
  else if o = 0x14 then some e.last
  else if o = 0x20 then some e.intCh
  else if o = 0x24 then some e.intSl
  else if o = 0x28 then some (wd (bitsFrom 32 (fun n => d.misCh n)))
  else if o = 0x2C then some (wd (bitsFrom 32 (fun n => d.misSl n)))
  else if o = 0x30 then some (wd (count .forwarded))
  else none

end Sys2Proof.Machine
end

