-- ==== Sys2Proof/Machine/PwrEv.lean ====
section
/-! DEFINITION. The events of the power manager that reach the reset controller: Kestrel windows, sleep requests, the
end of SLEEP (R116 to R145, R893). -/
namespace Sys2Proof.Machine

/-- The below-floor action of PWR_CTL.BFA (R129). -/
def Device.belowAction (d : Device) : Device :=
  match wf (d.lv aPwrCtl) 1 0 with
  | 0 => d
  | 1 => (d.note (fun h => { h with park := some (decide (d.pwr.mode = .run)) })).parkRequest
  | 2 => ({ d with pwr := { d.pwr with safeAct := true } }).safeTrips
  | _ => d.warmRequest 0x4000

/-- A ramp that ends in a warm reset: the rows from t = 400 on, which have waited for it, move by the same amount (R893). -/
def Device.rampLag (d : Device) : Device := if d.pwr.ramp then d else d.warmLag 400

/-- The tick of the window end that comes next: a multiple of 256 (R116), the present tick while its own has not come. -/
def Device.nextWindow (d : Device) : Nat :=
  if d.nowN % 256 = 0 ∧ d.pwr.winAt < d.nowN then d.nowN else 256 * (d.nowN / 256 + 1)

/-- The counts of a window are loaded (R116, R127); a running average takes the reference count (R147). -/
def Device.paceLoad (d : Device) (count refc : Nat) (temp : Byte) : Device :=
  let p := d.pwr
  let add := p.avgOn && decide (p.avgCnt < 256)
  { d with pwr := { p with
    winAt := d.nowN, paceNow := count, paceRef := refc, temp := temp, under := decide (count < d.floorCmp),
    avgSum := if add then p.avgSum + refc else p.avgSum, avgCnt := if add then p.avgCnt + 1 else p.avgCnt } }

/-- The steps of a window end in its tick (R116, R121, R127 to R129, R144): in the tick that ended SLEEP the set point stays. -/
def Device.windowEnd (d : Device) (count refc : Nat) (temp : Byte) : Device :=
  let d := d.paceLoad count refc temp
  if d.here.woke then d
  else if d.pwr.ramp then d.rampStep.rampLag
  else if d.pwr.mode = .sleep then d
  else
    let d := d.paceLoop d.paceTarget
    if d.resetsTaken then
      let r := d.paceDetect
      if r.2 then r.1.belowAction else r.1
    else d

/-- The count of a window that ends in the period of a device reset starts an episode: its request is one of that period (R163). -/
def Device.windowLate (d : Device) (count : Nat) : Device :=
  match d.rst.late.floor with
  | some f => if d.samePeriod && decide (count < f) then d.causeIn 0x4000 else d
  | none => d

/-- The halt of core `c` by SLEEP is a sleep request (R140, R839). -/
def Device.sleepAsks (d : Device) (c : Nat) : Bool :=
  d.resetsTaken && d.sleepReq && decide (d.pwr.mode ≠ .sleep) && decide (d.pwr.asks = some c)
    && decide ((d.coreC c).st = .asleep) && !d.someRuns

/-- Core `c` continues after a SLEEP that completes as a no-op (R141). -/
def Device.sleepNoop (d : Device) (c : Nat) (src : Word) : Device :=
  let d := ({ d with pwr := { d.pwr with wokeEarly := true, wakeSrc := d.pwr.wakeSrc ||| src } }).hwFlag (bPWR + 4) 0x20
  ((d.hwFlag (bPWR + 0x10) src).setCore c { d.coreC c with st := .running }).owlSync

/-- The sleep request of core `c` (R140 to R142, R145); `fired` are the wake sources that fire in its tick. -/
def execSleepRequest (c : Fin 4) (fired : Word) (s : State) : Host.Outcome State Fault Refusal :=
  s.run (fun d =>
    if d.sleepAsks c then
      let d := { d with pwr := { d.pwr with asks := none } }
      let off := decide (d.pwr.req = 3)
      let src := fired &&& d.lv (bPWR + 0xC) &&& (if off then offWakes else sleepWakes)
      if src ≠ 0 then d.sleepNoop c src
      else if off then d.offEnter
      else d.sleepEnter.owlSync
    else d)

/-- A core whose reset or hold ended in SLEEP starts with the end of SLEEP (R159; DESIGN CHOICE, log 84). -/
def Device.startHeld (d : Device) : Device :=
  (List.range 4).foldl (fun d c =>
    if (d.coreC c).st = .held ∧ d.rst.hold.getLsbD c = false then d.startCore c (d.lv (aEntry c)) (d.bootSp c) else d) d

/-- Wake source `i` fires (R143): a GP source by a change of the filtered level in this tick. -/
def Device.wakeFires (d : Device) (i : Nat) : Bool :=
  wb (d.lv (bPWR + 0xC) &&& sleepWakes) i && (!(decide (8 ≤ i) && decide (i < 16)) || d.here.gpEdge.getLsbD (i - 8))

/-- A wake source ends SLEEP, or fires during the wake ramp (R144, R155).  With a stored wake code of 0 there is no ramp: a
second source of the tick in which SLEEP ends is not recorded (DESIGN CHOICE, log 113). -/
def execWakeFromSleep (src : Fin 32) (s : State) : Host.Outcome State Fault Refusal :=
  s.run (fun d =>
    let p := d.pwr
    let on := { p with wakeSrc := setB p.wakeSrc src true }
    if !d.wakeFires src || !d.resetsTaken then d
    else if p.mode = .sleep then
      (((({ d with pwr := { on with mode := .park, req := 1, ramp := decide (0 < p.wake) } }).note
        (fun h => { h with woke := true })).hwFlag (bPWR + 0x10) (bitW src)).releaseCores.startHeld).owlSync
    else if p.ramp then ({ d with pwr := on }).hwFlag (bPWR + 0x10) (bitW src)
    else d)

end Sys2Proof.Machine
end

