-- ==== Sys2Proof/Machine/Regs.lean ====
section
/-! DEFINITION. The register blocks as every initiator reaches them (R14 to R24, R53 to R58, R537 to R546, R710 to R713,
R829, R847): domains, views, reads with an effect, waiting accesses. -/
namespace Sys2Proof.Machine

/-! ### Requests and domains (R537 to R544) -/

/-- The request attributes of an initiator (R429, R542, R847). -/
def Device.reqOf (d : Device) : Who → Req
  | .core c => { sup := (d.coreC c.val).sup, trusted := (d.coreC c.val).trusted }
  | .loop => { sup := true, trusted := false }
  | .link | .od => { sup := true, trusted := true }
  | .dma k => { sup := true, trusted := (d.dmaC k.val).trust }
  | .debug => { sup := true, trusted := decide (d.dbg.level = 2) }

/-- TRUST of the owner register `own` refuses an open request (R540). -/
def trustFail (own : Word) (r : Req) : Option Nat := if wb own 8 && !r.trusted then some 2 else none

/-- The owner check of R539: the owner core, and the debug master, which passes it (R847). -/
def ownFail (own : Word) (who : Who) (r : Req) : Option Nat :=
  match who with
  | .core c => if wf own 1 0 = c.val then trustFail own r else some 1
  | .debug => trustFail own r
  | _ => some 1

/-- Only supervisor requests of the trusted domain pass; `sub` is the code of the violation. -/
def privFail (sub : Nat) (r : Req) : Option Nat := if r.sup && r.trusted then none else some sub

/-- Only supervisor code in the trusted domain passes (R395, R397, R538, R623, R667, R690, R707, R768): a core's, or the service
tool's at full level (R847; DEDUCED, log 99). -/
def codeFail (sub : Nat) (who : Who) (r : Req) : Option Nat :=
  match who with
  | .core _ | .debug => privFail sub r
  | _ => some sub

/-- What user-mode requests reach (R537). -/
def userReach (b o : Nat) (wr : Bool) : Bool :=
  (decide (b = bTBASE) && !wr) || decide (b = bQUE) || decide (b = bSHED) || decide (b = bLOCK)
    || (decide (b = bEVR) && decide (0x10 ≤ o) && decide (o < 0x1C))
    || (decide (b = bINTC) && decide (0x60 ≤ o) && decide (o < 0x70))

/-- EVR: routes (R395, R396) and their locks (R397). -/
def Device.evrDom (d : Device) (who : Who) (r : Req) (o : Nat) (wr : Bool) : Option Nat :=
  if !wr then none
  else if o < 8 then codeFail 2 who r
  else if 0x100 ≤ o ∧ o < 0x500 then
    match o % 0x10 with
    | 0 | 4 => ownFail (d.lv (aRtOwn ((o - 0x100) / 0x10))) who r
    | 8 => codeFail 5 who r
    | _ => none
  else none

/-- The initiators that use queues (R539); the others are refused. -/
def quePeer : Who → Bool
  | .loop | .od => false
  | _ => true

/-- QUE (R538 to R540): push, pop and peek are uses, the other registers of a queue take configuration writes. -/
def Device.queDom (d : Device) (who : Who) (r : Req) (o : Nat) (wr : Bool) : Option Nat :=
  if 0x600 ≤ o then (if wr && decide (o < 0x680) then codeFail 5 who r else none)
  else if o < 0x100 ∨ 0x500 ≤ o then none
  else
    let own := d.lv (aQueOwn ((o - 0x100) / 0x20))
    match o % 0x20, wr with
    | 0x00, true | 0x04, false | 0x08, false => if quePeer who then trustFail own r else some 1
    | 0x0C, true | 0x10, true | 0x14, true | 0x18, true | 0x1C, true => ownFail own who r
    | _, _ => none

/-- LOCK (R538 to R540, R847): takes and gives are core operations. -/
def Device.lockDom (d : Device) (who : Who) (r : Req) (o : Nat) (wr : Bool) : Option Nat :=
  if o < 0x100 ∨ 0x300 ≤ o then none
  else
    let own := d.lv (aLockOwn ((o - 0x100) / 0x10))
    match o % 0x10, wr with
    | 0, false | 4, true => if (coreOf who).isSome then trustFail own r else some 1
    | 0xC, true => codeFail 5 who r
    | _, _ => none

/-- SHED (R623, R847). -/
def shedDom (who : Who) (r : Req) (o : Nat) (wr : Bool) : Option Nat :=
  if o = 0 ∧ wr = false then (if who = .debug then some 1 else none)
  else if o = 0xC ∧ wr then codeFail 2 who r else none

/-- DMA (R538 to R540): DMA_CSRC and DMA_CDST take no configuration write (R658). -/
def Device.dmaDom (d : Device) (who : Who) (r : Req) (o : Nat) (wr : Bool) : Option Nat :=
  if !wr then none
  else if 0x100 ≤ o ∧ o < 0x300 then
    (if 0x18 ≤ o % 0x20 then none else ownFail (d.lv (aDmaOwn ((o - 0x100) / 0x20))) who r)
  else if 0x500 ≤ o ∧ o < 0x540 then ownFail (d.lv (aDmaOwn ((o - 0x500) / 4))) who r
  else if 0x600 ≤ o ∧ o < 0x640 then codeFail 5 who r
  else none

/-- The request comes from core `c` itself. -/
def ownCore (who : Who) (c : Nat) : Bool := decide (coreOf who = some c)

/-- INTC (R538 to R540, R561, R568, R570, R575, R847): claims, completions and THR belong to their core. -/
def Device.intcDom (d : Device) (who : Who) (r : Req) (o : Nat) (wr : Bool) (v : Word) : Option Nat :=
  if 0x10 ≤ o ∧ o < 0x20 ∧ wr = false then
    let c := (o - 0x10) / 4
    if !ownCore who c then some 1
    else match d.claimSrc c with | some s => trustFail (d.lv (aIown s)) r | none => none
  else if !wr then none
  else if 0x20 ≤ o ∧ o < 0x30 then
    let c := (o - 0x20) / 4
    let s := wf v 9 0
    if !ownCore who c then some 1
    else if 1 ≤ s ∧ s ≤ 192 then trustFail (d.lv (aIown s)) r
    else none
  else if 0x30 ≤ o ∧ o < 0x40 then (if ownCore who ((o - 0x30) / 4) then none else some 1)
  else if 0x60 ≤ o ∧ o < 0x70 then trustFail (d.lv (aIown (177 + (o - 0x60) / 4))) r
  else if 0x408 ≤ o ∧ o < 0xA08 then
    (if o % 8 = 0 then ownFail (d.lv (aIown ((o - 0x400) / 8))) who r else codeFail 5 who r)
  else none

/-- DBG as the fabric reaches it (R829): the memory window of the service tool reaches it by the table of R830, and DBG_IEN takes writes
of supervisor code alone. -/
def dbgDom (who : Who) (r : Req) (o : Nat) (wr : Bool) : Option Nat :=
  if o = 0x48 ∨ who = .debug then none
  else if o = 0x4C then (if wr then codeFail 2 who r else none)
  else if o = 0 ∧ wr = false then none
  else some 5

/-- The registers a chapter reserves to the trusted domain (R168, R203). -/
def reserved (b : Nat) : Bool := decide (b = bRST)

/-- The registers a chapter reserves to supervisor code in the trusted domain (R667, R690, R707, R717, R768, R799). -/
def codeOnly (b o : Nat) : Bool :=
  (decide (b = bSYS) && ((decide (0x100 ≤ o) && decide (o < 0x110)) || decide (o = 0xF80)))
    || decide (b = bFLASH) || decide (b = bFUSE)
    || (decide (b = bMEM) && decide (0x80 ≤ o) && decide (o < 0xA0))
    || (decide (b = bLINK) && (decide (o = 0) || decide (o = 0x10)))

/-- The OD engine writes SYS_SWAP, SYS_SWAPPT and SYS_SWAPT too (R799). -/
def odWrites (who : Who) (b o : Nat) : Bool := decide (who = .od) && decide (b = bSYS) && decide (o < 0x110)

/-- The code of a write that R538 (SUB = ATTR) and R667 (SUB = TRUST) turn away whatever its mode, ahead of the check of R537:
both say it of any other write than supervisor code's in the trusted domain (DEDUCED, log 99). -/
def anyOther (b o : Nat) : Option Nat :=
  if b = bMEM ∧ 0x80 ≤ o ∧ o < 0xA0 then some 2
  else if (b = bEVR ∧ 0x100 ≤ o ∧ o < 0x500 ∧ o % 0x10 = 8) ∨ (b = bDMA ∧ 0x600 ≤ o ∧ o < 0x640)
    ∨ (b = bINTC ∧ 0x408 ≤ o ∧ o < 0xA08 ∧ o % 8 = 4) then some 5
  else none

/-- The offset of a register, the active view brought to the shadow view's (R23). -/
def regOffset (a : Nat) : Nat :=
  let o := (a - a % 4) % 0x10000
  if 0x8000 ≤ o ∧ isSet (blkOf a + (o - 0x8000)) then o - 0x8000 else o

/-- The domain check of the request `r` to a register block: the code of the violation, if there is one (R537 to R540). -/
def Device.reqDom (d : Device) (r : Req) (who : Who) (a : Nat) (wr : Bool) (v : Word) : Option Nat :=
  let b := blkOf a
  let o := regOffset a
  if !r.sup && !userReach b o wr then some (if wr then (anyOther b o).getD 3 else 3)
  else if b = bEVR then d.evrDom who r o wr
  else if b = bQUE then d.queDom who r o wr
  else if b = bLOCK then d.lockDom who r o wr
  else if b = bSHED then shedDom who r o wr
  else if b = bDMA then d.dmaDom who r o wr
  else if b = bINTC then d.intcDom who r o wr v
  else if b = bDBG then dbgDom who r o wr
  else if wr && reserved b then privFail 2 r
  else if wr && codeOnly b o && !odWrites who b o then codeFail 2 who r
  else none

/-- The domain check of a request that its initiator makes now. -/
def Device.regDom (d : Device) (who : Who) (a : Nat) (wr : Bool) (v : Word) : Option Nat :=
  d.reqDom (d.reqOf who) who a wr v

/-! ### The SYS block (R57, R58, R133, R545, R717, R813) -/

/-- SYS_ID (R58, R896). -/
def Device.sysId (d : Device) : Word := wd (0x40320001 + 0x100 * wf (d.fuseW 0) 3 0)

/-- SYS_FABINFL: the tags in use, with the one of the read that asks and those of the evictions in flight, which are of the
eight reserved ones (R130, R133, R592, R595; log 47). -/
def Device.tagsInUse (d : Device) : Nat :=
  (List.range 9).foldl (fun n i => n + d.tagsOf i) 1 + (List.range 4).foldl (fun n c => n + (d.coreC c).ev.length) 0

/-- A read at offset `o` of the SYS block. -/
def Device.sysBlkRead (d : Device) (o : Nat) : Option Word :=
  let s := d.sys
  if o = 0 then some d.sysId
  else if o < 0x200 then d.swapRead o
  else if o = 0xF00 then some (wd d.tagsInUse)
  else if 0xF10 ≤ o ∧ o < 0xF34 then some (d.fabWaitCnt.get (fun _ => 0) ((o - 0xF10) / 4))
  else if o = 0xF40 then some s.domViol
  else if o = 0xF44 then some s.domAddr
  else if o = 0xF48 then some s.domInfo
  else if 0xF50 ≤ o ∧ o < 0xF70 then
    let c := (o - 0xF50) / 8
    some (if o % 8 = 0 then s.lockup.get (fun _ => 0) c else s.lockupPc.get (fun _ => 0) c)
  else if o = 0xF80 then some s.lockViol
  else if o = 0xF84 then some s.lockVAddr
  else if o = 0xF88 then some s.lockVInfo
  else none

/-- A write at offset `o` of the SYS block that does more than store. -/
def Device.sysBlkWrite (d : Device) (o : Nat) (v : Word) : Option Device :=
  if o < 0x200 then d.swapWrite o v
  else if 0xF10 ≤ o ∧ o < 0xF34 then some { d with fabWaitCnt := d.fabWaitCnt.set (fun _ => 0) ((o - 0xF10) / 4) v }
  else if o = 0xF40 then some { d with sys := { d.sys with domViol := v } }
  else if o = 0xF80 then some { d with sys := { d.sys with lockViol := v } }
  else none

/-! ### Reads -/

/-- A read of a register with a home of its own, without effect. -/
def Device.unitRead (d : Device) (b o : Nat) : Option Word :=
  if b = bSYS then d.sysBlkRead o
  else if b = bPWR then d.pwrRead o
  else if b = bRST then d.rstRead o
  else if b = bRTC then d.rtcRead o
  else if b = bINTC then d.intcRead o
  else if b = bEVR then d.evrRead o
  else if b = bDMA then d.dmaRead o
  else if b = bQUE then d.queRead o
  else if b = bSHED then d.shedRead o
  else if b = bLOCK then d.lockRead o
  else if b = bMEM then d.memRegRead o
  else if b = bFLASH then d.flashRead o
  else if b = bFUSE then d.fuseRead o
  else if b = bSNS then d.snsRead o
  else if b = bTRK then d.trkRead o
  else if b = bPWM then d.pwmRead o
  else if b = bLE then d.leRead o
  else if b = bLINK then d.linkRead o
  else if b = bOD then d.odRead o
  else none

/-- A plain register; an offset without a register reads 0 (R15). -/
def Device.plainRead (d : Device) (b o : Nat) : Word :=
  match findRow (liveRows b) o with | some _ => d.lv (b + o) | none => 0

/-- A read of QUE_POP[q] (R601, R608). -/
def Device.popReg (d : Device) (who : Who) (q : Nat) : Device × Acc :=
  let p := d.popBy q (whoIdx who)
  (p.1, if p.2.2 then .bus 2 else .ok p.2.1)

/-- A read of QUE_PEEK[q] (R601, R608, R629). -/
def Device.peekReg (d : Device) (who : Who) (q : Nat) : Device × Acc :=
  let r := if d.queHas q then d.queWordCheck q (whoIdx who) else (d, false)
  if r.2 then (r.1.queFlag q 0x80000, .bus 2) else (r.1, .ok (r.1.quePeek q))

/-- A read of LOCK_TAKE[n] by a core (R612). -/
def Device.takeReg (d : Device) (who : Who) (n : Nat) : Device × Acc :=
  match who with
  | .core c => let r := d.lockTake n c; (r.1, .ok r.2)
  | _ => (d, .ok 0)

/-- The data of an access that completes. -/
def accOk (r : Device × Word) : Device × Acc := (r.1, .ok r.2)

/-- A read whose effect belongs to the register (R72, R241, R568, R601, R612, R620, R747). -/
def Device.effectRead (d : Device) (who : Who) (b o : Nat) : Option (Device × Acc) :=
  let i := whoIdx who
  if b = bTBASE then (d.tbaseRead i o).map accOk
  else if b = bQUE ∧ 0x100 ≤ o ∧ o < 0x500 ∧ o % 0x20 = 4 then some (d.popReg who ((o - 0x100) / 0x20))
  else if b = bQUE ∧ 0x100 ≤ o ∧ o < 0x500 ∧ o % 0x20 = 8 then some (d.peekReg who ((o - 0x100) / 0x20))
  else if b = bLOCK ∧ 0x100 ≤ o ∧ o < 0x300 ∧ o % 0x10 = 0 then some (d.takeReg who ((o - 0x100) / 0x10))
  else if b = bSHED ∧ o = 0 then some (accOk (d.shedAlloc who))
  else if b = bINTC ∧ 0x10 ≤ o ∧ o < 0x20 then
    let r := d.claim ((o - 0x10) / 4)
    some (r.1, .ok (wd r.2))
  else if b = bLINK ∧ o = 0x40 then some (d.capture pairRtime i d.ringTime, .ok (loW d.ringTime))
  else if b = bLINK ∧ o = 0x44 then some (d, .ok (d.snapOf pairRtime i))
  else if b = bTRK ∧ 0x100 ≤ o ∧ o < 0x500 ∧ o % 0x40 = 0x1C then
    let n := (o - 0x100) / 0x40
    some (d.capture (pairTrk n) i (d.trkC n).edgeTs, .ok (loW (d.trkC n).edgeTs))
  else if b = bTRK ∧ 0x100 ≤ o ∧ o < 0x500 ∧ o % 0x40 = 0x20 then
    some (d, .ok (d.snapOf (pairTrk ((o - 0x100) / 0x40)) i))
  else if b = bDBG then some (accOk (d.dbgGet o))
  else none

/-- A read of a register of the sets at shadow-view address `s`, in the view `act` (R23, R400); a word of LE RAM passes
its ECC check (R669, R670, R673). -/
def Device.setRead (d : Device) (who : Who) (s : Nat) (act : Bool) : Device × Acc :=
  let v := if act || d.ofLockedRoute s then d.act s else d.shd s
  if blkOf s ≠ bLERAM then (d, .ok v)
  else
    let key := if act then s + 0x8000 else s
    match d.eccOf key with
    | .good => (d, .ok v)
    | .single => ((d.setEcc key .good).countCe 5 key, .ok v)
    | .bad => (d.countUe 5 key (whoIdx who) 0, .bus 2)

/-- The bits of the register at offset `o` of block `b` for which the spec states no value in this state (log 27): a
ledger record beyond the count (R151), the winner of an arena without one (R346), the holder of a free lock (R630), the
running channel of an idle DMA engine (R658). -/
def Device.openBits (d : Device) (b o : Nat) : Word :=
  if b = bPWR ∧ 0x78 ≤ o ∧ o < 0x88 ∧ d.ledger.length ≤ wf (d.lv (bPWR + 0x74)) 9 0 then 0xFFFFFFFF
  else if b = bLE ∧ 0x60 ≤ o ∧ o < 0x80 ∧ d.le.win.get (fun _ => 0) ((o - 0x60) / 4) = 0 then 0xFFFF001F
  else if b = bLOCK ∧ 0x100 ≤ o ∧ o < 0x300 ∧ o % 0x10 = 8 ∧ (d.lockC ((o - 0x100) / 0x10)).holder = none then 0x30
  else if b = bDMA ∧ o = 0 ∧ d.dmaRunning = none then 0xF
  else 0

/-- A read whose effect is none: bits without a stated value are free values. -/
def Device.valueRead (d : Device) (b o : Nat) : Device × Acc :=
  let v := match d.unitRead b o with | some v => v | none => d.plainRead b o
  let m := d.openBits b o
  if m = 0 then (d, .ok v) else (d.fresh, .ok ((v &&& ~~~ m) ||| (Config.noValue d.free &&& m)))

/-- The read of an aligned register that its checks let through. -/
def Device.regLoad (d : Device) (who : Who) (a : Nat) : Device × Acc :=
  let b := blkOf a
  let o := a % 0x10000
  if isSet a then d.setRead who a false
  else if 0x8000 ≤ o ∧ isSet (a - 0x8000) then d.setRead who (a - 0x8000) true
  else
    match d.effectRead who b o with
    | some r => r
    | none => d.valueRead b o

/-! ### Writes -/

/-- A write to a register of INTC that is checked by core: INTC_DONE, INTC_PRIO.THR and the doorbells (R561, R570,
R575). -/
def Device.intcPut (d : Device) (o : Nat) (v : Word) : Option Device :=
  if 0x20 ≤ o ∧ o < 0x30 then some (d.complete ((o - 0x20) / 4) (wf v 9 0))
  else if 0x30 ≤ o ∧ o < 0x40 then
    some { d with intc := { d.intc with thr := d.intc.thr.set (fun _ => 0) ((o - 0x30) / 4) (wf v 3 0) } }
  else if 0x60 ≤ o ∧ o < 0x70 then some (d.raiseIf (wb v 0) (177 + (o - 0x60) / 4))
  else d.intcWrite o v

/-- A write to a register of QUE. -/
def Device.quePut (d : Device) (o : Nat) (v : Word) : Option Device :=
  if 0x100 ≤ o ∧ o < 0x500 ∧ o % 0x20 = 0 then some (d.quePush ((o - 0x100) / 0x20) v).1 else d.queWrite o v

/-- A write to a register of LOCK: a give, LOCK_BADGIVE (R613). -/
def Device.lockPut (d : Device) (who : Who) (o : Nat) (v : Word) : Option Device :=
  if o = 8 then some { d with lock := { d.lock with badGive := v } }
  else if 0x100 ≤ o ∧ o < 0x300 ∧ o % 0x10 = 4 then
    some (match who with | .core c => d.lockGive ((o - 0x100) / 0x10) c | _ => d)
  else none

/-- A write to a register of SHED (R621 to R623). -/
def Device.shedPut (d : Device) (who : Who) (o : Nat) (v : Word) : Option Device :=
  if o = 4 then some (d.shedFree who v)
  else if o = 8 then some (d.shedPass who v)
  else if o = 0xC then some (d.shedFfree who v)
  else d.shedWrite o v

/-- A write to a register of FUSE (R707, R716). -/
def Device.fusePut (d : Device) (o : Nat) (v : Word) : Option Device := if o = 0x410 then some (d.fusePcmd v) else none

/-- A write of a register with a home of its own. -/
def Device.unitWrite (d : Device) (who : Who) (b o : Nat) (v : Word) : Option Device :=
  if b = bSYS then d.sysBlkWrite o v
  else if b = bPWR then d.pwrWrite who o v
  else if b = bRST then d.rstWrite who o v
  else if b = bTBASE then d.tbaseWrite who o v
  else if b = bRTC then d.rtcWrite o v
  else if b = bINTC then d.intcPut o v
  else if b = bEVR then d.evrWrite o v
  else if b = bDMA then d.dmaWrite o v
  else if b = bQUE then d.quePut o v
  else if b = bSHED then d.shedPut who o v
  else if b = bLOCK then d.lockPut who o v
  else if b = bMEM then d.memRegWrite who o v
  else if b = bFLASH then d.flashWrite who o v
  else if b = bFUSE then d.fusePut o v
  else if b = bSNS then d.snsWrite o v
  else if b = bTRK then d.trkWrite o v
  else if b = bPWM then d.pwmWrite who o v
  else if b = bLE then d.leWrite who o v
  else if b = bLINK then d.linkWrite who o v
  else if b = bOD then d.odWrite who o v
  else if b = bDBG then some (d.dbgPut o v)
  else none

/-- A write of a plain register; a write to an offset without a register is ignored (R15, R17). -/
def Device.plainWrite (d : Device) (b o : Nat) (v : Word) : Device :=
  match findRow (liveRows b) o with | some r => d.setLv (b + o) (v &&& wd r.mask) | none => d

/-- The write of an aligned register that its checks let through: the registers of locked routes and the active views
are refused as lock violations (R24, R401, R710). -/
def Device.regStore (d : Device) (who : Who) (a : Nat) (v : Word) : Device :=
  let b := blkOf a
  let o := a % 0x10000
  let s := b + regOffset a
  if d.ofLockedRoute s && decide (o % 0x10 ≠ 0xC) then d.lockViolation who a 3
  else if isSet s then (if s = a then (match setWord a v with | some w => d.setShadow a w | none => d) else d.lockViolation who a 2)
  else
    match d.unitWrite who b o v with
    | some d' => d'
    | none => d.plainWrite b o v

/-! ### Accesses -/

/-- The unit of RST_UNIT that an access to a block reaches; LE RAM belongs to the loop engine. -/
def unitOf (b : Nat) : Option Nat := blockUnit (if b = bLERAM then bLE else b)

/-- An access to the block waits for a unit reset (R181). -/
def Device.blockBusy (d : Device) (b : Nat) : Bool :=
  match unitOf b with
  | some u => d.rst.unitBusy.getLsbD u
  | none => false

/-- A 32-bit write of a register by the request `r` of an initiator: no block, domain, alignment, a unit in reset, the
write. -/
def Device.putReg (d : Device) (r : Req) (who : Who) (a : Nat) (v : Word) : Device × Acc :=
  if !blocks.elem (blkOf a) then (d, .bus 0)
  else
    match d.reqDom r who a true v with
    | some sub => (d.domViolation who a sub true, .dom sub)
    | none =>
      if a % 4 ≠ 0 then (d, .bus 1)
      else if d.blockBusy (blkOf a) then (d, .wait)
      else (d.regStore who a v, .ok 0)

/-- A 32-bit write of a register that its initiator makes now. -/
def Device.writeReg (d : Device) (who : Who) (a : Nat) (v : Word) : Device × Acc := d.putReg (d.reqOf who) who a v

/-- A 32-bit read of a register by the request `r` of an initiator. -/
def Device.getReg (d : Device) (r : Req) (who : Who) (a : Nat) : Device × Acc :=
  if !blocks.elem (blkOf a) then (d, .bus 0)
  else
    match d.reqDom r who a false 0 with
    | some sub => (d.domViolation who a sub false, .dom sub)
    | none =>
      if a % 4 ≠ 0 then (d, .bus 1)
      else if d.blockBusy (blkOf a) then (d, .wait)
      else d.regLoad who a

/-- A 32-bit read of a register that its initiator makes now. -/
def Device.readReg (d : Device) (who : Who) (a : Nat) : Device × Acc := d.getReg (d.reqOf who) who a

end Sys2Proof.Machine
end

