-- ==== Sys2Proof/Machine/Bus.lean ====
section
/-! DEFINITION. Accesses over the fabric to memory and register blocks alike, the fabric's tags (R130 to R133), and the
accesses that engines make on their own: mirror records (R324), DMA elements (R648 to R654), the debug window (R846 to
R848). -/
namespace Sys2Proof.Machine

/-! ### Accesses to the whole map (R14, R16, R53 to R55) -/

/-- A register block does not take a width other than 32 bits: the domain check comes first (R14, R543). -/
def Device.narrow (d : Device) (who : Who) (a : Nat) (wr : Bool) : Device × Acc :=
  if !blocks.elem (blkOf a) then (d, .bus 0)
  else
    match d.regDom who a wr 0 with
    | some sub => (d.domViolation who a sub wr, .dom sub)
    | none => (d, .bus 1)

/-- The access leaves its core: it needs a tag (R130, R595). -/
def Device.overFabric (d : Device) (who : Who) (a : Nat) : Bool :=
  match who with
  | .core c => !(decide (memRegion a = some (4 + c.val)) || (isCached a && (d.dline c.val (lineOf a)).isSome))
  | _ => true

/-- A register command of core `c` has not completed: no other register access of the core begins (R452). -/
def Device.coreWaits (d : Device) (c : Nat) : Bool := d.waits.any (fun w => !w.eng && decide (whoIdx w.who = c))

/-- The access waits for an earlier register access of its core (R452). -/
def Device.behind (d : Device) (who : Who) (a : Nat) : Bool :=
  isRegSpace a && (match coreOf who with | some c => d.coreWaits c | none => false)

/-- A read of `n` bytes at `a` by an initiator's engine; at the cap of its tags it waits (R131). -/
def Device.busRead (d : Device) (who : Who) (a n : Nat) : Device × Acc :=
  match d.engTake (whoIdx who) a none with
  | some r => (d.engDone (whoIdx who), r)
  | none =>
    if d.behind who a || (d.overFabric who a && d.tagBars (whoIdx who)) then (d, .wait)
    else if isRegSpace a then (if n = 4 then d.readReg who a else d.narrow who a false)
    else d.memRead who (d.reqOf who).trusted a n

/-- A write of `n` bytes at `a` by an initiator's engine. -/
def Device.busWrite (d : Device) (who : Who) (a n v : Nat) : Device × Acc :=
  match d.engTake (whoIdx who) a (some (wd v)) with
  | some r => (d.engDone (whoIdx who), r)
  | none =>
    if d.behind who a || (d.overFabric who a && d.tagBars (whoIdx who)) then (d, .wait)
    else if isRegSpace a then (if n = 4 then d.writeReg who a (wd v) else d.narrow who a true)
    else d.memWrite who (d.reqOf who).trusted a n v

/-- The target of an access at `a` is busy: a unit in reset (R181), a flash bank at work (R695). -/
def Device.busBusy (d : Device) (a : Nat) : Bool := if isRegSpace a then d.blockBusy (blkOf a) else d.flashBusy a

/-! ### Accesses that wait (R131, R181, R452, R890) -/

/-- How an engine's access waits: behind an earlier access of its core, holding a tag or waiting for one, or at its unit, where
it joins the requests that wait there. -/
inductive Hold where
  | stall
  | held
  | join (w : Wait)
deriving DecidableEq, Repr

/-- How the access at `a` waits; `put` is what it writes. A DMA element in flight is written with the tag that it holds. -/
def Device.holdOf (d : Device) (who : Who) (a : Nat) (put : Option Word) : Hold :=
  if d.behind who a then .stall
  else if isRegSpace a && d.blockBusy (blkOf a) && (!d.tagBars (whoIdx who) || (decide (whoIdx who = 6) && put.isSome)) then
    .join { who := who, addr := a, put := put, tag := true, req := d.reqOf who, eng := true }
  else .held

/-- The access of initiator `i`'s engine does not complete in this command. -/
def Device.engHold (d : Device) (i : Nat) : Hold → Device
  | .stall => d
  | .held => d.engWait i
  | .join w => (d.engWait i).addJoin w

/-- A register write whose unit is in reset is accepted and completes after the reset (R181). -/
def Device.post (d : Device) (who : Who) (a : Nat) (v : Word) : Device := d.postReq who a v (d.reqOf who)

/-! ### Mirror records (R324) -/

/-- The mirror record of slot `n` is written at the address it was formed for: 8 bytes in one write, by the loop engine, in
the open domain (R542). -/
def Device.mirrorPut (d : Device) (n a : Nat) (w0 w1 : Word) : Device :=
  let d := d.setSlot n { d.slotC n with mirror := none }
  match d.busWrite .loop a 8 (w0.toNat + 0x100000000 * w1.toNat) with
  | (d, .ok _) => d
  | (d, _) => d.leFlag n 0x100

/-- A waiting mirror record is written when the loop engine has a free tag. -/
def execMirrorWrite (n : Fin 32) (s : State) : Host.Outcome State Fault Refusal :=
  s.run (fun d =>
    match (d.slotC n).mirror with
    | some (a, w0, w1) => if d.tagBars 4 then d.engWait 4 else (d.engDone 4).mirrorPut n a w0 w1
    | none => d)

/-! ### DMA elements (R648 to R654) -/

/-- The error code of DMA_STAT.ECODE for an access (R653); `.bus 4` stands for a push that was dropped while it waited at its
unit. -/
def dmaCodeOf : Acc → Nat
  | .bus 2 => 1
  | .dom _ => 2
  | .bus 4 => 4
  | _ => 3

/-- A word written at `a` is a push that would be dropped (R602, R603). -/
def Device.pushDrops (d : Device) (a : Nat) : Bool :=
  let o := a % 0x10000
  if blkOf a = bQUE ∧ 0x100 ≤ o ∧ o < 0x500 ∧ o % 0x20 = 0 then
    let k := d.queC ((o - 0x100) / 0x20)
    !k.en || decide (k.cap ≤ k.words.length)
  else false

/-- The address at which channel `c` reads its next element: behind those in flight (R648, R649). -/
def DmaCh.readAt (c : DmaCh) : Nat := (if wb c.cfg 2 then c.csrc + wd (esize c.cfg * c.buf.length) else c.csrc).toNat

/-- How many elements channel `c` keeps in flight: one with a fixed source, up to four otherwise, a free value (R649; log 98). -/
def DmaCh.ahead (c : DmaCh) (i : Nat) : Nat := if wb c.cfg 2 then (Config.dmaAhead i).val + 1 else 1

/-- Channel `k` reads one more element: there is room for it, its run has one, no read has failed and no stop waits (R649,
R653, R655). -/
def Device.dmaReads (d : Device) (k room : Nat) : Bool :=
  let c := d.dmaC k
  decide (c.st = .running) && decide (c.stop = 0) && decide (c.buf.length < min room c.runLeft)
    && c.fail.isNone && c.buf.all (fun e => decide (e.2 = 0)) && !(d.busBusy c.readAt && (d.engTake 6 c.readAt none).isNone)

/-- The read of an element of channel `k` has reached a unit in reset and waits there: the element is in flight (R649, R890). -/
def Device.dmaReading (d : Device) (k : Fin 16) : Bool :=
  d.waits.any (fun w => w.eng && decide (w.who = .dma k) && w.put.isNone)

/-- The answer to such a read has come. -/
def Device.dmaRead1 (d : Device) (k : Nat) : Bool := (d.engTake 6 (d.dmaC k).readAt none).isSome

/-- Channel `k` reads an element (R648); one that fails is known by its error code (R653). -/
def Device.dmaFetch (d : Device) (k : Fin 16) : Device :=
  let c := d.dmaC k
  match d.busRead (.dma k) c.readAt (esize c.cfg) with
  | (d', .ok v) => d'.setDma k { d'.dmaC k with buf := (d'.dmaC k).buf ++ [(v, 0)] }
  | (_, .wait) => d
  | (d', e) => d'.setDma k { d'.dmaC k with buf := (d'.dmaC k).buf ++ [(0, dmaCodeOf e)] }

/-- Channel `k` reads ahead, at most `n` elements (R649); a read whose answer has come is taken, whatever stops the channel. -/
def Device.dmaFill (d : Device) (k : Fin 16) (room : Nat) : Nat → Device
  | 0 => d
  | n + 1 => if d.dmaReads k room || d.dmaRead1 k then (d.dmaFetch k).dmaFill k room n else d

/-- The oldest element in flight, of value `v`, is written (R648, R653); at a unit in reset it waits with the other requests
there. A push that is dropped says so when it is served (R607). -/
def Device.dmaPut (d : Device) (k : Fin 16) (v : Word) : Device :=
  let c := d.dmaC k
  let a := c.cdst.toNat
  let drop := (d.engTake 6 a (some v)).isNone && d.pushDrops a
  match (d.setDma k { c with buf := c.buf.drop 1 }).busWrite (.dma k) a (esize c.cfg) v.toNat with
  | (_, .wait) => (match d.holdOf (.dma k) a (some v) with | .join w => d.addJoin w | _ => d)
  | (d, .ok _) => if drop then d.dmaError k 4 else d.dmaAdvance k
  | (d, e) => d.dmaError k (dmaCodeOf e)

/-- The oldest element in flight of channel `k` is written, or ends the run with its error (R653); with none in flight the
channel stands at an element boundary, where an error, a stop or an abort takes place (R653, R655, R656), or its read waits. -/
def Device.dmaOut (d : Device) (k : Fin 16) : Device :=
  match (d.dmaC k).buf with
  | (v, 0) :: _ => d.dmaPut k v
  | (_, e) :: _ => (d.setDma k { d.dmaC k with buf := (d.dmaC k).buf.drop 1 }).dmaError k e
  | [] =>
    if (d.dmaC k).stop = 0 ∧ (d.dmaC k).fail = none then d.engHold 6 (d.holdOf (.dma k) (d.dmaC k).readAt none)
    else if d.dmaReading k then d.engWait 6
    else if (d.dmaC k).fail.isSome then d.dmaFailed k
    else (d.dmaTakeBack k).1.dmaStopped k

/-- What is in flight behind an element that has failed completes (R653): at most `n` elements. -/
def Device.dmaFlush (d : Device) (k : Fin 16) : Nat → Device
  | 0 => d
  | n + 1 => if (d.dmaC k).fail.isSome then (d.dmaOut k).dmaFlush k n else d

/-- The running channel reads ahead and writes its next element; one whose source or destination is busy waits. -/
def Device.dmaStep (d : Device) (k : Fin 16) : Device :=
  ((((d.engBegin 6).dmaFill k ((d.dmaC k).ahead d.free) 4).dmaOut k).dmaFlush k 5).fresh

/-- The channel that runs, as the initiator it is. -/
def Device.dmaRuns (d : Device) : Option (Fin 16) :=
  (List.finRange 16).find? (fun k => decide ((d.dmaC k.val).st = .running))

def execDmaElement (s : State) : Host.Outcome State Fault Refusal :=
  s.run (fun d =>
    match (if d.resetsTaken then d.dmaRuns else none) with
    | some k => d.dmaStep k
    | none => d)

/-- What a reset finds in flight is written (R172, R656). -/
def Device.dmaDrain (d : Device) : Device :=
  (List.range 4).foldl (fun d _ =>
    match d.dmaRuns with
    | some k => if (d.dmaC k).stop = 3 then (d.dmaFill k 4 1).dmaOut k else d
    | none => d) d.dmaUnitReset

/-! ### The debug window (R846 to R848) -/

/-- ERR of DBG_MSTAT for an access of `n` bytes at `a`: an unaligned access to memory is ALIGN, to a register block a bus
error (R14, R435, R848). -/
def mstatErr (a n : Nat) : Acc → Nat
  | .bus 1 => if a % n = 0 ∨ isRegSpace a then 1 else 5
  | .bus 2 => 2
  | .dom _ => 3
  | .ok _ => 0
  | _ => 1

/-- The window access ends with ERR = `e`; a successful one with INC moves DBG_MADDR on. -/
def Device.windowDone (d : Device) (e n : Nat) (inc : Bool) : Device :=
  let g := d.dbg
  { (d.engDone 8) with dbg := { g with
    mbusy := none, merr := e, maddr := if inc && decide (e = 0) then g.maddr + wd n else g.maddr } }

/-- The level refuses the access (R830, R847, R848): at observe, writes and reads with an effect; a core operation goes on to
its domain violation. -/
def Device.windowRefused (d : Device) (wr : Bool) (a : Nat) : Bool :=
  match d.dbg.level with
  | 0 => !coreOp wr a
  | 1 => (wr || readUses a) && !coreOp wr a
  | _ => false

/-- A window read of `n` bytes. -/
def Device.windowRead (d : Device) (a n : Nat) (inc : Bool) : Device :=
  match d.busRead .debug a n with
  | (_, .wait) => d.engHold 8 (d.holdOf .debug a none)
  | (d, .ok v) => ({ d with dbg := { d.dbg with mdata := v } }).windowDone 0 n inc
  | (d, e) => d.windowDone (mstatErr a n e) n inc

/-- A window write of `n` bytes: the fabric accepts one whose unit is in reset (R846). -/
def Device.windowWrite (d : Device) (a n : Nat) (v : Word) (inc : Bool) : Device :=
  match d.busWrite .debug a n v.toNat with
  | (_, .wait) => if isRegSpace a then (d.post .debug a v).windowDone 0 n inc else d.engWait 8
  | (d, e) => d.windowDone (mstatErr a n e) n inc

/-- A window access completes; one whose target is busy waits, and none is made in a device reset (log 3). -/
def execDebugMemComplete (s : State) : Host.Outcome State Fault Refusal :=
  s.run (fun d =>
    match d.dbg.mbusy with
    | some (wr, size, inc, a, v) =>
      let n := 2 ^ size
      if !d.resetsTaken then d
      else if d.tagBars 8 then d.engWait 8
      else
      let d := d.engBegin 8
      if d.windowRefused wr a.toNat then d.windowDone 4 n inc
      else if wr then d.windowWrite a.toNat n v inc
      else d.windowRead a.toNat n inc
    | none => d)

end Sys2Proof.Machine
end

