-- ==== Sys2Proof/Machine/Exc.lean ====
section
/-! DEFINITION. How a Genha core runs an instruction: the fetch (R436, R536), taking an exception and lockup (R507 to
R534), the guard, the REP prefix (R485 to R497), the halts after an instruction (R840, R843). -/
namespace Sys2Proof.Machine

/-! ### Fetch (R436, R531, R536, R701) -/

/-- Core `c` may fetch at `a`: a word of flash, main SRAM or its own local SRAM (R436). -/
def fetchable (c a : Nat) : Bool :=
  decide (a % 4 = 0) && (match memRegion a with | some r => decide (r < 3) || decide (r = 4 + c) | none => false)

/-- What a fetch brings: the instruction, a failure with the SUB code of vector 1, or that it waits for its bank. -/
inductive Fetch where
  | ok
  | fail (sub : Nat)
  | wait
deriving DecidableEq, Repr

/-- A fetch by core `c` at `a` in the domain `trusted`. -/
def Device.fetchAt (d : Device) (c a : Nat) (trusted : Bool) : Device × Fetch :=
  if !fetchable c a || d.memIdle a then (d, .fail 0)
  else if d.memTrusted a != trusted then (d, .fail 3)
  else
    match d.fetchLine c a with
    | (d', some true) => (d', .ok)
    | (d', some false) => (d', .fail 1)
    | (d', none) => (d', .wait)

/-! ### Taking an exception (R507 to R518, R528, R529) -/

/-- An exception: vector, SUB code, fault address (R507, R546). -/
structure Trap where
  vec : Nat
  sub : Nat
  faddr : Word
deriving DecidableEq, Repr

/-- The initiator of core `c`. -/
def coreWho (c : Nat) : Who := .core ⟨c % 4, by omega⟩

/-- A change of core `c` while it runs: a core that its own access has reset keeps its reset values. -/
def Device.onCore (d : Device) (c : Nat) (f : Core → Core) : Device :=
  if (d.coreC c).st = .running then d.setCore c (f (d.coreC c)) else d

/-- The core is in lockup (R529). -/
def Device.lockup (d : Device) (c vec why : Nat) (ipc : Word) : Device :=
  let s := d.sys
  let d := { d with sys := { s with
    lockup := s.lockup.set (fun _ => 0) c (wd (vec + 0x100 * why + 0x80000000)),
    lockupPc := s.lockupPc.set (fun _ => 0) c ipc } }
  d.coreReset1 c

/-- The words of a task-state block, in the order of their addresses (R516). -/
def Core.tsbWords (k : Core) (spc faddr : Word) : List Word :=
  (List.range 31).map (fun i => k.reg (i + 1)) ++
    [spc, k.status, k.rpc, k.accLo, k.accHi, k.accst, faddr, k.estat, k.epc]

/-- The block at `a` lies wholly in main SRAM or in local SRAM of core `c`, not in an idle region (R517, R701). -/
def Device.tsbHome (d : Device) (c a : Nat) : Bool :=
  match memRegion a with
  | some r => (decide (r = 2) || decide (r = 4 + c)) && decide (memRegion (a + 159) = some r) && !d.mem.idle.getLsbD r
  | none => false

/-- The first address of the block that the open domain does not reach (R535). -/
def Device.tsbTrusted (d : Device) (a : Nat) : Option Nat :=
  ((List.range 40).map (fun i => a + 4 * i)).find? (fun x => d.memTrusted x)

/-- The domain check of a block write in the domain `trusted` (R517): a violation is recorded. -/
def Device.tsbCheck (d : Device) (c a : Nat) (trusted : Bool) : Device × Bool :=
  if !d.tsbHome c a then (d, false)
  else
    match (if trusted then none else d.tsbTrusted a) with
    | some x => (d.domViolation (coreWho c) x 0 true, false)
    | none => (d, true)

/-- The block is written (R516). -/
def Device.tsbWrite (d : Device) (c a : Nat) (ws : List Word) : Device :=
  (ws.zipIdx).foldl (fun d x => (d.memWrite (coreWho c) true (a + 4 * x.2) 4 x.1.toNat).1) d

/-- The core state of an entry through the shadow bank (R515). -/
def Core.enterShadow (k : Core) (spc : Word) : Core := { k with estat := k.status, epc := spc, status := setB k.status 3 true }
/-- The core state of an entry through the task-state block (R516). -/
def Core.enterBlock (k : Core) : Core := { k with estat := if k.sb then setB k.estat 3 true else k.estat }

/-- What every entry sets (R514): ECAUSE, FADDR, supervisor mode, the domain, IE = 0, the handler. -/
def Core.enterAll (k : Core) (t : Trap) (block trusted : Bool) (handler : Word) : Core :=
  { k with
    ecause := wd (t.vec + 0x100 * t.sub) ||| boolW block 16
    faddr := t.faddr
    status := setB (setB (setB k.status 0 true) 1 trusted) 2 false
    pc := handler
    rep := none
    st := .running }

/-- After an entry: a step ends, a pending HALT takes place, or the vector is caught (R840, R838, R844). -/
def Device.afterEntry (d : Device) (c vec : Nat) : Device :=
  let k := d.coreC c
  if k.stepping then d.haltCore c 2
  else if k.haltReq then d.haltOrBp c 1
  else if (d.lv (aDbgC c 14)).toNat.testBit vec then d.haltCore c 6
  else d

/-- The entry of trap `t` on core `c` with saved PC `spc`, once the entry word is known: the checks of reasons 3 to 5 of
R528 come before anything is saved. It waits for a tag where the block lies beyond the core (R131), and for the handler's
fetch. -/
def Device.enter (d : Device) (c : Nat) (t : Trap) (sync : Bool) (spc ipc entry : Word) (trusted : Bool) :
    Except Hold Device :=
  let k := d.coreC c
  let handler := entry &&& 0xFFFFFFFC
  let shadow := wb entry 0 && !k.sb
  let b := k.tsbp.toNat
  if sync && k.trusted && !trusted then .ok (d.lockup c t.vec 3 ipc)
  else
    let r := if shadow then (d, true) else d.tsbCheck c b trusted
    if !r.2 then .ok (r.1.lockup c t.vec 4 ipc)
    else if !shadow && d.overFabric (coreWho c) b && d.tagBars c then .error .held
    else
      match r.1.fetchAt c handler.toNat trusted with
      | (_, .wait) => .error .held
      | (d, .fail _) => .ok (d.lockup c t.vec 5 ipc)
      | (d, .ok) =>
        let d := if shadow then d else d.tsbWrite c b (k.tsbWords spc t.faddr)
        let d := d.onCore c (fun k => (if shadow then k.enterShadow spc else k.enterBlock).enterAll t (!shadow) trusted handler)
        .ok (d.afterEntry c t.vec)

/-- The address of the entry word of vector `v` (R510). -/
def Core.entryAddr (k : Core) (v : Nat) : Nat := ((k.vbase &&& 0xFFFFFF00) + wd (4 * v)).toNat

/-- Core `c` takes the exception `t`, synchronous or an interrupt, with saved PC `spc`; `ipc` is the address of the
instruction concerned (R529). Where a read waits for a flash bank at work or for a tag, the exception is taken later. -/
def Device.takeExc (d : Device) (c : Nat) (t : Trap) (sync : Bool) (spc ipc : Word) : Except Hold Device :=
  let k := d.coreC c
  let a := k.entryAddr t.vec
  if !wb k.vbase 0 then .ok (d.lockup c t.vec 1 ipc)
  else if !fetchable c a then .ok (d.lockup c t.vec 2 ipc)
  else if d.overFabric (coreWho c) a && d.tagBars c then .error .held
  else
    let trusted := d.memTrusted a
    match d.memRead (coreWho c) true a 4 with
    | (_, .wait) => .error .held
    | (d, .ok e) => d.enter c t sync spc ipc e (wb e 1 && trusted)
    | (d, _) => .ok (d.lockup c t.vec 2 ipc)

/-! ### The halts after an instruction (R838, R840, R843) -/

/-- A memory access that an instruction has made: address, bytes, direction, data. -/
structure Access where
  a : Nat
  n : Nat
  wr : Bool
  data : Word
deriving DecidableEq, Repr

/-- Watchpoint `w` of core `c` matches the access (R843). -/
def Device.wpMatch (d : Device) (c w : Nat) (x : Access) : Bool :=
  let ctl := d.lv (aDbgC c (9 + 2 * w))
  let m := wf ctl 11 8
  let bytes : Word := wd (2 ^ (8 * x.n) - 1)
  wb ctl 0 && (if x.wr then wb ctl 2 else wb ctl 1)
    && decide (x.a >>> m = (d.lv (aDbgC c (8 + 2 * w))).toNat >>> m)
    && (!wb ctl 3 || (x.data &&& bytes) == (d.lv (aDbgC c (12 + w)) &&& bytes))

/-- The lowest watchpoint of core `c` that one of the accesses matches. -/
def Device.wpHit (d : Device) (c : Nat) (l : List Access) : Option Nat :=
  (List.range 2).find? (fun w => l.any (fun x => d.wpMatch c w x))

/-- The halts at the boundary after an instruction of core `c` that has made the accesses `l`. -/
def Device.afterInstr (d : Device) (c : Nat) (l : List Access) : Device :=
  let k := d.coreC c
  let boundary := match k.rep with | none => true | some r => r.resumed && r.follower.isNone
  if k.st ≠ .running then d
  else
    match d.wpHit c l with
    | some w => (d.setDbgC c { d.dbgC c with wp := w }).haltCore c 4
    | none =>
      if k.stepping && boundary then d.haltCore c 2
      else if k.haltReq && !k.repBusy then d.haltOrBp c 1
      else d

/-! ### Running an instruction (R426, R430 to R433, R472, R484) -/

/-- The classes of R470. -/
inductive Cls where
  | alu
  | mac
  | mem
  | other
deriving DecidableEq, Repr

/-- What an instruction's own operation answers: it completes, having made accesses; it completes and has set the pc
itself; it is a REP prefix; it takes an exception; it is a system call; its access waits. -/
inductive Res where
  | done (d : Device) (l : List Access)
  | moved (d : Device)
  | pre (d : Device)
  | trap (d : Device) (t : Trap)
  | sys (d : Device) (code : Word)
  | wait (h : Hold)
deriving DecidableEq, Repr

/-- The guard passes (R430, R431). -/
def Core.guardOk (k : Core) (g : BitVec 4) : Bool :=
  let r := g.toNat % 8
  decide (r = 0) || ((k.reg r != 0) != g.getLsbD 3)

/-- The core begins an instruction: the breakpoint it resumed at no longer counts as met. -/
def Core.begun (k : Core) : Core := { k with bpSkip := false }
/-- The core has retired `n` instructions (R426) and goes on at `pc`. -/
def Core.retired (k : Core) (n : Nat) (pc : Word) : Core := { k with icount := k.icount + BitVec.ofNat 64 n, pc := pc }

/-- The instruction retires `n` times and the core goes on at `pc`. -/
def Device.retire (d : Device) (c n : Nat) (pc : Word) : Device := d.onCore c (fun k => k.retired n pc)

/-- An instruction without a prefix (R484), or how its access waits. -/
def Device.plain (d : Device) (c : Nat) (fetch : Device → Device × Fetch) (g : BitVec 4) (bad : Bool)
    (body : Device → Res) : Except Hold Device :=
  let k := d.coreC c
  let pc := k.pc
  match fetch d with
  | (_, .wait) => .error .held
  | (d, .fail sub) => d.takeExc c ⟨1, sub, pc⟩ true pc pc
  | (d, .ok) =>
    if bad || decide (g = 8) then d.takeExc c ⟨2, 0, 0⟩ true pc pc
    else if !k.guardOk g then .ok ((d.retire c 1 (pc + 4)).afterInstr c [])
    else
      match body d with
      | .done d l => .ok ((d.retire c 1 (pc + 4)).afterInstr c l)
      | .moved d => .ok ((d.onCore c (fun k => k.retired 1 k.pc)).afterInstr c [])
      | .pre d => .ok (d.onCore c (fun k => { k with pc := pc + 4 }))
      | .trap d t => d.takeExc c t true pc pc
      | .sys d code => (d.retire c 1 (pc + 4)).takeExc c ⟨8, 0, code⟩ true (pc + 4) pc
      | .wait h => .error h

/-- One repetition has run or consumed its count (R490): after the last the core goes on behind the follower. -/
def Device.repNext (d : Device) (c : Nat) (l : List Access) : Device :=
  let d := d.onCore c (fun k =>
    match k.rep with
    | some r =>
      if r.left ≤ 1 then { k with rep := none, pc := k.pc + 4, icount := k.icount + 1 }
      else { k with rep := some { r with left := r.left - 1 }, icount := k.icount + 1 }
    | none => k)
  d.afterInstr c l

/-- A repetition of the follower (R490, R494). -/
def Device.runRep (d : Device) (c : Nat) (g : BitVec 4) (left : Nat) (body : Device → Res) : Except Hold Device :=
  let k := d.coreC c
  if !k.guardOk g then .ok (d.repNext c [])
  else
    match body d with
    | .done d l => .ok (d.repNext c l)
    | .trap d t => (d.onCore c (fun k => { k with rpc := wd left })).takeExc c t true k.pc k.pc
    | .wait h => .error h
    | _ => .error .stall

/-- A refusal of the follower of a REP at its fetch (R486, R496): for a REP it is an exception of the REP, with RPC = 0. -/
def Device.repTrap (d : Device) (c : Nat) (r : Rep) (pc : Word) (vec sub : Nat) (faddr : Word) :
    Except Hold Device :=
  if r.resumed then d.takeExc c ⟨vec, sub, faddr⟩ true pc pc
  else (d.onCore c (fun k => { k with rpc := 0 })).takeExc c ⟨vec, sub, pc⟩ true r.repPc r.repPc

/-- The follower of a REP, or the instruction that RFE resumes, arrives (R486, R489, R496). -/
def Device.firstRep (d : Device) (c : Nat) (fetch : Device → Device × Fetch) (g : BitVec 4) (bad : Bool) (cls : Cls)
    (i : Option Instr) (r : Rep) (body : Device → Res) : Except Hold Device :=
  let pc := (d.coreC c).pc
  match fetch d with
  | (_, .wait) => .error .held
  | (d, .fail sub) => d.repTrap c r pc 1 sub pc
  | (d, .ok) =>
    if bad || decide (g = 8) then d.repTrap c r pc 2 0 0
    else if decide (cls = .other) || decide ((if r.isI then 256 else 64) < r.left) then d.repTrap c r pc 4 0 0
    else if r.left = 0 then .ok ((d.onCore c (fun k => { k with rep := none })).retire c 2 (pc + 4) |>.afterInstr c [])
    else
      let d := d.onCore c (fun k => { k with
        rep := some { r with follower := i }
        rpc := if r.resumed then 0 else k.rpc
        icount := k.icount + (if r.resumed then 0 else 1) })
      d.runRep c g r.left body

/-- An interrupt is taken at the boundary core `c` stands at, before its next instruction (R422, R464, R493, R508). -/
def Device.irqDue (d : Device) (c : Nat) : Bool :=
  let k := d.coreC c
  k.ie && !k.halted && k.hand.isNone && !k.repBusy && !d.accepted c && (d.offerOf c).isSome

/-- The instruction of core `c` has run, or its access waits and a later command runs it. -/
def Device.ran (d : Device) (c : Nat) : Except Hold Device → Device
  | .ok d' => d'.engDone c
  | .error h => d.engHold c h

/-- Core `c` runs the instruction `i` with guard `g`, class `cls` and operation `body`; `bad` marks an undefined
encoding, which has no `i`. It does nothing while the core does not execute, or when a repetition of another instruction is under
way; a breakpoint at its address halts the core instead (R842), ahead of an interrupt (R856), and an interrupt is taken first.
An instruction whose access does not complete holds a tag, waits for one (R130, R131) or stands at its unit (R890), and is run by
a later command. -/
def Device.runInstr (d : Device) (c : Nat) (fetch : Device → Device × Fetch) (g : BitVec 4) (bad : Bool) (cls : Cls)
    (i : Option Instr) (body : Device → Res) : Device :=
  let k := d.coreC c
  if !k.live then d
  else
    match d.bpAt c with
    | some b => d.bpHalt c b
    | none =>
      if d.irqDue c then d
      else
        let d' := (d.setCore c k.begun).engBegin c
        match k.rep with
        | none => d.ran c (d'.plain c fetch g bad body)
        | some r =>
          match r.follower with
          | none => d.ran c (d'.firstRep c fetch g bad cls i r body)
          | some j => if i = some j then d.ran c (d'.runRep c g r.left body) else d

/-- The fetch of the instruction at the pc of core `c` (R436, R536). -/
def Device.fetchPc (c : Nat) (d : Device) : Device × Fetch :=
  let k := d.coreC c
  d.fetchAt c k.pc.toNat k.trusted

/-- Core `c` runs a defined instruction. -/
def Device.coreInstr (d : Device) (c : Nat) (g : BitVec 4) (cls : Cls) (i : Instr) (body : Device → Res) : Device :=
  d.runInstr c (Device.fetchPc c) g false cls (some i) body

/-- A supervisor instruction (R483): in user mode the privilege exception. -/
def Device.asSup (d : Device) (c : Nat) (sup : Bool) (f : Device → Res) : Res :=
  if sup && !(d.coreC c).sup then .trap d ⟨3, 0, 0⟩ else f d

end Sys2Proof.Machine
end

