-- ==== Sys2Proof/Machine/Alu.lean ====
section
/-! DEFINITION. The ALU instructions, the compares, multiply and accumulate (R473 to R476). -/
namespace Sys2Proof.Machine

/-! ### Results (R473) -/

/-- The signed extension of an immediate (R9). -/
def sextW {n : Nat} (v : BitVec n) : Word := v.signExtend 32

/-! The value each instruction writes, from its first operand `x` and its second `y` or shift count `n`. -/

def aluAdd (x y : Word) : Word := x + y
def aluSub (x y : Word) : Word := x - y
def aluAnd (x y : Word) : Word := x &&& y
def aluOr (x y : Word) : Word := x ||| y
def aluXor (x y : Word) : Word := x ^^^ y
def aluShl (x y : Word) : Word := x <<< (y.toNat % 32)
def aluShr (x y : Word) : Word := x >>> (y.toNat % 32)
def aluSar (x y : Word) : Word := x.sshiftRight (y.toNat % 32)
def aluCeq (x y : Word) : Word := boolW (x == y) 0
def aluCne (x y : Word) : Word := boolW (x != y) 0
def aluClt (x y : Word) : Word := boolW (x.slt y) 0
def aluCltu (x y : Word) : Word := boolW (x.ult y) 0
def aluCle (x y : Word) : Word := boolW (x.sle y) 0
def aluCleu (x y : Word) : Word := boolW (x.ule y) 0
def aluAddi (x y : Word) : Word := x + y
def aluAndi (x y : Word) : Word := x &&& y
def aluOri (x y : Word) : Word := x ||| y
def aluXori (x y : Word) : Word := x ^^^ y
def aluCeqi (x y : Word) : Word := boolW (x == y) 0
def aluCnei (x y : Word) : Word := boolW (x != y) 0
def aluClti (x y : Word) : Word := boolW (x.slt y) 0
def aluCltui (x y : Word) : Word := boolW (x.ult y) 0
def aluClei (x y : Word) : Word := boolW (x.sle y) 0
def aluCleui (x y : Word) : Word := boolW (x.ule y) 0
def aluShli (x : Word) (n : Nat) : Word := x <<< n
def aluShri (x : Word) (n : Nat) : Word := x >>> n
def aluSari (x : Word) (n : Nat) : Word := x.sshiftRight n

/-- The operation of an instruction that writes `f` of the core's registers to gD (R417, R473). -/
def aluBody (c : Nat) (dst : Fin 32) (f : Core → Word) (d : Device) : Res :=
  .done (d.onCore c (fun k => k.put dst.val (f k))) []

/-! ### Register forms (R473) -/

def execAdd (c : Fin 4) (g : BitVec 4) (d a b : Fin 32) (s : State) : Host.Outcome State Fault Refusal :=
  s.run (fun v => v.coreInstr c.val g .alu (.add c g d a b)
    (aluBody c.val d (fun k => aluAdd (k.reg a.val) (k.reg b.val))))

def execSub (c : Fin 4) (g : BitVec 4) (d a b : Fin 32) (s : State) : Host.Outcome State Fault Refusal :=
  s.run (fun v => v.coreInstr c.val g .alu (.sub c g d a b)
    (aluBody c.val d (fun k => aluSub (k.reg a.val) (k.reg b.val))))

def execAnd (c : Fin 4) (g : BitVec 4) (d a b : Fin 32) (s : State) : Host.Outcome State Fault Refusal :=
  s.run (fun v => v.coreInstr c.val g .alu (.and c g d a b)
    (aluBody c.val d (fun k => aluAnd (k.reg a.val) (k.reg b.val))))

def execOr (c : Fin 4) (g : BitVec 4) (d a b : Fin 32) (s : State) : Host.Outcome State Fault Refusal :=
  s.run (fun v => v.coreInstr c.val g .alu (.or c g d a b)
    (aluBody c.val d (fun k => aluOr (k.reg a.val) (k.reg b.val))))

def execXor (c : Fin 4) (g : BitVec 4) (d a b : Fin 32) (s : State) : Host.Outcome State Fault Refusal :=
  s.run (fun v => v.coreInstr c.val g .alu (.xor c g d a b)
    (aluBody c.val d (fun k => aluXor (k.reg a.val) (k.reg b.val))))

def execShl (c : Fin 4) (g : BitVec 4) (d a b : Fin 32) (s : State) : Host.Outcome State Fault Refusal :=
  s.run (fun v => v.coreInstr c.val g .alu (.shl c g d a b)
    (aluBody c.val d (fun k => aluShl (k.reg a.val) (k.reg b.val))))

def execShr (c : Fin 4) (g : BitVec 4) (d a b : Fin 32) (s : State) : Host.Outcome State Fault Refusal :=
  s.run (fun v => v.coreInstr c.val g .alu (.shr c g d a b)
    (aluBody c.val d (fun k => aluShr (k.reg a.val) (k.reg b.val))))

def execSar (c : Fin 4) (g : BitVec 4) (d a b : Fin 32) (s : State) : Host.Outcome State Fault Refusal :=
  s.run (fun v => v.coreInstr c.val g .alu (.sar c g d a b)
    (aluBody c.val d (fun k => aluSar (k.reg a.val) (k.reg b.val))))

def execCeq (c : Fin 4) (g : BitVec 4) (d a b : Fin 32) (s : State) : Host.Outcome State Fault Refusal :=
  s.run (fun v => v.coreInstr c.val g .alu (.ceq c g d a b)
    (aluBody c.val d (fun k => aluCeq (k.reg a.val) (k.reg b.val))))

def execCne (c : Fin 4) (g : BitVec 4) (d a b : Fin 32) (s : State) : Host.Outcome State Fault Refusal :=
  s.run (fun v => v.coreInstr c.val g .alu (.cne c g d a b)
    (aluBody c.val d (fun k => aluCne (k.reg a.val) (k.reg b.val))))

def execClt (c : Fin 4) (g : BitVec 4) (d a b : Fin 32) (s : State) : Host.Outcome State Fault Refusal :=
  s.run (fun v => v.coreInstr c.val g .alu (.clt c g d a b)
    (aluBody c.val d (fun k => aluClt (k.reg a.val) (k.reg b.val))))

def execCltu (c : Fin 4) (g : BitVec 4) (d a b : Fin 32) (s : State) : Host.Outcome State Fault Refusal :=
  s.run (fun v => v.coreInstr c.val g .alu (.cltu c g d a b)
    (aluBody c.val d (fun k => aluCltu (k.reg a.val) (k.reg b.val))))

def execCle (c : Fin 4) (g : BitVec 4) (d a b : Fin 32) (s : State) : Host.Outcome State Fault Refusal :=
  s.run (fun v => v.coreInstr c.val g .alu (.cle c g d a b)
    (aluBody c.val d (fun k => aluCle (k.reg a.val) (k.reg b.val))))

def execCleu (c : Fin 4) (g : BitVec 4) (d a b : Fin 32) (s : State) : Host.Outcome State Fault Refusal :=
  s.run (fun v => v.coreInstr c.val g .alu (.cleu c g d a b)
    (aluBody c.val d (fun k => aluCleu (k.reg a.val) (k.reg b.val))))

/-! ### Immediate forms (R473) -/

def execAddi (c : Fin 4) (g : BitVec 4) (d a : Fin 32) (imm : BitVec 12) (s : State) :
    Host.Outcome State Fault Refusal :=
  s.run (fun v => v.coreInstr c.val g .alu (.addi c g d a imm)
    (aluBody c.val d (fun k => aluAddi (k.reg a.val) (sextW imm))))

def execAndi (c : Fin 4) (g : BitVec 4) (d a : Fin 32) (imm : BitVec 12) (s : State) :
    Host.Outcome State Fault Refusal :=
  s.run (fun v => v.coreInstr c.val g .alu (.andi c g d a imm)
    (aluBody c.val d (fun k => aluAndi (k.reg a.val) (sextW imm))))

def execOri (c : Fin 4) (g : BitVec 4) (d a : Fin 32) (imm : BitVec 12) (s : State) :
    Host.Outcome State Fault Refusal :=
  s.run (fun v => v.coreInstr c.val g .alu (.ori c g d a imm)
    (aluBody c.val d (fun k => aluOri (k.reg a.val) (sextW imm))))

def execXori (c : Fin 4) (g : BitVec 4) (d a : Fin 32) (imm : BitVec 12) (s : State) :
    Host.Outcome State Fault Refusal :=
  s.run (fun v => v.coreInstr c.val g .alu (.xori c g d a imm)
    (aluBody c.val d (fun k => aluXori (k.reg a.val) (sextW imm))))

def execCeqi (c : Fin 4) (g : BitVec 4) (d a : Fin 32) (imm : BitVec 12) (s : State) :
    Host.Outcome State Fault Refusal :=
  s.run (fun v => v.coreInstr c.val g .alu (.ceqi c g d a imm)
    (aluBody c.val d (fun k => aluCeqi (k.reg a.val) (sextW imm))))

def execCnei (c : Fin 4) (g : BitVec 4) (d a : Fin 32) (imm : BitVec 12) (s : State) :
    Host.Outcome State Fault Refusal :=
  s.run (fun v => v.coreInstr c.val g .alu (.cnei c g d a imm)
    (aluBody c.val d (fun k => aluCnei (k.reg a.val) (sextW imm))))

def execClti (c : Fin 4) (g : BitVec 4) (d a : Fin 32) (imm : BitVec 12) (s : State) :
    Host.Outcome State Fault Refusal :=
  s.run (fun v => v.coreInstr c.val g .alu (.clti c g d a imm)
    (aluBody c.val d (fun k => aluClti (k.reg a.val) (sextW imm))))

def execCltui (c : Fin 4) (g : BitVec 4) (d a : Fin 32) (imm : BitVec 12) (s : State) :
    Host.Outcome State Fault Refusal :=
  s.run (fun v => v.coreInstr c.val g .alu (.cltui c g d a imm)
    (aluBody c.val d (fun k => aluCltui (k.reg a.val) (sextW imm))))

def execClei (c : Fin 4) (g : BitVec 4) (d a : Fin 32) (imm : BitVec 12) (s : State) :
    Host.Outcome State Fault Refusal :=
  s.run (fun v => v.coreInstr c.val g .alu (.clei c g d a imm)
    (aluBody c.val d (fun k => aluClei (k.reg a.val) (sextW imm))))

def execCleui (c : Fin 4) (g : BitVec 4) (d a : Fin 32) (imm : BitVec 12) (s : State) :
    Host.Outcome State Fault Refusal :=
  s.run (fun v => v.coreInstr c.val g .alu (.cleui c g d a imm)
    (aluBody c.val d (fun k => aluCleui (k.reg a.val) (sextW imm))))

def execShli (c : Fin 4) (g : BitVec 4) (d a : Fin 32) (sh : BitVec 5) (s : State) :
    Host.Outcome State Fault Refusal :=
  s.run (fun v => v.coreInstr c.val g .alu (.shli c g d a sh)
    (aluBody c.val d (fun k => aluShli (k.reg a.val) sh.toNat)))

def execShri (c : Fin 4) (g : BitVec 4) (d a : Fin 32) (sh : BitVec 5) (s : State) :
    Host.Outcome State Fault Refusal :=
  s.run (fun v => v.coreInstr c.val g .alu (.shri c g d a sh)
    (aluBody c.val d (fun k => aluShri (k.reg a.val) sh.toNat)))

def execSari (c : Fin 4) (g : BitVec 4) (d a : Fin 32) (sh : BitVec 5) (s : State) :
    Host.Outcome State Fault Refusal :=
  s.run (fun v => v.coreInstr c.val g .alu (.sari c g d a sh)
    (aluBody c.val d (fun k => aluSari (k.reg a.val) sh.toNat)))

def execLui (c : Fin 4) (g : BitVec 4) (d : Fin 32) (imm : BitVec 16) (s : State) : Host.Outcome State Fault Refusal :=
  s.run (fun v => v.coreInstr c.val g .alu (.lui c g d imm) (aluBody c.val d (fun _ => imm ++ (0 : BitVec 16))))

def execOrl (c : Fin 4) (g : BitVec 4) (d : Fin 32) (imm : BitVec 16) (s : State) : Host.Outcome State Fault Refusal :=
  s.run (fun v => v.coreInstr c.val g .alu (.orl c g d imm)
    (aluBody c.val d (fun k => k.reg d.val ||| imm.setWidth 32)))

/-! ### Multiply and accumulate (R458, R459, R474 to R476) -/

/-- A product goes to the accumulator and its low word to gD (R474, R475). -/
def mulBody (c : Nat) (dst : Fin 32) (p : Core → DWord) (d : Device) : Res :=
  .done (d.onCore c (fun k => { (k.put dst.val ((p k).setWidth 32)) with acc := p k })) []

def execMul (c : Fin 4) (g : BitVec 4) (d a b : Fin 32) (s : State) : Host.Outcome State Fault Refusal :=
  s.run (fun v => v.coreInstr c.val g .alu (.mul c g d a b)
    (mulBody c.val d (fun k => (k.reg a.val).signExtend 64 * (k.reg b.val).signExtend 64)))

def execMulu (c : Fin 4) (g : BitVec 4) (d a b : Fin 32) (s : State) : Host.Outcome State Fault Refusal :=
  s.run (fun v => v.coreInstr c.val g .alu (.mulu c g d a b)
    (mulBody c.val d (fun k => (k.reg a.val).setWidth 64 * (k.reg b.val).setWidth 64)))

/-- `p` is added to the accumulator (R459): out of range it sets OV, and wraps or saturates by SAT. -/
def Core.accAdd (k : Core) (p : Int) : Core :=
  let v := k.acc.toInt + p
  let lo : Int := -0x8000000000000000
  let hi : Int := 0x7FFFFFFFFFFFFFFF
  if lo ≤ v ∧ v ≤ hi then { k with acc := BitVec.ofInt 64 v }
  else { k with
    acc := BitVec.ofInt 64 (if wb k.accst 0 then clampI v lo hi else v)
    accst := setB k.accst 8 true }

/-- The operation of MAC. -/
def macBody (c : Nat) (a b : Fin 32) (d : Device) : Res :=
  .done (d.onCore c (fun k => k.accAdd ((k.reg a.val).toInt * (k.reg b.val).toInt))) []

def execMac (c : Fin 4) (g : BitVec 4) (a b : Fin 32) (s : State) : Host.Outcome State Fault Refusal :=
  s.run (fun v => v.coreInstr c.val g .mac (.mac c g a b) (macBody c.val a b))

/-- RDACC (R474, R506): the accumulator rounded by `n` and clamped to 32 bits, with OV when it was clamped. -/
def Core.rdacc (k : Core) (dst : Fin 32) (n : Nat) : Core :=
  let v := rnd k.acc.toInt n
  let lo : Int := -0x80000000
  let hi : Int := 0x7FFFFFFF
  let k := if lo ≤ v ∧ v ≤ hi then k else { k with accst := setB k.accst 8 true }
  k.put dst.val (wI (clampI v lo hi))

def execRdacc (c : Fin 4) (g : BitVec 4) (d : Fin 32) (sh : BitVec 5) (s : State) : Host.Outcome State Fault Refusal :=
  s.run (fun v => v.coreInstr c.val g .alu (.rdacc c g d sh)
    (fun v => .done (v.onCore c.val (fun k => k.rdacc d sh.toNat)) []))

end Sys2Proof.Machine
end

