-- ==== Sys2Proof/Machine/Branch.lean ====
section
/-! DEFINITION. Branches, jumps and calls (R478, R479, R502). -/
namespace Sys2Proof.Machine

/-- The exception of a branch to `t` by core `c`, if any (R479, R536, R701). -/
def Device.targetTrap (d : Device) (c : Nat) (t : Word) : Option Trap :=
  if !fetchable c t.toNat || d.memIdle t.toNat then some ⟨1, 2, t⟩
  else if d.memTrusted t.toNat != (d.coreC c).trusted then some ⟨1, 3, t⟩
  else none

/-- The branch to `t` is taken; with `link` g30 takes the return address. -/
def jumpTo (c : Nat) (t : Word) (link : Bool) (d : Device) : Res :=
  match d.targetTrap c t with
  | some e => .trap d e
  | none => .moved (d.onCore c (fun k => { (if link then k.put 30 (k.pc + 4) else k) with pc := t }))

/-- The target of a relative branch of core `c` (R478). -/
def Device.relTarget (d : Device) (c : Nat) {n : Nat} (off : BitVec n) : Word := (d.coreC c).pc + 4 * sextW off

def execBra (c : Fin 4) (g : BitVec 4) (off : BitVec 22) (s : State) : Host.Outcome State Fault Refusal :=
  s.run (fun v => v.coreInstr c.val g .other (.bra c g off) (fun v => jumpTo c.val (v.relTarget c.val off) false v))
def execBsr (c : Fin 4) (g : BitVec 4) (off : BitVec 22) (s : State) : Host.Outcome State Fault Refusal :=
  s.run (fun v => v.coreInstr c.val g .other (.bsr c g off) (fun v => jumpTo c.val (v.relTarget c.val off) true v))
def execBz (c : Fin 4) (g : BitVec 4) (t : Fin 32) (off : BitVec 17) (s : State) : Host.Outcome State Fault Refusal :=
  s.run (fun v => v.coreInstr c.val g .other (.bz c g t off)
    (fun v => if (v.coreC c.val).reg t.val = 0 then jumpTo c.val (v.relTarget c.val off) false v else .done v []))
def execBnz (c : Fin 4) (g : BitVec 4) (t : Fin 32) (off : BitVec 17) (s : State) : Host.Outcome State Fault Refusal :=
  s.run (fun v => v.coreInstr c.val g .other (.bnz c g t off)
    (fun v => if (v.coreC c.val).reg t.val ≠ 0 then jumpTo c.val (v.relTarget c.val off) false v else .done v []))
def execJmp (c : Fin 4) (g : BitVec 4) (a : Fin 32) (s : State) : Host.Outcome State Fault Refusal :=
  s.run (fun v => v.coreInstr c.val g .other (.jmp c g a) (fun v => jumpTo c.val ((v.coreC c.val).reg a.val) false v))
def execJsr (c : Fin 4) (g : BitVec 4) (a : Fin 32) (s : State) : Host.Outcome State Fault Refusal :=
  s.run (fun v => v.coreInstr c.val g .other (.jsr c g a) (fun v => jumpTo c.val ((v.coreC c.val).reg a.val) true v))

end Sys2Proof.Machine
end

