-- ==== Sys2Proof/Machine/Genha.lean ====
section
/-! DEFINITION. The words of Genha instructions (R468 to R471, R485): which instruction a word is, with its fields. A
command of the table brings its instruction with its fields; this is the reading of its word that R468 to R471 give. -/
namespace Sys2Proof.Machine

/-- The register field that begins at bit `lo` (R468). -/
def regField (w : Word) (lo : Nat) : Fin 32 := ⟨w.toNat / 2 ^ lo % 32, Nat.mod_lt _ (by decide)⟩
/-- D or the source, A, B of a word (R468). -/
def fldD (w : Word) : Fin 32 := regField w 17
def fldA (w : Word) : Fin 32 := regField w 12
def fldB (w : Word) : Fin 32 := regField w 7
/-- The guard (R430). -/
def fldG (w : Word) : BitVec 4 := w.extractLsb' 28 4
/-- IMM12 and the shift count in its low bits (R468, R473). -/
def fldImm (w : Word) : BitVec 12 := w.extractLsb' 0 12
def fldSh (w : Word) : BitVec 5 := w.extractLsb' 0 5

/-- Major 0x01, format R: the instruction of FUNC (R470). -/
def aluWord (c : Fin 4) (w : Word) : Option Instr :=
  let g := fldG w
  let d := fldD w
  let a := fldA w
  let b := fldB w
  match wf w 6 0 with
  | 0x00 => some (.add c g d a b) | 0x01 => some (.sub c g d a b) | 0x02 => some (.and c g d a b)
  | 0x03 => some (.or c g d a b) | 0x04 => some (.xor c g d a b) | 0x05 => some (.shl c g d a b)
  | 0x06 => some (.shr c g d a b) | 0x07 => some (.sar c g d a b) | 0x08 => some (.ceq c g d a b)
  | 0x09 => some (.cne c g d a b) | 0x0A => some (.clt c g d a b) | 0x0B => some (.cltu c g d a b)
  | 0x0C => some (.cle c g d a b) | 0x0D => some (.cleu c g d a b) | 0x0E => some (.mul c g d a b)
  | 0x0F => some (.mulu c g d a b)
  | _ => none

/-- Majors 0x02 to 0x0F, format I (R470, R473, R474). -/
def immWord (c : Fin 4) (w : Word) : Option Instr :=
  let g := fldG w
  let d := fldD w
  let a := fldA w
  let i := fldImm w
  let short := decide (wf w 11 5 = 0)
  match wf w 27 22 with
  | 0x02 => some (.addi c g d a i) | 0x03 => some (.andi c g d a i) | 0x04 => some (.ori c g d a i)
  | 0x05 => some (.xori c g d a i)
  | 0x06 => if short then some (.shli c g d a (fldSh w)) else none
  | 0x07 => if short then some (.shri c g d a (fldSh w)) else none
  | 0x08 => if short then some (.sari c g d a (fldSh w)) else none
  | 0x09 => some (.ceqi c g d a i) | 0x0A => some (.cnei c g d a i) | 0x0B => some (.clti c g d a i)
  | 0x0C => some (.cltui c g d a i) | 0x0D => some (.clei c g d a i) | 0x0E => some (.cleui c g d a i)
  | 0x0F => if short && decide (wf w 16 12 = 0) then some (.rdacc c g d (fldSh w)) else none
  | _ => none

/-- The load or store of OP (R470). -/
def memOp (c : Fin 4) (g : BitVec 4) (op : Nat) (d : Fin 32) (am : AddrMode) : Instr :=
  match op with
  | 0 => .ldb c g d am | 1 => .ldbu c g d am | 2 => .ldh c g d am | 3 => .ldhu c g d am
  | 4 => .ldw c g d am | 5 => .stb c g d am | 6 => .sth c g d am | _ => .stw c g d am

/-- The addressing mode of format M (R471). -/
def modeOf (w : Word) : Option AddrMode :=
  let bare := decide (wf w 11 7 = 0) && decide (wf w 4 3 = 0)
  match wf w 6 5 with
  | 0 => some (.index (fldA w) (fldB w) (w.extractLsb' 3 2))
  | 1 => if bare then some (.post (fldA w)) else none
  | 2 => if bare then some (.pre (fldA w)) else none
  | _ => none

/-- Majors 0x28 to 0x2D: branches and calls (R470). -/
def branchWord (c : Fin 4) (w : Word) : Option Instr :=
  let g := fldG w
  let jump := decide (wf w 21 17 = 0) && decide (wf w 11 0 = 0)
  match wf w 27 22 with
  | 0x28 => some (.bra c g (w.extractLsb' 0 22))
  | 0x29 => some (.bsr c g (w.extractLsb' 0 22))
  | 0x2A => some (.bz c g (fldD w) (w.extractLsb' 0 17))
  | 0x2B => some (.bnz c g (fldD w) (w.extractLsb' 0 17))
  | 0x2C => if jump then some (.jmp c g (fldA w)) else none
  | 0x2D => if jump then some (.jsr c g (fldA w)) else none
  | _ => none

/-- Majors 0x30 to 0x38: system instructions and the prefix (R470, R485). An MFS or MTS of a number that has a command of its
own is an `mfs` or `mts`. -/
def sysWord (c : Fin 4) (w : Word) : Option Instr :=
  let g := fldG w
  let bare := decide (wf w 21 0 = 0)
  match wf w 27 22 with
  | 0x30 => if wf w 16 10 = 0 then some (.mfs c g (fldD w) (w.extractLsb' 0 10)) else none
  | 0x31 => if wf w 16 10 = 0 then some (.mts c g (w.extractLsb' 0 10) (fldD w)) else none
  | 0x32 => if wf w 21 16 = 0 then some (.sys c g (w.extractLsb' 0 16)) else none
  | 0x33 => if bare then some (.rfe c g) else none
  | 0x34 => if bare then some (.sleep c g) else none
  | 0x35 => if bare then some (.fence c g) else none
  | 0x38 =>
    if wf w 19 17 ≠ 0 ∨ wf w 11 8 ≠ 0 then none
    else if wb w 21 then some (.repI c g (wb w 20) (fldA w) (w.extractLsb' 0 8))
    else if wb w 20 || decide (wf w 7 0 ≤ 63) then some (.rep c g (wb w 20) (fldA w) (w.extractLsb' 0 8))
    else none
  | _ => none

/-- The instruction that word `w` is on core `c`; none for an undefined encoding (R468 to R471). -/
def genhaDecode (c : Fin 4) (w : Word) : Option Instr :=
  let m := wf w 27 22
  let g := fldG w
  if m = 0x01 then aluWord c w
  else if m ≤ 0x0F then immWord c w
  else if m = 0x10 then (if wb w 16 then none else some (.lui c g (fldD w) (w.extractLsb' 0 16)))
  else if m = 0x11 then (if wb w 16 then none else some (.orl c g (fldD w) (w.extractLsb' 0 16)))
  else if m = 0x12 then (if wf w 21 17 = 0 ∧ wf w 6 0 = 0 then some (.mac c g (fldA w) (fldB w)) else none)
  else if m = 0x13 then (if wf w 21 17 = 0 ∧ wf w 6 0 = 0 then some (.mach c g (fldA w) (fldB w)) else none)
  else if 0x18 ≤ m ∧ m ≤ 0x1F then some (memOp c g (m - 0x18) (fldD w) (.offset (fldA w) (fldImm w)))
  else if m = 0x20 then (modeOf w).map (memOp c g (wf w 2 0) (fldD w))
  else if m ≤ 0x2D then branchWord c w
  else sysWord c w

/-- The word takes the illegal-instruction exception: an undefined encoding or guard 0b1000 (R433, R469). -/
def undefinedWord (w : Word) : Bool := decide (wf w 31 28 = 8) || (genhaDecode 0 w).isNone

end Sys2Proof.Machine
end

