-- ==== Sys2Proof/Machine/LoadStore.lean ====
section
/-! DEFINITION. Loads and stores, MACH (R434 to R441, R476, R477). -/
namespace Sys2Proof.Machine

/-! ### Addresses (R435, R437) -/

/-- The effective address of an access of `n` bytes (R437). -/
def Core.ea (k : Core) (am : AddrMode) (n : Nat) : Word :=
  match am with
  | .offset a imm => k.reg a.val + sextW imm
  | .post a => k.reg a.val
  | .pre a => k.reg a.val - wd n
  | .index a b sh => k.reg a.val + k.reg b.val <<< sh.toNat

/-- The update of gA (R437 to R439). -/
def Core.eaUpdate (k : Core) (am : AddrMode) (n : Nat) : Core :=
  match am with
  | .post a => k.put a.val (k.reg a.val + wd n)
  | .pre a => k.put a.val (k.reg a.val - wd n)
  | .offset _ _ => k
  | .index _ _ _ => k

/-- The access breaks the alignment rule of memory regions (R435). -/
def unalignedMem (a n : Nat) : Bool := (memRegion a).isSome && decide (a % n ≠ 0)


/-! ### Loads -/

/-- What a load makes of the bytes read (R434). -/
def loadB (v : Word) : Word := (v.setWidth 8).signExtend 32
def loadBu (v : Word) : Word := v &&& 0xFF
def loadH (v : Word) : Word := (v.setWidth 16).signExtend 32
def loadHu (v : Word) : Word := v &&& 0xFFFF
def loadW (v : Word) : Word := v

/-- The operation of a load of `n` bytes (R434 to R440): the loaded value wins over the update. -/
def loadBody (c n : Nat) (dst : Fin 32) (am : AddrMode) (f : Word → Word) (d : Device) : Res :=
  let a := (d.coreC c).ea am n
  if unalignedMem a.toNat n then .trap d ⟨5, 0, a⟩
  else
    match d.busRead (coreWho c) a.toNat n with
    | (d, .ok v) => .done (d.onCore c (fun k => (k.eaUpdate am n).put dst.val (f v))) [⟨a.toNat, n, false, v⟩]
    | (_, .wait) => .wait (d.holdOf (coreWho c) a.toNat none)
    | (d, .bus sub) => .trap d ⟨7, sub, a⟩
    | (d, .dom sub) => .trap d ⟨6, sub, a⟩

def execLdb (c : Fin 4) (g : BitVec 4) (d : Fin 32) (am : AddrMode) (s : State) : Host.Outcome State Fault Refusal :=
  s.run (fun v => v.coreInstr c.val g .mem (.ldb c g d am) (loadBody c.val 1 d am loadB))
def execLdbu (c : Fin 4) (g : BitVec 4) (d : Fin 32) (am : AddrMode) (s : State) : Host.Outcome State Fault Refusal :=
  s.run (fun v => v.coreInstr c.val g .mem (.ldbu c g d am) (loadBody c.val 1 d am loadBu))
def execLdh (c : Fin 4) (g : BitVec 4) (d : Fin 32) (am : AddrMode) (s : State) : Host.Outcome State Fault Refusal :=
  s.run (fun v => v.coreInstr c.val g .mem (.ldh c g d am) (loadBody c.val 2 d am loadH))
def execLdhu (c : Fin 4) (g : BitVec 4) (d : Fin 32) (am : AddrMode) (s : State) : Host.Outcome State Fault Refusal :=
  s.run (fun v => v.coreInstr c.val g .mem (.ldhu c g d am) (loadBody c.val 2 d am loadHu))
def execLdw (c : Fin 4) (g : BitVec 4) (d : Fin 32) (am : AddrMode) (s : State) : Host.Outcome State Fault Refusal :=
  s.run (fun v => v.coreInstr c.val g .mem (.ldw c g d am) (loadBody c.val 4 d am loadW))

/-! ### Stores -/

/-- The operation of a store of the low `n` bytes of a register (R434 to R439, R441). -/
def storeBody (c n : Nat) (src : Fin 32) (am : AddrMode) (d : Device) : Res :=
  let k := d.coreC c
  let a := k.ea am n
  let v := (k.reg src.val).toNat % 2 ^ (8 * n)
  if unalignedMem a.toNat n then .trap d ⟨5, 0, a⟩
  else
    match d.busWrite (coreWho c) a.toNat n v with
    | (d, .ok _) => .done (d.onCore c (fun k => k.eaUpdate am n)) [⟨a.toNat, n, true, wd v⟩]
    | (_, .wait) => .wait (d.holdOf (coreWho c) a.toNat (some (wd v)))
    | (d, .bus sub) => .trap d ⟨7, sub, a⟩
    | (d, .dom sub) => .trap d ⟨6, sub, a⟩

def execStb (c : Fin 4) (g : BitVec 4) (d : Fin 32) (am : AddrMode) (s : State) : Host.Outcome State Fault Refusal :=
  s.run (fun v => v.coreInstr c.val g .mem (.stb c g d am) (storeBody c.val 1 d am))
def execSth (c : Fin 4) (g : BitVec 4) (d : Fin 32) (am : AddrMode) (s : State) : Host.Outcome State Fault Refusal :=
  s.run (fun v => v.coreInstr c.val g .mem (.sth c g d am) (storeBody c.val 2 d am))
def execStw (c : Fin 4) (g : BitVec 4) (d : Fin 32) (am : AddrMode) (s : State) : Host.Outcome State Fault Refusal :=
  s.run (fun v => v.coreInstr c.val g .mem (.stw c g d am) (storeBody c.val 4 d am))

/-! ### MACH (R476) -/

/-- The domain check of a load of `n` bytes at `a` by core `c` before it is made (R484, R543). -/
def Device.loadDomain (d : Device) (c : Nat) (a : Word) : Device × Option Trap :=
  let who := coreWho c
  if isRegSpace a.toNat then
    (match d.narrow who a.toNat false with | (d', .dom sub) => (d', some ⟨6, sub, a⟩) | _ => (d, none))
  else if (memRegion a.toNat).isSome && d.memTrusted a.toNat && !(d.coreC c).trusted then
    (d.domViolation who a.toNat 0 false, some ⟨6, 0, a⟩)
  else (d, none)

/-- Both halfwords have been read: the sum and the updates. -/
def Core.mach (k : Core) (a b : Fin 32) (h1 h2 : Word) : Core :=
  let k := k.accAdd ((loadH h1).toInt * (loadH h2).toInt)
  let k := k.put a.val (k.reg a.val + 2)
  if a = b then k else k.put b.val (k.reg b.val + 2)

/-- The second load of MACH and what follows it. -/
def machSecond (c : Nat) (a b : Fin 32) (x y h1 : Word) (d : Device) : Res :=
  match d.busRead (coreWho c) y.toNat 2 with
  | (d, .ok h2) => .done (d.onCore c (fun k => k.mach a b h1 h2)) [⟨x.toNat, 2, false, h1⟩, ⟨y.toNat, 2, false, h2⟩]
  | (_, .wait) => .wait .held
  | (d, .bus sub) => .trap d ⟨7, sub, y⟩
  | (d, .dom sub) => .trap d ⟨6, sub, y⟩

/-- The loads of MACH. -/
def machLoads (c : Nat) (a b : Fin 32) (x y : Word) (d : Device) : Res :=
  match d.busRead (coreWho c) x.toNat 2 with
  | (d, .ok h1) => machSecond c a b x y h1 d
  | (_, .wait) => .wait .held
  | (d, .bus sub) => .trap d ⟨7, sub, x⟩
  | (d, .dom sub) => .trap d ⟨6, sub, x⟩

/-- The operation of MACH: the alignment of both addresses, the domains of both, the loads. -/
def machBody (c : Nat) (a b : Fin 32) (d : Device) : Res :=
  let k := d.coreC c
  let x := k.reg a.val
  let y := k.reg b.val
  if unalignedMem x.toNat 2 then .trap d ⟨5, 0, x⟩
  else if unalignedMem y.toNat 2 then .trap d ⟨5, 0, y⟩
  else
    match d.loadDomain c x with
    | (d, some t) => .trap d t
    | (d, none) =>
      match d.loadDomain c y with
      | (d, some t) => .trap d t
      | (d, none) => machLoads c a b x y d

def execMach (c : Fin 4) (g : BitVec 4) (a b : Fin 32) (s : State) : Host.Outcome State Fault Refusal :=
  s.run (fun v => v.coreInstr c.val g .mac (.mach c g a b) (machBody c.val a b))

end Sys2Proof.Machine
end

