-- ==== Sys2Proof/Machine/SysIns.lean ====
section
/-! DEFINITION. The system instructions and the REP prefix (R419 to R426, R448 to R454, R480 to R488, R519 to R525). -/
namespace Sys2Proof.Machine

/-! ### System registers (R419 to R422, R425, R426, R483) -/

/-- The operation of MFS. -/
def mfsBody (c : Nat) (dst : Fin 32) (n : Nat) (d : Device) : Res :=
  d.asSup c (supNum n) (fun d =>
    let r := d.sysRead c n
    .done (r.1.onCore c (fun k => k.put dst.val r.2)) [])

/-- The operation of MTS. -/
def mtsBody (c n : Nat) (src : Fin 32) (d : Device) : Res :=
  d.asSup c (supNum n) (fun d => .done (d.sysWrite c n ((d.coreC c).reg src.val) false) [])

def execMfs (c : Fin 4) (g : BitVec 4) (d : Fin 32) (num : BitVec 10) (s : State) : Host.Outcome State Fault Refusal :=
  s.run (fun v => v.coreInstr c.val g .other (.mfs c g d num) (mfsBody c.val d num.toNat))
def execMts (c : Fin 4) (g : BitVec 4) (num : BitVec 10) (r : Fin 32) (s : State) : Host.Outcome State Fault Refusal :=
  s.run (fun v => v.coreInstr c.val g .other (.mts c g num r) (mtsBody c.val num.toNat r))
/-- MTS of VBASE, ignored from the open domain (R425, R512). -/
def execVbaseWrite (c : Fin 4) (g : BitVec 4) (r : Fin 32) (s : State) : Host.Outcome State Fault Refusal :=
  s.run (fun v => v.coreInstr c.val g .other (.vbaseWrite c g r) (mtsBody c.val 5 r))
/-- MFS of ICOUNT_LO (R426). -/
def execIcountLoRead (c : Fin 4) (g : BitVec 4) (d : Fin 32) (s : State) : Host.Outcome State Fault Refusal :=
  s.run (fun v => v.coreInstr c.val g .other (.icountLoRead c g d) (mfsBody c.val d 0x24))

/-! ### Cache operations (R448 to R450) -/

/-- The operation of an MTS to CACHEOP. -/
def cacheBody (c : Nat) (src : Fin 32) (d : Device) : Res :=
  d.asSup c true (fun d => .done (d.cacheOp c ((d.coreC c).reg src.val)) [])

/-- Core `c` runs the MTS to CACHEOP `i` whose register names the operation `op`; with another value it is not this command. -/
def Device.cacheInstr (d : Device) (c : Nat) (g : BitVec 4) (op : Nat) (src : Fin 32) (i : Instr) : Device :=
  let k := d.coreC c
  if !k.sup || !k.guardOk g || decide (wf (k.reg src.val) 2 0 = op) then d.coreInstr c g .other i (cacheBody c src) else d

def execCacheInvalidateIline (c : Fin 4) (g : BitVec 4) (r : Fin 32) (s : State) : Host.Outcome State Fault Refusal :=
  s.run (fun v => v.cacheInstr c.val g 1 r (.cacheInvalidateIline c g r))
def execCacheInvalidateI (c : Fin 4) (g : BitVec 4) (r : Fin 32) (s : State) : Host.Outcome State Fault Refusal :=
  s.run (fun v => v.cacheInstr c.val g 2 r (.cacheInvalidateI c g r))
def execCacheCleanDline (c : Fin 4) (g : BitVec 4) (r : Fin 32) (s : State) : Host.Outcome State Fault Refusal :=
  s.run (fun v => v.cacheInstr c.val g 3 r (.cacheCleanDline c g r))
def execCacheCleanInvalidateDline (c : Fin 4) (g : BitVec 4) (r : Fin 32) (s : State) :
    Host.Outcome State Fault Refusal :=
  s.run (fun v => v.cacheInstr c.val g 4 r (.cacheCleanInvalidateDline c g r))
def execCacheCleanD (c : Fin 4) (g : BitVec 4) (r : Fin 32) (s : State) : Host.Outcome State Fault Refusal :=
  s.run (fun v => v.cacheInstr c.val g 5 r (.cacheCleanD c g r))
def execCacheCleanInvalidateD (c : Fin 4) (g : BitVec 4) (r : Fin 32) (s : State) : Host.Outcome State Fault Refusal :=
  s.run (fun v => v.cacheInstr c.val g 6 r (.cacheCleanInvalidateD c g r))

/-! ### SYS, SLEEP, FENCE (R454, R480 to R482) -/

def execSys (c : Fin 4) (g : BitVec 4) (code : BitVec 16) (s : State) : Host.Outcome State Fault Refusal :=
  s.run (fun v => v.coreInstr c.val g .other (.sys c g code) (fun v => .sys v (code.setWidth 32)))

/-- The operation of SLEEP: with an interrupt pending, or under STEP, the core goes on. -/
def sleepBody (c : Nat) (d : Device) : Res :=
  d.asSup c true (fun d =>
    if d.pendingFor c || (d.coreC c).stepping then .done d []
    else
      let k := d.coreC c
      let d := (d.setCore c { k with st := .asleep, pc := k.pc + 4, icount := k.icount + 1 }).owlSync
      .moved { d with pwr := { d.pwr with asks := if d.sleepReq && !d.someRuns then some c else none } })

def execSleep (c : Fin 4) (g : BitVec 4) (s : State) : Host.Outcome State Fault Refusal :=
  s.run (fun v => v.coreInstr c.val g .other (.sleep c g) (sleepBody c.val))

/-- FENCE: it waits for the register accesses of the core; what the core stored is visible to every initiator once the merge
buffer is empty; the caches are coherent (R445, R454). -/
def fenceBody (c : Nat) (d : Device) : Res := if d.coreWaits c then .wait .stall else .done d.mergeFlushAll []

def execFence (c : Fin 4) (g : BitVec 4) (s : State) : Host.Outcome State Fault Refusal :=
  s.run (fun v => v.coreInstr c.val g .other (.fence c g) (fenceBody c.val))

/-! ### RFE (R496, R519 to R525) -/

/-- The state a return loads: the general registers of a block, STATUS, the pc, and the block's other words. -/
structure Ret where
  g : List Word
  pc : Word
  status : Word
  acc : DWord
  accst : Word
  estat : Word
  epc : Word
deriving DecidableEq, Repr

/-- The words of a block that RFE reads, by offset (R521). -/
def tsbOffsets : List Nat := (List.range 33).map (fun i => 4 * i) ++ [0x88, 0x8C, 0x90, 0x98, 0x9C]

/-- What the block reads bring: the words, or the failure of the first that fails (R525). -/
inductive Reads where
  | words (l : List Word)
  | fail (t : Trap)
  | wait (h : Hold)
deriving DecidableEq, Repr

/-- One more word is read. -/
def readNext (c : Nat) (b : Word) (s : Device × Reads) (o : Nat) : Device × Reads :=
  match s.2 with
  | .words l =>
    let a := b + wd o
    (match s.1.busRead (coreWho c) a.toNat 4 with
     | (d, .ok v) => (d, .words (l ++ [v]))
     | (d, .bus sub) => (d, .fail ⟨7, sub, a⟩)
     | (d, .dom sub) => (d, .fail ⟨6, sub, a⟩)
     | (d, .wait) => (d, .wait (s.1.holdOf (coreWho c) a.toNat none)))
  | _ => s

/-- The block at TSBP is read. -/
def Device.tsbRead (d : Device) (c : Nat) : Device × Reads :=
  tsbOffsets.foldl (readNext c (d.coreC c).tsbp) (d, .words [])

/-- The words read, as the state to load. -/
def retOf (l : List Word) : Ret :=
  let w := fun i => (l.drop i).headD 0
  { g := l.take 31, pc := w 31, status := w 32 &&& 0xF, acc := w 34 ++ w 33, accst := w 35 &&& 0x101,
    estat := w 36 &&& 0xF, epc := w 37 }

/-- The general registers of a block go to the bank that its STATUS selects. -/
def Core.loadRegs (k : Core) (r : Ret) : Core :=
  (r.g.zipIdx).foldl (fun k x => k.putOf (wb r.status 3) (x.2 + 1) x.1) k

/-- The core state after a return through the block. -/
def Core.retBlock (k : Core) (r : Ret) : Core :=
  { (k.loadRegs r) with
    pc := r.pc, status := r.status, acc := r.acc, accst := r.accst, estat := r.estat, epc := r.epc }

/-- The core state after a return through the shadow bank (R520, R523). -/
def Core.retShadow (k : Core) : Core :=
  let g := if k.trusted && !wb k.estat 1 then Tab.keep (fun j => decide (j < 32)) k.g else k.g
  { k with g := g, status := k.estat, pc := k.epc }

/-- After a return a repetition is resumed when RPC is not 0 (R496, R497, R524). -/
def Core.resumeRep (k : Core) : Core :=
  if k.rpc = 0 then k
  else { k with rep := some { left := k.rpc.toNat, isI := true, repPc := k.pc, resumed := true, follower := none } }

/-- The return loads `status` and then the core state `f`, unless it would raise the domain (R522). -/
def rfeLoad (c : Nat) (status : Word) (f : Core → Core) (d : Device) : Res :=
  if !(d.coreC c).trusted && wb status 1 then .trap (d.domViolation (coreWho c) 0 4 false) ⟨6, 4, 0⟩
  else .moved (d.onCore c (fun k => (f k).resumeRep))

/-- The operation of RFE. -/
def rfeBody (c : Nat) (d : Device) : Res :=
  d.asSup c true (fun d =>
    let k := d.coreC c
    if k.sb && !wb k.estat 3 then rfeLoad c k.estat Core.retShadow d
    else
      match d.tsbRead c with
      | (d, .words l) => rfeLoad c (retOf l).status (fun k => k.retBlock (retOf l)) d
      | (d, .fail t) => .trap d t
      | (_, .wait h) => .wait h)

def execRfe (c : Fin 4) (g : BitVec 4) (s : State) : Host.Outcome State Fault Refusal :=
  s.run (fun v => v.coreInstr c.val g .other (.rfe c g) (rfeBody c.val))

/-! ### The REP prefix (R485, R488) -/

/-- The count of a REP. -/
def Core.repCount (k : Core) (rg : Bool) (cr : Fin 32) (n : BitVec 8) : Nat :=
  if rg then (k.reg cr.val).toNat else n.toNat + 1

/-- The operation of a REP: the next instruction is its follower. -/
def repBody (c : Nat) (isI rg : Bool) (cr : Fin 32) (n : BitVec 8) (d : Device) : Res :=
  .pre (d.onCore c (fun k => { k with
    rep := some { left := k.repCount rg cr n, isI := isI, repPc := k.pc, resumed := false, follower := none } }))

/-- A REP with a count of its own above 64 is an undefined encoding (R485). -/
def execRep (c : Fin 4) (g : BitVec 4) (rg : Bool) (cr : Fin 32) (cnt : BitVec 8) (s : State) :
    Host.Outcome State Fault Refusal :=
  s.run (fun v => v.runInstr c.val (Device.fetchPc c.val) g (!rg && decide (63 < cnt.toNat)) .other
    (some (.rep c g rg cr cnt)) (repBody c.val false rg cr cnt))
def execRepI (c : Fin 4) (g : BitVec 4) (rg : Bool) (cr : Fin 32) (cnt : BitVec 8) (s : State) :
    Host.Outcome State Fault Refusal :=
  s.run (fun v => v.coreInstr c.val g .other (.repI c g rg cr cnt) (repBody c.val true rg cr cnt))

end Sys2Proof.Machine
end

