-- ==== Sys2Proof/Machine/CoreEv.lean ====
section
/-! DEFINITION. What happens to a core beside its defined instructions: undefined words, failing fetches, interrupts,
the restart after an exchange (R433, R436, R469, R493, R508, R565, R810). -/
namespace Sys2Proof.Machine

/-! ### Undefined encodings (R433, R469) -/

def execIllegalInstruction (c : Fin 4) (word : Word) (s : State) : Host.Outcome State Fault Refusal :=
  s.run (fun v =>
    if undefinedWord word then
      v.runInstr c.val (Device.fetchPc c.val) 0 true .other none (fun _ => .wait .stall)
    else v)

/-! ### Failing fetches (R436, R531, R536) -/

/-- A fetch by core `c` that meets an uncorrectable error, where nothing else refuses it: no I-cache line is allocated
(R531). -/
def Device.fetchBad (c : Nat) (d : Device) : Device × Fetch :=
  match Device.fetchPc c d with
  | (_, .ok) =>
    let a := (d.coreC c).pc.toNat
    (d.countUe (eccKind a) (dwOf a) c 0, .fail 1)
  | r => r

/-- The fetch at the pc of core `c` fails; with `unc` by an uncorrectable error. -/
def Device.busErrorFetch (d : Device) (c : Nat) (unc : Bool) : Device :=
  if unc then d.runInstr c (Device.fetchBad c) 0 true .other none (fun _ => .wait .stall)
  else
    match (Device.fetchPc c d).2 with
    | .fail _ => d.runInstr c (Device.fetchPc c) 0 true .other none (fun _ => .wait .stall)
    | _ => d

def execInstructionBusError (c : Fin 4) (uncorrectable : Bool) (s : State) : Host.Outcome State Fault Refusal :=
  s.run (fun v => v.busErrorFetch c.val uncorrectable)

/-! ### Interrupts (R482, R493, R508, R565) -/

/-- An interrupted REP.I leaves its remaining count in RPC (R493). -/
def Core.leaveRep (k : Core) : Core :=
  match k.rep with
  | some r => { k with rep := none, rpc := if r.follower.isSome then wd r.left else k.rpc }
  | none => k

/-- Core `c` accepts source `s` and enters its vector (R541, R565). -/
def Device.acceptIrq (d : Device) (c s : Nat) : Except Hold Device :=
  let d := (d.reserve c s).setCore c { (d.coreC c).leaveRep with st := .running, bpSkip := false }
  let pc := (d.coreC c).pc
  (d.owlSync).takeExc c ⟨if d.srcTrust s then 16 else 17, 0, 0⟩ false pc pc

/-- A core halted by SLEEP goes on at its pc. -/
def Device.awake (d : Device) (c : Nat) : Device := (d.setCore c { d.coreC c with st := .running }).owlSync

/-- The boundary of core `c`: an offered source is accepted, a core asleep with IE = 0 goes on when one is pending; an entry
whose reads wait is made later, and a halt at a breakpoint that falls due at the boundary wins (R856). -/
def Device.irqBoundary (d : Device) (c : Nat) : Device :=
  let k := d.coreC c
  if k.halted || k.hand.isSome || k.repBusy || d.accepted c then d
  else
    match d.offerOf c with
    | some s =>
      (match (if k.live then d.bpAt c else none) with
       | some b => d.bpHalt c b
       | none => match d.acceptIrq c s with | .ok d' => d'.engDone c | .error h => d.engHold c h)
    | none => if decide (k.st = .asleep) && !k.ie && d.pendingFor c then d.awake c else d

def execInterruptEntry (c : Fin 4) (s : State) : Host.Outcome State Fault Refusal := s.run (fun d => d.irqBoundary c.val)

/-! ### The restart after an exchange (R810 to R812) -/

/-- Core `c` stops at its boundary and records its state (R810, R811). -/
def Device.handStop (d : Device) (c : Nat) : Device :=
  let k := d.coreC c
  if k.hand.isSome && !k.handed && !k.repBusy then
    let d := d.handRecord c (if k.halted then (if k.st = .asleep then 2 else 1) else k.how)
    d.setCore c { d.coreC c with handed := true }
  else d

/-- Core `c` restarts at the new program's ENTRY (R810): its locks, the active interrupts and the queues stay (R809, R812). -/
def Device.handover (d : Device) (c : Nat) (entry stack : Word) : Device :=
  let k := d.coreC c
  let k := { k with
    st := .running, halted := false, stepping := false, haltReq := false, bpSkip := false, hand := none, handed := false, rep := none,
    ic := [], ice := [], status := 3, rpc := 0, vbase := 0, tsbp := 0, pc := entry }
  ((d.setCore c (k.put 31 stack)).engDrop c).startHalt c

/-- Every core that is to restart has recorded its state, which comes before any core begins at ENTRY (R811). -/
def Device.allHanded (d : Device) : Bool :=
  (List.range 4).all (fun c => (d.coreC c).hand.isNone || (d.coreC c).handed)

/-- The cores that have recorded their states restart, but for those that the service tool holds (R810). -/
def Device.restartAll (d : Device) : Device :=
  (List.range 4).foldl (fun d c =>
    match (d.coreC c).hand with
    | some (entry, stack) => if (d.coreC c).halted then d else d.handover c entry stack
    | none => d) d

/-- Core `c` reaches its boundary after the swap tick and records its state, as does a core that the service tool has halted
there meanwhile; after the last record the cores begin at ENTRY (R810, R811). -/
def execCoreHandover (c : Fin 4) (s : State) : Host.Outcome State Fault Refusal :=
  s.run (fun d =>
    let k := d.coreC c.val
    if k.hand.isNone || k.halted || k.repBusy then d
    else
      let d := (List.range 4).foldl (fun d j => if j = c.val ∨ (d.coreC j).halted = true then d.handStop j else d) d
      if d.allHanded then d.restartAll else d)

end Sys2Proof.Machine
end

