-- ==== Sys2Proof/Machine/Pins.lean ====
section
/-! DEFINITION. What the pins show, read from the state: fuse custody, the safe state, the boundary register, the PWM
stage, the functions of the general-purpose pins (R47, R167, R171, R188 to R197, R288, R826). -/
namespace Sys2Proof.Machine

/-- What a pin shows. A pull is 1 up, 2 down, else none. -/
inductive PinOut where
  | low
  | high
  | z (pull : Nat)
deriving DecidableEq, Repr

/-- The state of a 3-bit fuse code (R189). -/
def codeShows (code : Nat) : PinOut :=
  match code with
  | 1 => .z 1 | 2 => .z 2 | 3 => .low | 4 => .high | _ => .z 0

/-- The safe state of custody pin `p` (R189, R706). -/
def Device.pinSafe (d : Device) (p : Nat) : PinOut :=
  codeShows (wf (d.fuseW (36 + p / 10)) (3 * (p % 10) + 2) (3 * (p % 10)))

/-- A boundary pin's three cells: data, enable (log 22). -/
def cellShows (b : BitVec 3) : PinOut := if b.getLsbD 1 then (if b.getLsbD 0 then .high else .low) else .z 0

/-- A level that a claimed pin drives, with its open-drain and pull settings (R196). -/
def driveShows (cfg : Word) (b : Bool) : PinOut := if b then (if wb cfg 6 then .z (wf cfg 5 4) else .high) else .low

/-- The output of PWM channel `n`, high side or low side (R272 to R274, R281, R288). -/
def Device.pwmShows (d : Device) (n : Nat) (hi : Bool) (cfg : Word) : PinOut :=
  let c := d.pwmC n
  let l := tripLevels (d.tripCfg n)
  if c.running && !d.outOff then driveShows cfg (if hi then c.outH else c.outL)
  else if (if hi then l.1 else l.2) = 2 then .z (wf cfg 5 4)
  else driveShows cfg (decide ((if hi then l.1 else l.2) = 1) && c.deadMet hi (32 * d.nowN))

/-- The ring is closed: as the head finds it, and as the yards tell a member (R196, R752). -/
def Device.ringClosed (d : Device) : Bool := if d.link.head then d.link.closed else d.link.rc

/-- A claimed general-purpose pin with its function (R196, R197); a load-all strobe is high for the tick of the load-all
(R271), and the level of link activity is a free value (log 40). -/
def Device.gpShows (d : Device) (p : Nat) (cfg : Word) : PinOut :=
  let sel := wf cfg 10 8
  match wf cfg 2 0 with
  | 1 => driveShows cfg (d.rst.gpOut.getLsbD p)
  | 2 => driveShows cfg ((List.range 64).any (fun r =>
      match d.evr.dl.get (fun _ => none) r with | some (k, m) => decide (k = 7) && m.getLsbD sel | none => false))
  | 3 => if sel < 6 then driveShows cfg (d.cmpC sel).out else .z (wf cfg 5 4)
  | 4 =>
    (match sel with
     | 0 => driveShows cfg d.ringClosed
     | 1 => driveShows cfg (Config.linkActivity false d.nowN)
     | 2 => driveShows cfg (Config.linkActivity true d.nowN)
     | _ => .z (wf cfg 5 4))
  | 5 => driveShows cfg (d.here.loads.getLsbD sel)
  | _ => .z (wf cfg 5 4)

/-- Custody pin `p` is in fuse custody (R190). -/
def Device.inCustody (d : Device) (p : Nat) : Bool := !d.rst.claim.getLsbD p || decide (d.rst.phase = .off)

/-- What a pin shows under custody, the PWM stage and its function (R190 to R193, R196, R288). -/
def Device.ownShows (d : Device) (p : Nat) : PinOut :=
  let cfg := d.lv (aPinCfg p)
  if d.inCustody p then d.pinSafe p
  else if p < 32 then d.gpShows p cfg
  else if (d.pwmC (p % 32)).unitHold then d.pinSafe p
  else d.pwmShows (p % 32) (decide (p < 64)) cfg

/-- What custody pin `p` shows: GP0 to GP23 are 0 to 23, PWMH 32 to 63, PWML 64 to 95 (R188). -/
def Device.pinShows (d : Device) (p : Nat) : PinOut :=
  let pwm := decide (32 ≤ p)
  if !d.rst.fuseUp then .z 0
  else if pwm && d.safeIn then d.pinSafe p
  else
    match d.dbg.shown with
    | some t => cellShows (t.get (fun _ => 0) p)
    | none => if pwm && d.frozen then d.pinSafe p else d.ownShows p

/-- The numbers of the boundary register's cells beyond the custody pins (R824): TRKn_A, _B, _Z, then RST_n, SAFE_n, RSTOUT_n
(the order is the model's, log 22). -/
def cellTrk (n i : Nat) : Nat := 96 + 3 * n + i
def cellRst : Nat := 144
def cellSafe : Nat := 145
def cellRstout : Nat := 146

/-- RSTOUT_n is driven low (R167), by its cells while an instruction of R826 drives the pins. -/
def Device.rstoutLow (d : Device) : Bool :=
  match d.dbg.shown with
  | some t => (t.get (fun _ => 0) cellRstout).getLsbD 1 && !(t.get (fun _ => 0) cellRstout).getLsbD 0
  | none => !d.rst.rstout

/-! ### What the boundary register captures (R822, R824) -/

/-- Output data, output enable and input of a pin that shows `x`, with `inp` at its input buffer. -/
def pinCells (x : PinOut) (inp : Bool) : BitVec 3 :=
  let o := match x with | .low => 2#3 | .high => 3#3 | .z _ => 0#3
  if inp then o ||| 4#3 else o

/-- The level at a PWM pin: what is driven, or its pull; without one a free value (log 104). -/
def Device.pwmPad (d : Device) (p : Nat) : Bool :=
  match d.pinShows p with
  | .low => false | .high => true | .z 1 => true | .z 2 => false | .z _ => Config.padSample (96 * d.free + p)

/-- What cell group `p` of the boundary register captures. -/
def Device.cellOf (d : Device) (p : Nat) : BitVec 3 :=
  if p < 24 then pinCells (d.pinShows p) (d.rst.gpIn.getLsbD p)
  else if 32 ≤ p ∧ p < 96 then pinCells (d.pinShows p) (d.pwmPad p)
  else if 96 ≤ p ∧ p < cellRst then (if (d.trkC ((p - 96) / 3)).pins.getLsbD ((p - 96) % 3) then 4#3 else 0#3)
  else if p = cellRst then (if d.rst.rstLow then 0#3 else 4#3)
  else if p = cellSafe then (if d.rst.safeLow then 0#3 else 4#3)
  else if p = cellRstout then (if d.rstoutLow then 2#3 else 1#3)
  else 0#3

/-- The boundary register as EXTEST and SAMPLE/PRELOAD capture it: 88 groups of three cells, 50 inputs, two cells of RSTOUT_n
(R824). -/
def Device.boundaryReg (d : Device) : Tab (BitVec 3) :=
  ((List.range 24 ++ (List.range 115).map (fun p => 32 + p)).map (fun p => (p, d.cellOf p)))

/-! ### The pads of the GP pins (R195) -/

/-- What a pin shows, as a number; 0 is high impedance without a pull. -/
def PinOut.code (x : PinOut) : Nat :=
  match x with | .low => 1 | .high => 2 | .z 1 => 3 | .z 2 => 4 | .z _ => 0

/-- The level at the pad of GP pin `p` that shows `x`: what the device drives, what the board drives, the pull. Where there is
none the device does not set the level, and it stays until GP_INPUT_CHANGE brings another (R195; log 103). -/
def Device.padLevel (d : Device) (p : Nat) (x : PinOut) : Bool :=
  match x with
  | .low => false
  | .high => true
  | .z n =>
    if d.rst.gpDrv.getLsbD p then d.rst.gpExt.getLsbD p
    else if n = 1 then true else if n = 2 then false else d.rst.gpIn.getLsbD p

/-- The pad of GP pin `p` follows `x`, what the pin has shown, where that has changed (R195). -/
def Device.padShown (d : Device) (p : Nat) (x : PinOut) : Device :=
  if d.rst.padOut.get (fun _ => 0) p = x.code then d
  else ({ d with rst := { d.rst with padOut := d.rst.padOut.set (fun _ => 0) p x.code } }).padTakes p (d.padLevel p x)

/-- What the GP pins show in the present tick. -/
def Device.gpPins (d : Device) : List (Nat × PinOut) := (List.range 24).map (fun p => (p, d.pinShows p))

end Sys2Proof.Machine
end

