-- ==== Sys2Proof/Machine/Time.lean ====
section
/-! DEFINITION. The passing of ticks in which no other command comes (R46, R50, R195, R226, R280): what a tick brings by itself, beside
what the commands of the table bring. -/
namespace Sys2Proof.Machine

/-- The present tick ends and the next one begins: the hard trips noted for it set their latches (R46, R226, R280), and the pads of the
GP pins take what the pins have shown (R195). -/
def Device.nextTick (d : Device) : Device :=
  let sh := d.gpPins
  let d := d.advTo (d.nowN + 1)
  sh.foldl (fun d x => d.padShown x.1 x.2) ((List.range 32).foldl (fun d n => d.hardNow n) d)

/-- TBASE_NOW moves forward to tick `t` where it lies ahead. Nothing that a tick brings comes of the middle of a longer stretch: a pin
that shows a strobe of the present tick shows it no longer in the next. -/
def Device.skipTo (d : Device) (t : Nat) : Device :=
  if t ≤ d.nowN then d
  else
    let d := d.nextTick
    if t ≤ d.nowN then d
    else
      let d := d.nextTick
      if t ≤ d.nowN then d else (d.advTo (t - 1)).nextTick

end Sys2Proof.Machine
end

