-- ==== Sys2Proof/Machine/LinkEv.lean ====
section
/-! DEFINITION. Yards at a member with the map that moves their bytes (R735 to R749, R766), and the reset command (R753 to
R755). -/
namespace Sys2Proof.Machine

/-! ### The map (R740 to R744) -/

/-- An enabled map entry: its number, the register, direction OUT, width, offset in its stall part, UPPER, and whether it
may be used (R742). -/
structure MapEnt where
  m : Nat
  addr : Nat
  out : Bool
  w : Nat
  ofs : Nat
  upper : Nat
  ok : Bool
deriving DecidableEq, Repr

/-- The value of a register of the map or the stall layout for a yard whose /SY/ arrives now: in the swap tick still the old
one (R769). -/
def Device.linkAct (d : Device) (a : Nat) : Word :=
  match d.here.before with | some t => t.get setReset a | none => d.act a

/-- The blocks a map entry may name (R742). -/
def mapBlocks : List Nat := [bLE, bPWM, bEVR, bQUE, bTBASE]

/-- Entry `m` of the active map for stream `k` with `nin` IN and `nout` OUT bytes, when it is enabled for the stream. -/
def Device.mapEnt (d : Device) (k nin nout m : Nat) : Option MapEnt :=
  let cfg := d.linkAct (bLINK + 0x400 + 8 * m)
  let a := (d.linkAct (bLINK + 0x404 + 8 * m)).toNat
  if wb cfg 0 && decide (wf cfg 3 2 = k) then
    let w := if wb cfg 4 then 4 else 2
    let ofs := wf cfg 15 8
    some { m := m, addr := a, out := wb cfg 1, w := w, ofs := ofs, upper := wf cfg 31 16,
           ok := decide (a % 4 = 0) && mapBlocks.elem (blkOf a)
             && decide (ofs + w ≤ if wb cfg 1 then nout else nin) }
  else none

/-- The enabled entries of stream `k`, in ascending number. -/
def Device.mapOf (d : Device) (k nin nout : Nat) : List MapEnt := (List.range 64).filterMap (d.mapEnt k nin nout)

/-- The word an OUT entry sends (R744): a read that does not complete, for want of a tag (R131) too, leaves the value of the
previous yard and sets OUTLATE; one that its unit answers with an error leaves a free value (log 17). -/
def Device.outValue (d : Device) (e : MapEnt) : Device × Word :=
  match (if d.noTag 5 then (d.countWait 5, Acc.wait) else d.readReg .link e.addr) with
  | (d, .ok v) => ({ d with link := { d.link with outPrev := d.link.outPrev.set (fun _ => 0) e.m v } }, v)
  | (d, .wait) => (d.linkFlag 5, d.link.outPrev.get (fun _ => 0) e.m)
  | (d, _) => (d.fresh, Config.outWord d.free)

/-- OUT entry `e` replaces its bytes of the stall area; the OUT part starts at `base`. -/
def outEntry (base : Nat) (s : Device × List Byte) (e : MapEnt) : Device × List Byte :=
  let r := s.1.outValue e
  (r.1, putBytes s.2 (base + e.ofs) (toBytes e.w r.2.toNat))

/-- The word an IN entry writes (R740). -/
def inWord (base : Nat) (stall : List Byte) (e : MapEnt) : Word :=
  let v := leNat ((stall.drop (base + e.ofs)).take e.w)
  wd (if e.w = 4 then v else v + 0x10000 * e.upper)

/-- An IN entry is written as one 32-bit write (R744); one that waits for a unit reset completes after it (R181), and at the cap
of the link controller's tags it waits for one (R131). -/
def Device.inEntry (d : Device) (x : Nat × Word) : Device :=
  if d.noTag 5 then d.post .link x.1 x.2
  else match d.writeReg .link x.1 x.2 with
  | (d', .wait) => d'.post .link x.1 x.2
  | (d', _) => d'

/-! ### A yard on its processing pass (R737 to R743, R746 to R749, R757) -/

/-- The stall of stream `k`: OFS, NIN, NOUT (R736). -/
def Device.stallOf (d : Device) (k : Nat) : Nat × Nat × Nat :=
  let v := d.linkAct (bLINK + 0x60 + 4 * k)
  (wf v 10 0, wf v 23 16, wf v 31 24)

/-- The member's stall is moved in this yard: it has one, it fits, and no warm reset runs (R743, R766). -/
def Device.stallUsed (d : Device) (f : YardFrame) : Bool :=
  match d.stallOf f.stream with
  | (ofs, nin, nout) =>
    decide (0 < nin + nout) && decide (ofs + nin + nout ≤ f.ylen.toNat) && decide (d.rst.phase ≠ .warm)

/-- The head delay of a yard received on port `p` (R746). -/
def Device.yardHdly (d : Device) (p : Port) (f : YardFrame) : Nat := f.accdly.toNat + (d.port p).dly

/-- The header as a processing member sends it, its check apart: HOP and ACCDLY (R738). -/
def Device.yardHead (d : Device) (p : Port) (f : YardFrame) : YardFrame :=
  { f with hop := f.hop + 1, accdly := wd (d.yardHdly p f + 1024) }

/-- SEQ is checked and stored (R738). -/
def Device.yardSeq (d : Device) (k : Nat) (seq : BitVec 16) : Device :=
  let old := d.link.yseq.get (fun _ => 0) k
  let d := if seq = old + 1 then d else (d.linkCount 6).linkFlag 4
  { d with link := { d.link with yseq := d.link.yseq.set (fun _ => 0) k seq } }

/-- Ring time from a yard with a correct HCHK whose /SY/ came at `ta`, in 1/32 tick (R746 to R748). -/
def Device.yardTime (d : Device) (p : Port) (f : YardFrame) (ta : Nat) : Device :=
  let h := d.yardHdly p f
  let tofs : Int := (f.ty.toNat : Int) * 32 + h - ta
  let rate := d.newRate tofs ta
  let l := { d.link with
    hdly := BitVec.ofNat 24 h, tofs := BitVec.ofInt 64 tofs, rate := rate, ta := some (BitVec.ofNat 64 ta),
    rc := f.isRc, fb := f.isFb }
  ({ d with link := l.syncYard d.nowN f.isFb }).fresh

/-- Addressing by position (R757). -/
def Device.yardPos (d : Device) (p : Port) (f : YardFrame) : Device :=
  if p = .la && !f.dir && f.isRc && f.isAuto then
    let l := d.link
    let take := decide (l.addr = 0) && wb (d.lv bLINK) 1
    { d with link := { l with
      pos := f.hop + 1, addr := if take then f.hop + 1 else l.addr, auto' := l.auto' || take } }
  else d

/-- The flags that depend on the stall layout: STALLERR and MAPERR (R742, R743). -/
def Device.yardFlags (d : Device) (f : YardFrame) : Device :=
  match d.stallOf f.stream with
  | (ofs, nin, nout) =>
    let d := if f.ylen.toNat < ofs + nin + nout then d.linkFlag 11 else d
    if (d.mapOf f.stream nin nout).any (fun e => !e.ok) then d.linkFlag 6 else d

/-- The yard event of R749: the header is complete 400 ticks after /SY/ (25 code-groups). -/
def Device.yardEvt (d : Device) (f : YardFrame) : Device :=
  let k := f.stream
  let target : Int := (f.ty.toNat : Int) + wf (d.lv (bLINK + 0x50 + 4 * k)) 23 0
  d.yardEventDue k target (d.nowN + 400)

/-- The IN writes of the yard, in ascending entry number, as the map stands at /SY/ (R739, R744, R769); none where its stall is
not moved. -/
def Device.yardIns (d : Device) (f : YardFrame) : Option (List (Nat × Word)) :=
  if d.stallUsed f then
    match d.stallOf f.stream with
    | (ofs, nin, nout) =>
      some (((d.mapOf f.stream nin nout).filter (fun e => e.ok && !e.out)).map (fun e => (e.addr, inWord ofs f.stall e)))
  else none

/-- The OUT bytes of the member's stall (R738, R744). -/
def Device.yardOut (d : Device) (f : YardFrame) : Device × List Byte :=
  if d.stallUsed f then
    match d.stallOf f.stream with
    | (ofs, nin, nout) =>
      ((d.mapOf f.stream nin nout).filter (fun e => e.ok && e.out)).foldl (outEntry (ofs + nin)) (d, f.stall)
  else (d, f.stall)

/-- The end `x` of a yard has come (R739, R766): after a correct frame CRC the IN entries are written and event 212 + k is raised,
outside a warm reset; a wrong one is counted. -/
def Device.yardEnd (d : Device) (x : YardEnd) : Device :=
  if x.ok then
    match x.ins with
    | some l => if d.rst.phase = .warm then d else (l.foldl (fun d e => d.inEntry e) d).raiseEvent (212 + x.k)
    | none => d
  else (d.linkCount 5).linkFlag 3

/-- The yard `f` received on port `p` ends as many code-groups after its /SY/ as it has more (R724, R739). -/
def Device.yardEnds (d : Device) (p : Port) (f : YardFrame) (ins : Option (List (Nat × Word))) : Device :=
  let x : YardEnd := { at' := d.nowN + 16 * (f.len - 1), port := p, ok := decide (f.crc = f.crcOf), k := f.stream, ins := ins }
  { d with link := { d.link with ends := d.link.ends ++ [x] } }

/-- The end of a yard that comes first, before tick `t`. -/
def Link.nextEnd (l : Link) (t : Nat) : Option YardEnd :=
  (l.ends.filter (fun x => decide (x.at' < t))).foldl (fun m x =>
    match m with | some y => if x.at' < y.at' then some x else m | none => some x) none

/-- The end `x` comes in the present tick. -/
def Device.endNow (d : Device) (x : YardEnd) : Device :=
  ({ d with link := { d.link with ends := d.link.ends.erase x } }).yardEnd x

/-- At most `n` ends of yards that fall before tick `t` come, each in its tick. -/
def Device.endsBefore (d : Device) (t : Nat) : Nat → Device
  | 0 => d
  | n + 1 =>
    match d.link.nextEnd t with
    | some x => ((d.skipTo x.at').endNow x).endsBefore t n
    | none => d

/-- TBASE_NOW moves forward to tick `t` where it lies ahead, and what falls before `t` with no command of its own takes place in its tick:
the ends of yards (R50, R739), the hard trips and the pads of Device.nextTick. Without VCORE, and in the hold of a cold reset, nothing
does. -/
def Device.passTo (d : Device) (t : Nat) : Device :=
  if !d.powered then d.advTo t
  else if t ≤ d.nowN then d
  else (d.endsBefore t d.link.ends.length).skipTo t

/-- The ends that `q` selects come, each in its tick. -/
def Device.endsCome (d : Device) (q : YardEnd → Bool) : Device :=
  let d := d.passTo ((d.link.ends.filter q).foldl (fun t x => max t x.at') 0)
  (d.link.ends.filter q).foldl (fun d x => d.endNow x) d

/-- A frame begins at port `p` of a member: the one before it there has ended (R733), and an address that was written takes effect
(R756). -/
def Device.frameStart (d : Device) (p : Port) : Device := (d.endsCome (fun x => decide (x.port = p))).addrTake

/-- The yard `g` leaves with a frame CRC as R734 states. -/
def Device.yardSend1 (d : Device) (p : Port) (g : YardFrame) (ok : Bool) : Device :=
  (d.forward p (.yard { g with crc := d.crcOut ok g.crcOf }) g.len).fresh

/-- A processing member receives a yard whose HCHK is correct. -/
def Device.yardGood (d : Device) (p : Port) (vern : Nat) (f : YardFrame) : Device :=
  let ok := decide (f.crc = f.crcOf)
  let r := d.yardOut f
  let g := { d.yardHead p f with stall := r.2 }
  let d := r.1.yardSend1 p { g with hchk := g.check } ok
  let d := ((d.yardSeq f.stream f.seq).yardTime p f (32 * d.nowN + vern)).yardPos p f
  ((d.yardFlags f).yardEvt f).yardEnds p f (d.yardIns f)

/-- A processing member receives a yard whose HCHK fails (R737). -/
def Device.yardBad (d : Device) (p : Port) (f : YardFrame) : Device :=
  let ok := decide (f.crc = f.crcOf)
  let g := d.yardHead p f
  let d := d.yardSend1 p { g with hchk := ~~~ g.check } ok
  let d := ((d.linkCount 4).linkFlag 2).yardEnds p f none
  { d with link := { d.link with prevOk := none } }

/-- A header with RC = 1 ends the U-turn of a member whose ports are both up (R752). -/
def Device.uturnEnd (d : Device) (f : YardFrame) : Device :=
  if f.isRc && decide (f.hchk = f.check) && d.link.uturn && d.link.la.up && d.link.lb.up then
    let l := d.link
    ({ d with link := { l with la := { l.la with turned := false }, lb := { l.lb with turned := false } } }).linkIrq 18 164
  else d

/-- A yard arrives at port `p` of a member; `vern` is the vernier position of /SY/ in the present tick. -/
def Device.yardAt (d : Device) (p : Port) (vern : Nat) (f : YardFrame) : Device :=
  let d' :=
    if !d.processes p f.dir then d.forward p (.yard f) f.len
    else if f.hchk = f.check then d.yardGood p vern f
    else d.yardBad p f
  d'.uturnEnd f

def execYard (p : Port) (vern : Fin 32) (f : YardFrame) (s : State) : Host.Outcome State Fault Refusal :=
  s.run (fun d => if d.linkAlive && (d.port p).up && !d.link.head then (d.frameStart p).yardAt p vern.val f else d)

/-! ### Errand frames at a member (R758 to R762) -/

/-- An errand frame begins at port `p` of a member: what has ended before it comes first, yards (R733, R739) and holds (R82). -/
def Device.errandStart (d : Device) (p : Port) : Device := (d.frameStart p).holdsOver

/-- An errand frame of kind `kind` has arrived at port `p` of a member, whole: the command stands for its /T/, and for a frame that /AB/
cuts off there is none (R750, R761; DESIGN CHOICE, log 108). -/
def Device.errandFrame (d : Device) (p : Port) (f : ErrFrame) (kind : Nat) : Device :=
  if !(d.linkAlive && (d.port p).up) || d.link.head || decide (f.kind ≠ kind) then d else
  let d := d.errandStart p
  if d.processes p f.dir then
    let ok := decide (f.crc = f.crcOf)
    let d := if ok then d else (d.linkCount 5).linkFlag 3
    let r := d.errandAct f ok
    let g := { r.2 with crc := r.1.crcOut ok r.2.crcOf }
    let d := r.1.forward p (.errand g) 0
    if ok then d else d.fresh
  else d.forward p (.errand f) 0

def execErrandReq (p : Port) (f : ErrFrame) (s : State) : Host.Outcome State Fault Refusal :=
  s.run (fun d => d.errandFrame p f 1)
def execErrandCollect (p : Port) (f : ErrFrame) (s : State) : Host.Outcome State Fault Refusal :=
  s.run (fun d => d.errandFrame p f 2)
def execErrandDrop (p : Port) (f : ErrFrame) (s : State) : Host.Outcome State Fault Refusal :=
  s.run (fun d => d.errandFrame p f 3)

/-! ### The reset command (R753 to R755, R766, R775) -/

/-- The node acts on /RC/: a warm reset with cause LINK, which in OFF ends OFF. -/
def Device.rcAct (d : Device) : Device :=
  let t := d.nowN
  match d.rst.phase with
  | .unpowered | .coldHold | .fuseLoaded => d
  | .off => ({ d with link := { d.link with rcAt := some t } }).offEnd 0x800 0
  | _ => ({ d with link := { d.link with rcAt := some t } }).warmRequest 0x800

/-- Two sets of /RC/ arrive at port `p` with `gap` code-groups between them. -/
def execResetCommand (p : Port) (s1 s2 : RcSet) (gap : Nat) (s : State) : Host.Outcome State Fault Refusal :=
  s.run (fun d =>
    let d' := d.rcForward p s1 s2
    if d.rcForMe s1 s2 gap then d'.rcAct else d')

end Sys2Proof.Machine
end

