-- ==== Sys2Proof/Machine/OdEv.lean ====
section
/-! DEFINITION. The device entries of the object dictionary and how the OD engine serves an errand (R776 to R785, R791 to
R794). -/
namespace Sys2Proof.Machine

/-- What an entry stands for: a constant, a register, its field [hi:lo], two registers (lower word first), a bit of a
register, the intent of a channel or of a slot, CLRFLT of a slot, 16 words of LE RAM. -/
inductive OdTgt where
  | const (v : Nat)
  | reg (a : Nat)
  | field (a hi lo : Nat)
  | pair (lo hi : Nat)
  | bit (a n : Nat)
  | intentCh (n : Nat)
  | intentSl (n : Nat)
  | clrFlt (n : Nat)
  | words (a : Nat)
deriving DecidableEq, Repr

/-- An entry (R777): the codes of its type, class and default source, its size in bytes, its target. -/
structure OdEnt where
  typ : Nat
  size : Nat
  cls : Nat
  src : Nat
  tgt : OdTgt
deriving DecidableEq, Repr

/-- The default source of a class (R780), those from fuses apart. -/
def srcOf (cls : Nat) : Nat := match cls with | 0 | 2 | 5 => 1 | 3 => 3 | _ => 0

/-- An entry with the default source of its class. -/
def ent (typ size cls : Nat) (t : OdTgt) : OdEnt := { typ := typ, size := size, cls := cls, src := srcOf cls, tgt := t }

/-- A U32 entry of class `cls` for the register at `a`. -/
def u32 (cls a : Nat) : OdEnt := ent 6 4 cls (.reg a)
/-- A U8 and a U16 entry. -/
def u8 (cls a : Nat) : OdEnt := ent 2 1 cls (.reg a)
def u16 (cls a : Nat) : OdEnt := ent 4 2 cls (.reg a)
/-- The same entry with its default from the fuses. -/
def fused (e : OdEnt) : OdEnt := { e with src := 2 }

/-- Index 0x1000 + i of identity, link and set control (R780). -/
def rowsSys (ix : Nat) : Option (List OdEnt) :=
  if ix = 0x1000 then
    some [fused (u32 0 bSYS), fused (ent 8 8 0 (.pair (bFUSE + 0xC) (bFUSE + 0x10))), ent 4 2 0 (.const 1),
          u8 1 (bLINK + 0x14), ent 8 8 1 (.pair (bLINK + 0x40) (bLINK + 0x44))]
  else if ix = 0x1010 then
    some ([ent 2 1 2 (.field (bLINK + 0x10) 7 0), ent 2 1 1 (.field (bLINK + 0x10) 15 8), u32 1 (bLINK + 4),
           u32 1 (bLINK + 0x28)] ++ (List.range 4).map (fun k => u32 5 (bLINK + 0x60 + 4 * k)))
  else if ix = 0x1030 then
    some [u32 4 (bSYS + 0x100), u32 2 (bSYS + 0x104), ent 8 8 2 (.pair (bSYS + 0x108) (bSYS + 0x10C)),
          u32 1 (bSYS + 0x110), u16 1 (bSYS + 0x114)]
  else if 0x1100 ≤ ix ∧ ix < 0x1140 then
    some [u32 5 (bLINK + 0x400 + 8 * (ix - 0x1100)), u32 5 (bLINK + 0x404 + 8 * (ix - 0x1100))]
  else none

/-- Channel `n`: 0x6000 + n. -/
def rowsPwm (n : Nat) : List OdEnt :=
  [u32 5 (aPwm n 0), u16 5 (aPwm n 1), u32 5 (aPwm n 2), u8 5 (aPwm n 3), u8 5 (aPwm n 4), u32 5 (aPwm n 5),
   u32 5 (aPwm n 6), u32 5 (aSnsCfg n), u32 5 (aSnsThr n), u32 5 (aSnsCmp n), ent 1 1 3 (.intentCh n),
   ent 1 1 1 (.bit bPWM n), u32 1 (aPwm n 13), u32 1 (aPwm n 9), u32 1 (aSnsCfg n + 0xC),
   ent 1 1 1 (.bit (bOD + 0x28) n)]

/-- Slot `n`: 0x6100 + n. -/
def rowsSlot (n : Nat) : List OdEnt :=
  [ent 1 1 3 (.intentSl n), ent 2 1 1 (.field (aLe n 0) 18 16), ent 9 2 2 (.reg (aLe n 1)), ent 7 4 2 (.reg (aLe n 2)),
   u32 1 (aLe n 3), u32 1 (aLe n 4), ent 1 1 4 (.clrFlt n), ent 1 1 1 (.bit (bOD + 0x2C) n)]

/-- Tracker `n`: 0x6400 + n. -/
def rowsTrk (n : Nat) : List OdEnt :=
  [u32 5 (aTrkCfg n), u32 5 (aTrkMod n), ent 7 4 2 (.reg (aTrkCfg n + 8)), u32 1 (aTrkCfg n + 0xC),
   ent 7 4 1 (.reg (aTrkCfg n + 0x10)), u32 1 (aTrkCfg n + 0x24)]

/-- Diagnostics: 0x8000. -/
def rowsDiag : List OdEnt :=
  [u16 1 (bPWR + 0x24), fused (u16 0 (bPWR + 0x28)), u16 2 (bPWR + 0x20), u32 1 (bPWR + 0x40),
   ent 3 1 1 (.reg (bPWR + 0x44)), u32 1 (bPWR + 0x60), u16 1 (bPWR + 0x4C), u32 1 (bPWR + 4), u32 1 bRST,
   u32 1 (bRST + 0x30), u32 1 (bTBASE + 4), u32 1 (bRTC + 4), u32 1 (bSYS + 0xF80), u32 1 (bSYS + 0xF40)]
  ++ (List.range 7).map (fun k => u32 1 (bMEM + 0x40 + 4 * k)) ++ [u16 1 (bMEM + 0x24), u16 1 (bPWR + 0x70)]

/-- The entries of an index, subindex 1 first (R780); none for an index the engine does not serve (R779). -/
def odRows (ix : Nat) : Option (List OdEnt) :=
  if ix < 0x2000 then rowsSys ix
  else if 0x6000 ≤ ix ∧ ix < 0x6020 then some (rowsPwm (ix - 0x6000))
  else if 0x6100 ≤ ix ∧ ix < 0x6120 then some (rowsSlot (ix - 0x6100))
  else if 0x6200 ≤ ix ∧ ix < 0x6220 then some [ent 10 64 5 (.words (aDesc (ix - 0x6200) 0))]
  else if 0x6280 ≤ ix ∧ ix < 0x6298 then
    some ((List.range 4).map (fun k => ent 10 64 5 (.words (aPage (ix - 0x6280) (16 * k)))))
  else if ix = 0x6300 then some ((List.range 8).map (fun a => u32 5 (aArena a)))
  else if 0x6400 ≤ ix ∧ ix < 0x6410 then some (rowsTrk (ix - 0x6400))
  else if ix = 0x8000 then some rowsDiag
  else none

/-- An application index (R779). -/
def isApp (ix : Nat) : Bool := (decide (0x2000 ≤ ix) && decide (ix < 0x6000)) || decide (0x9000 ≤ ix)

/-- Subindex `sub` of an index: 0 is the highest subindex (R776). -/
def odSub (rows : List OdEnt) (sub : Nat) : Option OdEnt :=
  if sub = 0 then some (ent 2 1 0 (.const rows.length)) else (rows.drop (sub - 1)).head?

/-- The access bits of a class (R777). -/
def accessOf (cls : Nat) : Nat := match cls with | 0 | 1 => 1 | 4 => 2 | _ => 3

/-- The answer of INFO (R782). -/
def OdEnt.info (e : OdEnt) : List Byte :=
  [BitVec.ofNat 8 e.typ, BitVec.ofNat 8 e.cls, BitVec.ofNat 8 (accessOf e.cls), BitVec.ofNat 8 e.src]
    ++ toBytes 2 e.size ++ [0, 0]

/-! ### RANGE (R778) -/

/-- The bits of a register that a write may set. -/
def writable (a : Nat) : Nat :=
  let o := a % 0x10000
  if a = bSYS + 0x100 then 7
  else
    match findRow (setRows (blkOf a)) o, findRow (liveRows (blkOf a)) o with
    | some r, _ => r.mask
    | none, some r => r.mask
    | none, none => 0xFFFFFFFF

/-- The bits of a word of LE RAM at offset `o` that are not reserved; `sf` marks a descriptor of the state-feedback law
(R309, R363, R364). -/
def leMask (sf : Bool) (o : Nat) : Nat :=
  if o < 0x800 then
    let m := descMask (o % 0x40 / 4)
    if sf then (wd m &&& sfMask (o % 0x40 / 4)).toNat else m
  else if o % 0x100 = 0xFC then 0 else 0xFFFFFFFF

/-- The value `v` sets a bit outside `m`. -/
def outside (v m : Nat) : Bool := wd v &&& ~~~ (wd m) != 0

/-- The 32-bit words of a byte string. -/
def wordsOf : Nat → List Byte → List Nat
  | 0, _ => []
  | n + 1, l => leNat (l.take 4) :: wordsOf n (l.drop 4)

/-- A write of `v` (its bytes in `data`) is out of range for the entry. -/
def OdEnt.range (e : OdEnt) (v : Nat) (data : List Byte) : Bool :=
  (decide (e.typ = 1) && decide (1 < v)) ||
    (match e.tgt with
     | .reg a => outside v (writable a)
     | .field _ hi lo => decide (2 ^ (hi - lo + 1) ≤ v)
     | .pair lo hi => outside (v % 0x100000000) (writable lo) || outside (v / 0x100000000) (writable hi)
     | .words a =>
       let l := wordsOf 16 data
       (l.zipIdx).any (fun x => outside x.1 (leMask (decide (fld (l.headD 0) 1 0 = 1)) (a % 0x10000 + 4 * x.2)))
     | _ => false)

/-! ### Register accesses of the engine -/

/-- The register an access of the entry begins with. -/
def OdTgt.block (t : OdTgt) : Nat :=
  match t with
  | .const _ => bSYS
  | .reg a | .field a _ _ | .pair a _ | .bit a _ | .words a => blkOf a
  | .intentCh _ => bPWM
  | .intentSl _ | .clrFlt _ => bLE

/-- Read words from consecutive registers; none where one answers with an error. -/
def Device.odReads (d : Device) : List Nat → Device × Option (List Nat)
  | [] => (d, some [])
  | a :: t =>
    match d.readReg .od a with
    | (d, .ok v) =>
      (match d.odReads t with
       | (d, some l) => (d, some (v.toNat :: l))
       | (d, none) => (d, none))
    | (d, _) => (d, none)

/-- Write words to consecutive registers; false where one is refused (R781). -/
def Device.odWrites (d : Device) : List (Nat × Nat) → Device × Bool
  | [] => (d, true)
  | (a, v) :: t =>
    match d.writeReg .od a (wd v) with
    | (d, .ok _) => d.odWrites t
    | (d, _) => (d, false)

/-- The value of words, lower word first. -/
def joinWords (l : List Nat) : Nat := l.foldr (fun w n => w + 0x100000000 * n) 0

/-- The value of an entry, in the view `act` for an entry of the sets (R782). -/
def Device.odValue (d : Device) (e : OdEnt) (act : Bool) : Device × Option Nat :=
  let o := if act && decide (e.cls = 5) then 0x8000 else 0
  match e.tgt with
  | .const v => (d, some v)
  | .reg a => let r := d.odReads [a + o]; (r.1, r.2.map joinWords)
  | .field a hi lo => let r := d.odReads [a]; (r.1, r.2.map (fun l => fld (joinWords l) hi lo))
  | .pair lo hi => let r := d.odReads [lo, hi]; (r.1, r.2.map joinWords)
  | .bit a n => let r := d.odReads [a]; (r.1, r.2.map (fun l => fld (joinWords l) n n))
  | .intentCh n => (d, some (if wb d.od.intCh n then 1 else 0))
  | .intentSl n => (d, some (if wb d.od.intSl n then 1 else 0))
  | .clrFlt _ => (d, some 0)
  | .words a => let r := d.odReads ((List.range 16).map (fun i => a + o + 4 * i)); (r.1, r.2.map joinWords)

/-- The control word of slot `n` with EN and CLRFLT as given and OVRD as it stands (R791). -/
def Device.slotWord (d : Device) (n en clr : Nat) : Nat :=
  en + (if (d.slotC n).ovrd then 2 else 0) + 0x100 * clr

/-- Intent of a channel or a slot (R791). -/
def Device.setIntent (d : Device) (slot : Bool) (n : Nat) (b : Bool) : Device :=
  { d with od := if slot then { d.od with intSl := setB d.od.intSl n b } else { d.od with intCh := setB d.od.intCh n b } }

/-- The register writes of a WRITE of value `v` (R781, R791). -/
def Device.odStores (d : Device) (t : OdTgt) (v : Nat) (data : List Byte) : List (Nat × Nat) :=
  match t with
  | .reg a => [(a, v)]
  | .field a _ lo => [(a, v * 2 ^ lo)]
  | .pair lo hi => [(lo, v % 0x100000000), (hi, v / 0x100000000)]
  | .intentCh n => [(if v = 1 then bPWM else bPWM + 4, 2 ^ n)]
  | .intentSl n => [(aLe n 0, d.slotWord n v 0)]
  | .clrFlt n => [(aLe n 0, d.slotWord n (if d.slotOn n then 1 else 0) v)]
  | .words a => ((wordsOf 16 data).zipIdx).map (fun x => (a + 4 * x.2, x.1))
  | .const _ | .bit _ _ => []

/-- The code of a write that was carried out: DIFF or OK (R794). -/
def Device.diffCode (d : Device) (t : OdTgt) : Nat :=
  match t with
  | .intentCh n => if d.misCh n then 1 else 0
  | .intentSl n => if d.misSl n then 1 else 0
  | _ => 0

/-- The intent bit a COMMAND write stores before its register write (R791). -/
def Device.intentFirst (d : Device) (t : OdTgt) (v : Nat) : Device :=
  match t with
  | .intentCh n => d.setIntent false n (decide (v = 1))
  | .intentSl n => d.setIntent true n (decide (v = 1))
  | _ => d

/-! ### Serving (R782 to R785) -/

/-- A WRITE of the bytes `data`, as long as the entry asks, to entry `en` (R778, R784). -/
def Device.odWriteTo (d : Device) (e : Errand) (en : OdEnt) (data : List Byte) : Device :=
  let v := leNat data
  if en.range v data then d.odReply e 0x16 []
  else if en.tgt = .reg (bSYS + 0x100) ∧ d.swapIgnores (wd v) then d.odReply e 0x18 []
  else
    let l := d.odStores en.tgt v data
    match (d.intentFirst en.tgt v).odWrites l with
    | (d', true) => d'.odReply e (d'.diffCode en.tgt) []
    | (d', false) => d'.odReply e 0xF2 []

/-- A WRITE: access and length are checked, then the data are read from the buffer (R778, R784). -/
def Device.odWriteOp (d : Device) (e : Errand) (en : OdEnt) (len : Nat) : Device :=
  if accessOf en.cls < 2 then d.odReply e 0x13 []
  else if len ≠ en.size then d.odReply e 0x15 []
  else
    match d.bytesIn .od (bufAddr e.buf + 10) len with
    | (d, some data) => d.odWriteTo e en data
    | (d, none) => d.odReply e 0xF1 []

/-- A READ or READACT. -/
def Device.odReadOp (d : Device) (e : Errand) (en : OdEnt) (act : Bool) : Device :=
  match d.odValue en act with
  | (d, some v) => d.odReply e 0 (toBytes en.size v)
  | (d, none) => d.odReply e 0xF1 []

/-- Operation `op` of R782 on entry `en`; an access to a unit in reset waits (R181). -/
def Device.odOp (d : Device) (e : Errand) (en : OdEnt) (op len : Nat) : Device :=
  if op = 3 then d.odReply e 0 en.info
  else if op = 0 ∨ 4 < op then d.odReply e 0x12 []
  else if op ≠ 2 ∧ en.cls = 4 then d.odReply e 0x14 []
  else if d.blockBusy en.tgt.block then d.engWait 7
  else if op = 2 then (d.engDone 7).odWriteOp e en len
  else (d.engDone 7).odReadOp e en (decide (op = 4))

/-- The request in the ten header bytes `h` of an errand's buffer. -/
def Device.odRequest (d : Device) (e : Errand) (h : List Byte) : Device :=
  let b := fun i => ((h.drop i).headD 0).toNat
  let ix := b 4 + 0x100 * b 5
  if isApp ix then (if wb (d.lv bOD) 0 then d.odForward e else d.odReply e 0x10 [])
  else
    match odRows ix with
    | none => d.odReply e 0x10 []
    | some rows =>
      match odSub rows (b 6) with
      | none => d.odReply e 0x11 []
      | some en => d.odOp e en (b 7) (b 8)

/-- The engine serves errand `e`; an unreadable request is answered MEMERR. -/
def Device.odServe (d : Device) (e : Errand) : Device :=
  match d.bytesIn .od (bufAddr e.buf) 10 with
  | (d, some h) => d.odRequest e h
  | (d, none) => d.odReply e 0xF1 []

/-- The OD engine takes the oldest stored errand (R783), once it has a tag (R131) and the errand's bytes stand in its buffer. -/
def execErrandServe (s : State) : Host.Outcome State Fault Refusal :=
  s.run (fun d =>
    match d.link.errands.find? (fun e => decide (e.st = .stored)) with
    | some e =>
      if d.blockBusy bOD || d.worksFor 7 || d.workAt e then d
      else if d.tagBars 7 then d.engWait 7
      else (if d.engOf 7 = .barred then d.engDone 7 else d).odServe e
    | none => d)

end Sys2Proof.Machine
end

