-- ==== Sys2Proof/Machine/RegCmds.lean ====
section
/-! DEFINITION. The register commands: an initiator writes or reads one register of a block, through the checks of
Regs.lean, and its response and data are recorded (R14, R16, R18, R131, R543). -/
namespace Sys2Proof.Machine

/-! ### Sending an access -/

/-- The response an access ends with (R14, R16, R543, R669). -/
def respOf : Acc → Resp
  | .ok _ => .ok
  | .bus 2 => .ecc
  | .bus _ => .busError
  | .dom _ => .domain
  | .wait => .ok

/-- Register accesses are made outside device resets (log 3). -/
def Device.regsUp (d : Device) : Bool := match d.rst.phase with | .bootRead | .run => true | _ => false

/-- The debug master's own access level refuses the access (R830, R847). -/
def Device.levelBars (d : Device) (who : Who) (wr : Bool) (a : Nat) : Bool :=
  match who with
  | .debug => d.windowRefused wr a
  | _ => false

/-- The response to a write. -/
def Device.writeDone (d : Device) (who : Who) (r : Resp) : Device :=
  { d with resp := d.resp.set (fun _ => .ok) (whoIdx who) r }

/-- The answer `x` of the request `w`: its engine takes it, or it is recorded. -/
def Device.answered (d : Device) (w : Wait) (x : Acc) : Device :=
  if w.eng then d.setEng (whoIdx w.who) (.answered w.addr w.put x)
  else
    match w.put, x with
    | some _, _ => d.writeDone w.who (respOf x)
    | none, .ok v => d.answer w.who v .ok
    | none, _ => d.answer w.who 0 (respOf x)

/-- The request `w` is at its unit, with a tag: a write, with the mode and the domain of its instruction (R429). The OD engine's is
the push of a handle to LINK_FWDQ (R786). -/
def Device.putGo (d : Device) (w : Wait) (v : Word) : Device :=
  let drop := w.eng && decide (whoIdx w.who = 6) && d.pushDrops w.addr
  if w.eng && decide (w.who = .od) then
    let r := d.quePush ((w.addr % 0x10000 - 0x100) / 0x20) v
    r.1.answered w (if r.2 then .bus 4 else .ok 0)
  else
  match d.putReg w.req w.who w.addr v with
  | (d', .wait) => { d' with waits := d'.waits ++ [{ w with tag := true }] }
  | (d', .ok x) => d'.answered w (if drop then .bus 4 else .ok x)
  | (d', x) => d'.answered w x

/-- The request `w` is at its unit, with a tag: a read. -/
def Device.getGo (d : Device) (w : Wait) : Device :=
  match d.getReg w.req w.who w.addr with
  | (d', .wait) => { d' with waits := d'.waits ++ [{ w with tag := true }] }
  | (d', x) => d'.answered w x

/-- The request `w` has its tag: it completes, or holds the tag while its unit is in reset (R131, R181). -/
def Device.grant (d : Device) (w : Wait) : Device :=
  match w.put with
  | some v => d.putGo w v
  | none => d.getGo w

/-- A register access of initiator `i` has not completed and `i` is a core: its next one does not begin before it has (R452). -/
def Device.ordered (d : Device) (i : Nat) : Bool := decide (i < 4) && d.waits.any (fun w => decide (whoIdx w.who = i))

/-- An initiator sends the request `w`: a core's next access waits for the one before it (R452); at the cap of its tags, or
behind one of its requests that waits there, a request waits and is counted (R131, R586). -/
def Device.issue (d : Device) (w : Wait) : Device :=
  let i := whoIdx w.who
  if d.ordered i then { d with waits := d.waits ++ [{ w with tag := false }] }
  else if d.noTag i then { (d.countWait i) with waits := d.waits ++ [{ w with tag := false }] }
  else d.grant w

/-- The writes that request a reset: one of the period in which a device reset began shows its cause (R163, R164). -/
def Device.lateReset (d : Device) (who : Who) (a : Nat) (v : Word) : Device :=
  if !d.samePeriod || (d.regDom who a true v).isSome then d
  else if a = bRST + 4 then d.swrstWrite v
  else if a = bRST + 8 then d.coreResets (wf v 11 8)
  else if a = bRST + 0x50 then d.owlKick v
  else d

/-- An initiator writes the register at `a`. -/
def Device.regWrite (d : Device) (who : Who) (a : Nat) (v : Word) : Device :=
  if !d.regsUp then d.lateReset who a v
  else if d.levelBars who true a then d.writeDone who .domain
  else d.issue { who := who, addr := a, put := some v, tag := true, req := d.reqOf who }

/-- An initiator reads the register at `a`. -/
def Device.regRead (d : Device) (who : Who) (a : Nat) : Device :=
  if !d.regsUp then d
  else if d.levelBars who false a then d.answer who 0 .domain
  else d.issue { who := who, addr := a, put := none, tag := true, req := d.reqOf who }

/-! ### Requests that wait (R131, R181, R586, R604, R605, R890) -/

/-- The first element that `p` selects, and the list without it. -/
def takeFirst {α : Type} (p : α → Bool) : List α → Option (α × List α)
  | [] => none
  | x :: l => if p x then some (x, l) else (takeFirst p l).map (fun y => (y.1, x :: y.2))

/-- A register access of core `c` is under way (R452). -/
def Device.underWay (d : Device) (i : Nat) : Bool :=
  decide (i < 4) && d.waits.any (fun w => w.tag && decide (whoIdx w.who = i))

/-- A transaction of initiator `i` has completed (R131): its oldest request that waits for a tag is issued; a core's, once the
access before it has completed (R452). Then the work of the link controller and of the OD engine that waits for one. -/
def Device.tagFree (d : Device) (i : Nat) : Device :=
  match takeFirst (fun w => !w.tag && decide (whoIdx w.who = i)) d.waits with
  | some (w, l) => if d.tagsOf i < tagCap i ∧ d.underWay i = false then ({ d with waits := l }).grant w else d
  | none => d.workFree i

/-- The accesses of the cores that have waited for earlier ones follow, at most `n` of each core (R452). -/
def Device.pump (d : Device) (n : Nat) : Device :=
  (List.range 4).foldl (fun d c => (List.range n).foldl (fun d _ => d.tagFree c) d) d

def execFabricTagFree (i : Fin 9) (s : State) : Host.Outcome State Fault Refusal := s.run (fun d => d.tagFree i.val)

/-- What a request at the queue unit is (R601, R604, R605): 0 a push, 1 a pop, 2 the write of a configuration register, 3 another
read. -/
def queOp (w : Wait) : Nat :=
  let o := w.addr % 0x10000
  if 0x100 ≤ o ∧ o < 0x500 ∧ o % 0x20 = 0 ∧ w.put.isSome then 0
  else if w.put.isSome then 2
  else if 0x100 ≤ o ∧ o < 0x500 ∧ o % 0x20 = 4 then 1
  else 3

/-- The queue that a request is for. -/
def queNum (w : Wait) : Nat := (w.addr % 0x10000 - 0x100) / 0x20

/-- One decision has request `x` served before request `y` whatever their initiators are: of one queue, pops before pushes when
the queue is full and pushes before pops otherwise, and both before a write of its configuration (R604, R605). -/
def Device.before (d : Device) (x y : Wait) : Bool :=
  let k := d.queC (queNum x)
  let full := decide (k.cap ≤ k.words.length)
  decide (blkOf x.addr = bQUE) && decide (blkOf y.addr = bQUE) && decide (queNum x = queNum y)
    && ((decide (queOp x = 1) && decide (queOp y = 0) && full) || (decide (queOp x = 0) && decide (queOp y = 1) && !full)
      || (decide (queOp x < 2) && decide (queOp y = 2)))

/-- The place of the request that a decision over `l` serves next: of those that no other must come before, the first of the lowest
initiator index (R586). -/
def Device.nextPlace (d : Device) (l : List Wait) : Nat :=
  match ((List.range l.length).filterMap (fun i => (l[i]?).map (fun w => (i, w)))).foldl (fun m x =>
    if l.any (fun y => d.before y x.2) then m
    else match m with
      | some (y : Nat × Wait) => if whoIdx x.2.who < whoIdx y.2.who then some x else m
      | none => some x) none with
  | some x => x.1
  | none => 0

/-- The requests `l` in the order of one decision, at most `n` of them. -/
def Device.served (d : Device) (l : List Wait) : Nat → List Wait
  | 0 => []
  | n + 1 =>
    let i := d.nextPlace l
    (l[i]?).toList ++ d.served (l.eraseIdx i) n

/-- The order in which a unit that becomes free serves the requests that wait for it (R586, R604, R605, R890); the queue
unit, the lock unit and the shed unit decide, every other unit serves in the order of arrival. -/
def Device.decision (d : Device) (u : Nat) (l : List Wait) : List Wait :=
  if u = 2 ∨ u = 3 ∨ u = 4 then d.served l l.length else l

/-- The request waits for unit `u` with a tag. -/
def waitsFor (u : Nat) (w : Wait) : Bool := w.tag && decide (unitOf (blkOf w.addr) = some u)

/-- The reset of unit `u` completes (R181): the accesses that wait for the unit complete, and those that their cores sent
behind them follow (R452). A soft trip still requested takes place anew (R391). At the shed the errands that the link controller
stores come in their place (R586). -/
def Device.unitFree (d : Device) (u : Nat) : Device :=
  let ws := d.waits.filter (waitsFor u)
  let d := { d with
    waits := d.waits.filter (fun w => !waitsFor u w),
    rst := { d.rst with unitBusy := d.rst.unitBusy &&& ~~~ (BitVec.twoPow 11 u) } }
  let d := if u = 7 then d.safeTrips.softRefresh else d
  let l := d.decision u ws
  let low := fun w => decide (u ≠ 3) || decide (whoIdx w.who < 5)
  let d := (l.filter low).foldl (fun d w => d.grant w) d
  let d := if u = 3 then d.storesNow else d
  ((l.filter (fun w => !low w)).foldl (fun d w => d.grant w) d).pump d.waits.length

/-- The unit reset of DMA waits for the elements in flight (R181, R656). -/
def execUnitResetDone (u : Fin 11) (s : State) : Host.Outcome State Fault Refusal :=
  s.run (fun d =>
    if d.rst.unitBusy.getLsbD u.val && !(decide (u.val = 1) && d.dmaDrains) then d.unitFree u.val else d)

/-! ### Addresses of the commands' registers -/

/-- The owner register of an object (R408, R538). -/
def ownReg : OwnObj → Nat
  | .route r => aRtOwn r.val
  | .queue q => aQueOwn q.val
  | .lock n => aLockOwn n.val
  | .dma k => aDmaOwn k.val
  | .irq i => aIown i.val

/-- The stored fields EN and OVRD of LE_SLOT_CTL[n], which a write of one of its other fields leaves as they are. -/
def Device.slotCtl (d : Device) (n : Nat) : Word :=
  boolW (decide ((d.slotC n).st ≠ .off)) 0 ||| boolW (d.slotC n).ovrd 1

/-! ### The commands -/

/-- REGISTER_WRITE (R18). -/
def execRegisterWrite (who : Who) (addr : Word) (v : Word) (s : State) : Host.Outcome State Fault Refusal :=
  s.run (fun d => d.regWrite who addr.toNat v)
/-- RESTORE (R68). -/
def execRestore (who : Who) (s : State) : Host.Outcome State Fault Refusal :=
  s.run (fun d => d.regWrite who bTBASE (d.lv bTBASE ||| 0x100))
/-- TBASE_NOW_LO_READ (R72). -/
def execTbaseNowLoRead (who : Who) (s : State) : Host.Outcome State Fault Refusal :=
  s.run (fun d => d.regRead who (bTBASE + 0x10))
/-- TBASE_CMP_LO_WRITE (R75). -/
def execTbaseCmpLoWrite (who : Who) (k : Fin 6) (v : Word) (s : State) : Host.Outcome State Fault Refusal :=
  s.run (fun d => d.regWrite who (bTBASE + 0x100 + 0x10 * k.val) v)
/-- TBASE_CMP_HI_WRITE (R75). -/
def execTbaseCmpHiWrite (who : Who) (k : Fin 6) (v : Word) (s : State) : Host.Outcome State Fault Refusal :=
  s.run (fun d => d.regWrite who (bTBASE + 0x104 + 0x10 * k.val) v)
/-- TBASE_CMP_LO_READ (R75). -/
def execTbaseCmpLoRead (who : Who) (k : Fin 6) (s : State) : Host.Outcome State Fault Refusal :=
  s.run (fun d => d.regRead who (bTBASE + 0x100 + 0x10 * k.val))
/-- TBASE_CMPCTL_WRITE (R78). -/
def execTbaseCmpctlWrite (who : Who) (k : Fin 6) (v : Word) (s : State) : Host.Outcome State Fault Refusal :=
  s.run (fun d => d.regWrite who (bTBASE + 0x10C + 0x10 * k.val) v)
/-- RTC_MODE_CHANGE (R86). -/
def execRtcModeChange (who : Who) (tickMode : Bool) (s : State) : Host.Outcome State Fault Refusal :=
  s.run (fun d => d.regWrite who bRTC (setB (d.lv bRTC) 0 tickMode))
/-- SNAP (R90). -/
def execSnap (who : Who) (s : State) : Host.Outcome State Fault Refusal := s.run (fun d => d.regWrite who (bRTC + 8) 1)
/-- SET_CAL (R94). -/
def execSetCal (who : Who) (s : State) : Host.Outcome State Fault Refusal :=
  s.run (fun d => d.regWrite who (bRTC + 8) 2)
/-- ADD_HOUR (R95). -/
def execAddHour (who : Who) (s : State) : Host.Outcome State Fault Refusal :=
  s.run (fun d => d.regWrite who (bRTC + 8) 3)
/-- SUB_HOUR (R95). -/
def execSubHour (who : Who) (s : State) : Host.Outcome State Fault Refusal :=
  s.run (fun d => d.regWrite who (bRTC + 8) 4)
/-- PACE_TGT_WRITE (R124). -/
def execPaceTgtWrite (who : Who) (v : Word) (s : State) : Host.Outcome State Fault Refusal :=
  s.run (fun d => d.regWrite who aPaceTgt v)
/-- REQ_RUN (R139). -/
def execReqRun (who : Who) (s : State) : Host.Outcome State Fault Refusal :=
  s.run (fun d => d.regWrite who (bPWR + 8) 0)
/-- REQ_PARK (R139). -/
def execReqPark (who : Who) (s : State) : Host.Outcome State Fault Refusal :=
  s.run (fun d => d.regWrite who (bPWR + 8) 1)
/-- REQ_SLEEP (R140). -/
def execReqSleep (who : Who) (s : State) : Host.Outcome State Fault Refusal :=
  s.run (fun d => d.regWrite who (bPWR + 8) 2)
/-- REQ_OFF (R140). -/
def execReqOff (who : Who) (s : State) : Host.Outcome State Fault Refusal :=
  s.run (fun d => d.regWrite who (bPWR + 8) 3)
/-- SOFTWARE_RESET (R168). -/
def execSoftwareReset (who : Who) (v : Word) (s : State) : Host.Outcome State Fault Refusal :=
  s.run (fun d => d.regWrite who (bRST + 4) v)
/-- CORE_RESET (R177). -/
def execCoreReset (who : Who) (mask : BitVec 4) (s : State) : Host.Outcome State Fault Refusal :=
  s.run (fun d => d.regWrite who (bRST + 8) (d.rst.hold.setWidth 32 ||| mask.setWidth 32 <<< 8))
/-- CORE_HOLD (R178). -/
def execCoreHold (who : Who) (hold : BitVec 4) (s : State) : Host.Outcome State Fault Refusal :=
  s.run (fun d => d.regWrite who (bRST + 8) (hold.setWidth 32))
/-- UNIT_RESET (R180). -/
def execUnitReset (who : Who) (v : Word) (s : State) : Host.Outcome State Fault Refusal :=
  s.run (fun d => d.regWrite who (bRST + 0x20) v)
/-- OWL_ENABLE (R182). -/
def execOwlEnable (who : Who) (v : Word) (s : State) : Host.Outcome State Fault Refusal :=
  s.run (fun d => d.regWrite who aOwlCtl v)
/-- OWL_KICK_OPEN (R183). -/
def execOwlKickOpen (who : Who) (s : State) : Host.Outcome State Fault Refusal :=
  s.run (fun d => d.regWrite who (bRST + 0x50) 0x3C96)
/-- OWL_KICK_COMPLETE (R183). -/
def execOwlKickComplete (who : Who) (s : State) : Host.Outcome State Fault Refusal :=
  s.run (fun d => d.regWrite who (bRST + 0x50) 0xC369)
/-- OWL_KICK_WRONG (R184). -/
def execOwlKickWrong (who : Who) (v : Word) (s : State) : Host.Outcome State Fault Refusal :=
  s.run (fun d => d.regWrite who (bRST + 0x50) v)
/-- PIN_CLAIM (R191). -/
def execPinClaim (who : Who) (p : Fin 96) (v : Word) (s : State) : Host.Outcome State Fault Refusal :=
  s.run (fun d => d.regWrite who (aPinCfg p.val) (v ||| 0x10000))
/-- SNS_SWTRIG (R210). -/
def execSnsSwtrig (who : Who) (v : Word) (s : State) : Host.Outcome State Fault Refusal :=
  s.run (fun d => d.regWrite who (bSNS + 0xC) v)
/-- CAL_REQUEST (R229). -/
def execCalRequest (who : Who) (v : Word) (s : State) : Host.Outcome State Fault Refusal :=
  s.run (fun d => d.regWrite who (bSNS + 4) v)
/-- TRK_POS_WRITE (R242). -/
def execTrkPosWrite (who : Who) (n : Fin 16) (v : Word) (s : State) : Host.Outcome State Fault Refusal :=
  s.run (fun d => d.regWrite who (bTRK + 0x108 + 0x40 * n.val) v)
/-- TRK_EDGETS_LO_READ (R241). -/
def execTrkEdgetsLoRead (who : Who) (n : Fin 16) (s : State) : Host.Outcome State Fault Refusal :=
  s.run (fun d => d.regRead who (bTRK + 0x11C + 0x40 * n.val))
/-- CHANNEL_ENABLE (R261). -/
def execChannelEnable (who : Who) (v : Word) (s : State) : Host.Outcome State Fault Refusal :=
  s.run (fun d => d.regWrite who bPWM v)
/-- CHANNEL_DISABLE (R263). -/
def execChannelDisable (who : Who) (v : Word) (s : State) : Host.Outcome State Fault Refusal :=
  s.run (fun d => d.regWrite who (bPWM + 4) v)
/-- LOAD_ALL (R267). -/
def execLoadAll (who : Who) (v : Word) (s : State) : Host.Outcome State Fault Refusal :=
  s.run (fun d => d.regWrite who (bPWM + 8) v)
/-- SOFT_TRIP (R280). -/
def execSoftTrip (who : Who) (v : Word) (s : State) : Host.Outcome State Fault Refusal :=
  s.run (fun d => d.regWrite who (bPWM + 0x10) v)
/-- TRIP_CLEAR (R285). -/
def execTripClear (who : Who) (n : Fin 32) (v : Word) (s : State) : Host.Outcome State Fault Refusal :=
  s.run (fun d => d.regWrite who (aPwm n.val 13) v)
/-- DUTY_WRITE (R44). -/
def execDutyWrite (who : Who) (n : Fin 32) (v : Word) (s : State) : Host.Outcome State Fault Refusal :=
  s.run (fun d => d.regWrite who (aPwm n.val 8) v)
/-- SLOT_ENABLE (R304). -/
def execSlotEnable (who : Who) (n : Fin 32) (s : State) : Host.Outcome State Fault Refusal :=
  s.run (fun d => d.regWrite who (aLe n.val 0) (d.slotCtl n.val ||| 1))
/-- SLOT_DISABLE (R306). -/
def execSlotDisable (who : Who) (n : Fin 32) (s : State) : Host.Outcome State Fault Refusal :=
  s.run (fun d => d.regWrite who (aLe n.val 0) (setB (d.slotCtl n.val) 0 false))
/-- SLOT_OVERRIDE (R322). -/
def execSlotOverride (who : Who) (n : Fin 32) (on : Bool) (s : State) : Host.Outcome State Fault Refusal :=
  s.run (fun d => d.regWrite who (aLe n.val 0) (setB (d.slotCtl n.val) 1 on))
/-- CLEAR_FAULT (R337). -/
def execClearFault (who : Who) (n : Fin 32) (s : State) : Host.Outcome State Fault Refusal :=
  s.run (fun d => d.regWrite who (aLe n.val 0) (d.slotCtl n.val ||| 0x100))
/-- CLEAR_STATE (R338). -/
def execClearState (who : Who) (n : Fin 32) (s : State) : Host.Outcome State Fault Refusal :=
  s.run (fun d => d.regWrite who (aLe n.val 0) (d.slotCtl n.val ||| 0x200))
/-- LE_TRIG (R314). -/
def execLeTrig (who : Who) (v : Word) (s : State) : Host.Outcome State Fault Refusal :=
  s.run (fun d => d.regWrite who (bLE + 8) v)
/-- LE_BIST_START (R345). -/
def execLeBistStart (who : Who) (s : State) : Host.Outcome State Fault Refusal :=
  s.run (fun d => d.regWrite who (bLE + 0x10) 1)
/-- SW_EVENT_SET (R387). -/
def execSwEventSet (who : Who) (v : Word) (s : State) : Host.Outcome State Fault Refusal :=
  s.run (fun d => d.regWrite who (bEVR + 0x10) v)
/-- SW_EVENT_CLEAR (R387). -/
def execSwEventClear (who : Who) (v : Word) (s : State) : Host.Outcome State Fault Refusal :=
  s.run (fun d => d.regWrite who (bEVR + 0x14) v)
/-- SW_EVENT_PULSE (R387). -/
def execSwEventPulse (who : Who) (v : Word) (s : State) : Host.Outcome State Fault Refusal :=
  s.run (fun d => d.regWrite who (bEVR + 0x18) v)
/-- ROUTE_LOCK (R399). -/
def execRouteLock (who : Who) (hi : Bool) (v : Word) (s : State) : Host.Outcome State Fault Refusal :=
  s.run (fun d => d.regWrite who (bEVR + (if hi then 4 else 0)) v)
/-- ROUTE_CONFIG_WRITE (R396). -/
def execRouteConfigWrite (who : Who) (r : Fin 64) (mask : Bool) (v : Word) (s : State) :
    Host.Outcome State Fault Refusal :=
  s.run (fun d => d.regWrite who (if mask then aRtMask r.val else aRtCfg r.val) v)
/-- OWNER_WRITE (R538). -/
def execOwnerWrite (who : Who) (obj : OwnObj) (v : Word) (s : State) : Host.Outcome State Fault Refusal :=
  s.run (fun d => d.regWrite who (ownReg obj) v)
/-- INTERRUPT_CLAIM (R568). -/
def execInterruptClaim (who : Who) (c : Fin 4) (s : State) : Host.Outcome State Fault Refusal :=
  s.run (fun d => d.regRead who (bINTC + 0x10 + 4 * c.val))
/-- INTERRUPT_COMPLETE (R570). -/
def execInterruptComplete (who : Who) (c : Fin 4) (v : Word) (s : State) : Host.Outcome State Fault Refusal :=
  s.run (fun d => d.regWrite who (bINTC + 0x20 + 4 * c.val) v)
/-- INTERRUPT_PSET (R558). -/
def execInterruptPset (who : Who) (src : Fin 193) (s : State) : Host.Outcome State Fault Refusal :=
  s.run (fun d => d.regWrite who (aScfg src.val) ((d.scfg src.val &&& 0xF0F) ||| 0x10000))
/-- INTERRUPT_PCLR (R558). -/
def execInterruptPclr (who : Who) (src : Fin 193) (s : State) : Host.Outcome State Fault Refusal :=
  s.run (fun d => d.regWrite who (aScfg src.val) ((d.scfg src.val &&& 0xF0F) ||| 0x20000))
/-- DOORBELL (R575). -/
def execDoorbell (who : Who) (k : Fin 4) (v : Word) (s : State) : Host.Outcome State Fault Refusal :=
  s.run (fun d => d.regWrite who (bINTC + 0x60 + 4 * k.val) v)
/-- THR_WRITE (R561). -/
def execThrWrite (who : Who) (c : Fin 4) (v : Word) (s : State) : Host.Outcome State Fault Refusal :=
  s.run (fun d => d.regWrite who (bINTC + 0x30 + 4 * c.val) v)
/-- QUE_PUSH (R601). -/
def execQuePush (who : Who) (q : Fin 32) (v : Word) (s : State) : Host.Outcome State Fault Refusal :=
  s.run (fun d => d.regWrite who (bQUE + 0x100 + 0x20 * q.val) v)
/-- QUE_POP (R601). -/
def execQuePop (who : Who) (q : Fin 32) (s : State) : Host.Outcome State Fault Refusal :=
  s.run (fun d => d.regRead who (bQUE + 0x104 + 0x20 * q.val))
/-- QUE_PEEK (R601). -/
def execQuePeek (who : Who) (q : Fin 32) (s : State) : Host.Outcome State Fault Refusal :=
  s.run (fun d => d.regRead who (bQUE + 0x108 + 0x20 * q.val))
/-- QUEUE_CONFIG (R597). -/
def execQueueConfig (who : Who) (q : Fin 32) (v : Word) (s : State) : Host.Outcome State Fault Refusal :=
  s.run (fun d => d.regWrite who (bQUE + 0x110 + 0x20 * q.val) v)
/-- LOCK_TAKE (R612). -/
def execLockTake (who : Who) (n : Fin 32) (s : State) : Host.Outcome State Fault Refusal :=
  s.run (fun d => d.regRead who (bLOCK + 0x100 + 0x10 * n.val))
/-- LOCK_GIVE (R613). -/
def execLockGive (who : Who) (n : Fin 32) (v : Word) (s : State) : Host.Outcome State Fault Refusal :=
  s.run (fun d => d.regWrite who (bLOCK + 0x104 + 0x10 * n.val) v)
/-- SHED_ALLOC (R620). -/
def execShedAlloc (who : Who) (s : State) : Host.Outcome State Fault Refusal := s.run (fun d => d.regRead who bSHED)
/-- SHED_FREE (R621). -/
def execShedFree (who : Who) (v : Word) (s : State) : Host.Outcome State Fault Refusal :=
  s.run (fun d => d.regWrite who (bSHED + 4) v)
/-- SHED_PASS (R622). -/
def execShedPass (who : Who) (v : Word) (s : State) : Host.Outcome State Fault Refusal :=
  s.run (fun d => d.regWrite who (bSHED + 8) v)
/-- SHED_FFREE (R623). -/
def execShedFfree (who : Who) (v : Word) (s : State) : Host.Outcome State Fault Refusal :=
  s.run (fun d => d.regWrite who (bSHED + 0xC) v)
/-- SHED_LOWMARK_WRITE (R631). -/
def execShedLowmarkWrite (who : Who) (v : Word) (s : State) : Host.Outcome State Fault Refusal :=
  s.run (fun d => d.regWrite who (bSHED + 0x20) v)
/-- DMA_START (R641). -/
def execDmaStart (who : Who) (k : Fin 16) (s : State) : Host.Outcome State Fault Refusal :=
  s.run (fun d => d.regWrite who (aDma k.val 4) 1)
/-- DMA_STOP (R655). -/
def execDmaStop (who : Who) (k : Fin 16) (s : State) : Host.Outcome State Fault Refusal :=
  s.run (fun d => d.regWrite who (aDma k.val 4) 2)
/-- MERGE_FLUSH (R678). -/
def execMergeFlush (who : Who) (s : State) : Host.Outcome State Fault Refusal :=
  s.run (fun d => d.regWrite who bMEM (d.lv bMEM ||| 0x100))
/-- MERGE_DISABLE (R681). -/
def execMergeDisable (who : Who) (s : State) : Host.Outcome State Fault Refusal :=
  s.run (fun d => d.regWrite who bMEM 0)
/-- FLASH_KEY (R690). -/
def execFlashKey (who : Who) (v : Word) (s : State) : Host.Outcome State Fault Refusal :=
  s.run (fun d => d.regWrite who (bFLASH + 8) v)
/-- PROG (R691). -/
def execProg (who : Who) (s : State) : Host.Outcome State Fault Refusal :=
  s.run (fun d => d.regWrite who (bFLASH + 0xC) 1)
/-- PERASE (R691). -/
def execPerase (who : Who) (s : State) : Host.Outcome State Fault Refusal :=
  s.run (fun d => d.regWrite who (bFLASH + 0xC) 2)
/-- BERASE (R691). -/
def execBerase (who : Who) (s : State) : Host.Outcome State Fault Refusal :=
  s.run (fun d => d.regWrite who (bFLASH + 0xC) 3)
/-- MEM_IDLE_WRITE (R702). -/
def execMemIdleWrite (who : Who) (v : Word) (s : State) : Host.Outcome State Fault Refusal :=
  s.run (fun d => d.regWrite who (bMEM + 0xA0) v)
/-- MEM_BIST_START (R703). -/
def execMemBistStart (who : Who) (v : Word) (s : State) : Host.Outcome State Fault Refusal :=
  s.run (fun d => d.regWrite who (bMEM + 0xA4) (v ||| 1))
/-- FUSE_PROGRAM (R707). -/
def execFuseProgram (who : Who) (v : Word) (s : State) : Host.Outcome State Fault Refusal :=
  s.run (fun d => d.regWrite who (bFUSE + 0x410) v)
/-- LINK_HRST (R767). -/
def execLinkHrst (who : Who) (v : Word) (s : State) : Host.Outcome State Fault Refusal :=
  s.run (fun d => d.regWrite who (bLINK + 0x260) v)
/-- HYCFG_WRITE (R765). -/
def execHycfgWrite (who : Who) (k : Fin 4) (v : Word) (s : State) : Host.Outcome State Fault Refusal :=
  s.run (fun d => d.regWrite who (bLINK + 0x200 + 0x10 * k.val) v)
/-- LINK_RTIME_LO_READ (R747). -/
def execLinkRtimeLoRead (who : Who) (s : State) : Host.Outcome State Fault Refusal :=
  s.run (fun d => d.regRead who (bLINK + 0x40))
/-- OD_ANSWER (R788). -/
def execOdAnswer (who : Who) (v : Word) (s : State) : Host.Outcome State Fault Refusal :=
  s.run (fun d => d.regWrite who (bOD + 0xC) v)
/-- SWAP_ARM (R800). -/
def execSwapArm (who : Who) (s : State) : Host.Outcome State Fault Refusal :=
  s.run (fun d => d.regWrite who (bSYS + 0x100) 1)
/-- SWAP_CANCEL (R800). -/
def execSwapCancel (who : Who) (s : State) : Host.Outcome State Fault Refusal :=
  s.run (fun d => d.regWrite who (bSYS + 0x100) 2)
/-- SWAP_DISCARD (R798). -/
def execSwapDiscard (who : Who) (s : State) : Host.Outcome State Fault Refusal :=
  s.run (fun d => d.regWrite who (bSYS + 0x100) 3)

end Sys2Proof.Machine
end

