-- ==== Sys2Proof/Machine/Warm.lean ====
section
/-! DEFINITION. The rows of a warm reset from t = 400 on (R172 to R174, R705, R709, R893). -/
namespace Sys2Proof.Machine

/-- The transactions the fabric has accepted complete: the requests that hold a tag, and the DMA elements in flight (R172,
R656). -/
def Device.acceptedDone (d : Device) : Device :=
  ((d.waits.filter (fun (w : Wait) => w.tag)).foldl (fun (d : Device) w => d.grant w) { d with waits := [] }).dmaDrain

/-- The row t = 400 (R172), once RAMP is 0 (R893). -/
def Device.warm400 (d : Device) : Device :=
  if d.rst.phase ≠ .warm ∨ d.rst.reset400 ∨ d.pwr.ramp then d
  else
    let d := d.acceptedDone
    ({ d with rst := { d.rst with reset400 := true } }).unitsReset.setLv aPaceTgt (wd d.paceTgt0)

/-- The row t = 2,400: the fuse reload is complete, unless a fuse program holds it back (R172, R705, R709). -/
def Device.warmReload (d : Device) : Device :=
  if d.rst.phase ≠ .warm ∨ d.rst.reset400 = false ∨ d.rst.reload ∨ d.fuse.prog.isSome then d
  else
    ({ d with rst := { d.rst with reload := true } }).fuseLoadAll

/-- The end of warm reset waits for the ramp, for RST_n, for a word program and for a fuse program (R173, R174, R709, R893). -/
def Device.warmHeld (d : Device) : Bool :=
  decide (d.rst.phase ≠ .warm) || d.pwr.ramp || d.rst.rstLow || d.flash.cmd.isSome || d.fuse.prog.isSome

/-- The end of warm reset (R172): C0 reads its boot header. -/
def Device.warmEnd (d : Device) : Device :=
  (d.setCore 0 { st := .bootWait }).resetEnd (wf (d.lv aBootSel) 0 0)

end Sys2Proof.Machine
end

