-- ==== Sys2Proof/Machine/Timed.lean ====
section
/-! DEFINITION. The commands that come in a tick of their own: TBASE_NOW moves forward to that tick when it lies ahead (log 3), and what falls
in between with no command comes first (Device.passTo). -/
namespace Sys2Proof.Machine

/-- TBASE_NOW moves to tick `t` if there is one, as Device.passTo states. -/
def Device.pass (d : Device) (t : Option Nat) : Device :=
  match t with | some t => d.passTo t | none => d

/-- What `at'` names a tick for comes: TBASE_NOW moves to that tick, and `f` follows where it still comes then (a yard that has ended
in between may have written the registers it depends on, R740). -/
def Device.passWhen (d : Device) (at' : Device → Option Nat) (f : Device → Device) : Device :=
  match at' d with
  | some t =>
    let d := d.passTo t
    if (at' d).any (fun x => decide (x ≤ d.nowN) || decide (x = t)) then f d else d
  | none => d

/-! ### The cadence (R76, R78) -/

/-- The tick of the match of compare `k` that comes next (R76, R78). -/
def Device.matchTick (d : Device) (k : Nat) : Option Nat :=
  let c := d.cmpC k
  if !wb c.ctl 0 then none
  else match c.late with
    | some t => some t
    | none => if d.nowN ≤ c.val.toNat then some c.val.toNat else none

/-- TBASE_NOW reaches the compare value of compare `k`, or the tick after a late arming comes (R76, R78). -/
def execCompareMatch (k : Fin 6) (s : State) : Host.Outcome State Fault Refusal :=
  s.run (fun d => d.passWhen (fun d => d.matchTick k) (fun d => d.cmpMatch k))

/-! ### Pace and Owl (R116, R129, R184, R186) -/

/-- A window of Kestrel ends (R116, R121, R127 to R129, R144); in the tick of a device reset its request is one of the reset's period
(R163). -/
def execKestrelWindowEnd (count refc : BitVec 16) (temp : BitVec 8) (s : State) : Host.Outcome State Fault Refusal :=
  s.run (fun d =>
    let d := d.windowLate count.toNat
    if d.powered then (d.passTo d.nextWindow).windowEnd count.toNat refc.toNat temp else d)

/-- The tick in which the count reaches RST_OWL_TO − RST_OWL_EW, where it does (R186). -/
def Device.warnTick (d : Device) : Option Nat :=
  let n := d.owlTo - d.owlEw
  if d.owlCounts && decide (d.owlEw < d.owlTo) && decide (d.owlCount ≤ n) then some (d.owlReach n) else none

/-- The count reaches RST_OWL_TO − RST_OWL_EW (R186). -/
def execOwlEarlyWarning (s : State) : Host.Outcome State Fault Refusal :=
  s.run (fun d => d.passWhen Device.warnTick (fun d => d.raiseIrq 176))

/-- The count reaches RST_OWL_TO (R184); in the period of a device reset the request is one of that period (R163). -/
def execOwlTimeout (s : State) : Host.Outcome State Fault Refusal :=
  s.run (fun d =>
    if d.owlCounts then
      d.passWhen (fun d => if d.owlCounts then some d.owlPeriodEnd else none) (fun d => d.warmRequest 0x200)
    else if d.samePeriod && d.rst.late.owl then d.causeIn 0x200
    else d)

/-! ### Reset (R167, R172 to R174) -/

/-- RSTOUT_n is released 2,000 ticks after the end of the reset (R167). -/
def execRstoutRelease (s : State) : Host.Outcome State Fault Refusal :=
  s.run (fun d =>
    d.passWhen (fun d => match d.rst.phase with | .bootRead | .run => some d.rst.rstoutAt | _ => none)
      (fun d => { d with rst := { d.rst with rstout := true } }))

/-- The end of warm reset (R172 to R174, R709, R893): it waits for the ramp, for RST_n, for a word program and for a fuse
program. -/
def execWarmResetEnd (s : State) : Host.Outcome State Fault Refusal :=
  s.run (fun d =>
    if d.warmHeld then d
    else
      let d := (d.passTo (d.rst.warmAt + 400)).warm400
      let d := (d.passTo (d.rst.warmAt + 2400)).warmReload
      (d.passTo (d.rst.warmAt + 2408)).warmEnd)

/-! ### Converters and comparators (R213, R214, R223 to R235, R290, R291) -/

/-- PWM channel `n` reaches its sample point (R290, R291): converter `n` takes it as R210 to R216 state. -/
def execSamplePoint (n : Fin 32) (s : State) : Host.Outcome State Fault Refusal :=
  s.run (fun d =>
    d.passWhen (fun d => if d.frozen then none else (d.pwmC n).sampleOfs.map (fun o => (d.pwmC n).bt + o))
      (fun d => d.sampleFrom n 0))

/-- The sequence that converter `n` runs, where its `k` codes are all and not yet in the result. -/
def Device.convRun (d : Device) (n k : Nat) : Option SnsRun :=
  (d.snsC n).run.filter (fun r => !r.mainDone && decide (k = r.avg))

/-- The sequence of converter `n` whose AUX conversion is still to end. -/
def Device.auxRun (d : Device) (n : Nat) : Option SnsRun :=
  (d.snsC n).run.filter (fun r => r.mainDone && r.alt && !r.auxDone)

def execEndOfConversion (n : Fin 32) (acqs : List Acq) (s : State) : Host.Outcome State Fault Refusal :=
  s.run (fun d =>
    d.passWhen (fun d => (d.convRun n acqs.length).map SnsRun.endTick)
      (fun d => match d.convRun n acqs.length with | some r => d.convEnd n r acqs | none => d))

def execAuxConversionEnd (n : Fin 32) (acq : Acq) (s : State) : Host.Outcome State Fault Refusal :=
  s.run (fun d =>
    d.passWhen (fun d => (d.auxRun n).map SnsRun.auxTick)
      (fun d => match d.auxRun n with | some r => d.auxEnd n r acq | none => d))

/-- The input at SNSn is at `v` and the output of a comparator takes level `b` (R223 to R226): a raw output that changes
starts its samples; where the raw output has its level already, the last sample comes, and TBASE_NOW moves to its tick
when it lies ahead. -/
def Device.cmpCommand (d : Device) (n : Nat) (high b : Bool) (v vref : Nat) : Device :=
  let d := d.cmpPast n
  let d1 := d.cmpInput n v vref
  let moved := d1.cmpRaw n true != d.cmpRaw n true || d1.cmpRaw n false != d.cmpRaw n false
  if moved then d1.cmpBoth n
  else d1.passWhen (fun d => if d.cmpWaits n high && (d.cmpRaw n high == b) then some (d.cmpReady n high) else none)
    (fun d => d.cmpBoth n)

def execComparatorAssert (n : Fin 32) (inp : CmpIn) (s : State) : Host.Outcome State Fault Refusal :=
  s.run (fun d => d.cmpCommand n inp.high true inp.v inp.vref)

/-- A raw output that VDDA forces asserted does not fall (R872). -/
def execComparatorDeassert (n : Fin 32) (inp : CmpIn) (s : State) : Host.Outcome State Fault Refusal :=
  s.run (fun d => d.cmpCommand n inp.high false inp.v inp.vref)

/-- The settling ends with the input at SNSn at `v` (R223, R227). -/
def execComparatorSettleEnd (n : Fin 32) (v vref : Nat) (s : State) : Host.Outcome State Fault Refusal :=
  s.run (fun d =>
    d.passWhen (fun d => (d.snsC n).settle) (fun d => (d.cmpInput n v vref).cmpSettled n))

def execCalStepEnd (n : Fin 32) (dev : Int) (s : State) : Host.Outcome State Fault Refusal :=
  s.run (fun d =>
    d.passWhen (fun d => ((d.snsC n).cal.bind SnsCal.running).map (fun t => t + 50))
      (fun d => match (d.snsC n).cal with | some k => d.calStep n k (realCode (calIdeal k.step) dev) | none => d))

def execCalWaitExpiry (n : Fin 32) (s : State) : Host.Outcome State Fault Refusal :=
  s.run (fun d =>
    d.passWhen (fun d => ((d.snsC n).cal.filter (fun k => k.running.isNone)).map SnsCal.expire) (fun d => d.calExpire n))

/-! ### Trackers (R236 to R245) -/

/-- The pins of tracker `n` are at `la`, `lb`, `lz` (R236): pins that change start their delay; where they have their
levels already, the next change of a filtered level comes, and TBASE_NOW moves to its tick when it lies ahead. -/
def Device.trkInput (d : Device) (n : Nat) (la lb lz : Bool) : Device :=
  let p := BitVec.ofNat 3 (bitsFrom 3 (fun i => if i = 0 then la else if i = 1 then lb else lz))
  if (d.trkC n).pins ≠ p then (d.trkFollow n).trkPins n p
  else d.passWhen (fun d => d.trkNextAt n) (fun d => d.trkFollow n)

/-- The pins of a tracker stand at the levels given; once the filter has passed them, the tracker counts as its mode
states (R236 to R241). -/
def execTrackerCount (n : Fin 16) (lvlA lvlB lvlZ : Bool) (s : State) : Host.Outcome State Fault Refusal :=
  s.run (fun d => d.trkInput n lvlA lvlB lvlZ)

/-- The same at a Z edge (R243 to R245); a count of the same tick is applied first. -/
def execTrackerIndex (n : Fin 16) (lvlA lvlB lvlZ : Bool) (s : State) : Host.Outcome State Fault Refusal :=
  s.run (fun d => d.trkInput n lvlA lvlB lvlZ)

/-! ### The PWM stage (R262, R266, R272 to R274) -/

/-- The delay of an enabled channel ends: its first boundary (R262). FREEZE stops the counters (R849). -/
def execEnableDelayExpiry (n : Fin 32) (s : State) : Host.Outcome State Fault Refusal :=
  s.run (fun d =>
    d.passWhen (fun d => if (d.pwmC n).en && !d.frozen then (d.pwmC n).first else none) (fun d => d.boundary n))

/-- The counter of a running channel reaches 0 (R266). -/
def execPeriodBoundary (n : Fin 32) (s : State) : Host.Outcome State Fault Refusal :=
  s.run (fun d =>
    d.passWhen (fun d => if (d.pwmC n).counting && !d.frozen then some ((d.pwmC n).bt + (d.pwmC n).ticks) else none)
      (fun d => d.boundary n))

/-- The waveform of channel `n` can reach step `pos` of its period. -/
def Device.edgeComes (d : Device) (n pos : Nat) : Bool :=
  let c := d.pwmC n
  c.counting && c.running && !d.frozen && decide (c.edgePos ≤ pos) && decide (pos < c.steps)

/-- The waveform reaches step `pos` of its period: H_ref and the outputs follow (R272 to R274), unless a trip stops them before its
tick (R280). -/
def execPwmEdge (n : Fin 32) (pos : Nat) (s : State) : Host.Outcome State Fault Refusal :=
  s.run (fun d =>
    d.passWhen (fun d => if d.edgeComes n pos then some ((d.pwmC n).bt + pos / 32) else none)
      (fun d => d.setPwm n ((d.pwmC n).edgeTo pos)))

/-! ### The loop engine (R318, R323) -/

/-- A free lane takes the lowest QUEUED slot (R318). -/
def execLaneStart (s : State) : Host.Outcome State Fault Refusal :=
  s.run (fun d => (d.pass d.laneTick).laneStart)

/-- The evaluation of slot `n` is complete (R323). -/
def execSlotCompletion (n : Fin 32) (s : State) : Host.Outcome State Fault Refusal :=
  s.run (fun d => (d.pass (d.endTick n)).slotEnd n)

/-! ### The event router and the pads (R195, R386, R390, R393) -/

/-- The deliveries due before tick `x` reach their destinations, TBASE_NOW moves to tick `x`, and those due then follow. -/
def Device.deliverTick (d : Device) (x : Nat) : Device :=
  ((d.deliverAll (fun f => decide (f.due < x))).passTo x).deliverWhere true (fun f => decide (f.due = x))

/-- The delay of R393 of the oldest output of route `r` ends: TBASE_NOW moves to the tick of the delivery when it lies
ahead, and the destinations act on all that reaches them in that tick (R390). Deliveries whose tick has passed come first. -/
def execRouteDelivery (r : Fin 64) (s : State) : Host.Outcome State Fault Refusal :=
  s.run (fun d =>
    match popFlight r d.evr.fly with
    | some (f, _) => if f.due < d.nowN then d.deliverUpTo (d.nowN - 1) else d.deliverTick f.due
    | none => d)

/-- The board puts `level` on the pad of GP pin `p` (R195, R386): the pad takes it at once, and the samples of the filter start;
for a pad that has its level already, the last sample comes, and TBASE_NOW moves to its tick when it lies ahead. -/
def execGpInputChange (p : Fin 24) (level : Bool) (s : State) : Host.Outcome State Fault Refusal :=
  s.run (fun d =>
    let d := { d with rst := { d.rst with
      gpDrv := d.rst.gpDrv ||| BitVec.twoPow 24 p,
      gpExt := if level then d.rst.gpExt ||| BitVec.twoPow 24 p else d.rst.gpExt &&& ~~~ (BitVec.twoPow 24 p) } }
    if d.rst.gpIn.getLsbD p = level then
      d.passWhen (fun d => if decide (p.val < 8) && d.gpWaits p then some (d.gpReady p) else none) (fun d => d.gpFollow p)
    else d.padTakes p level)

/-! ### Memory (R678, R685, R688) -/

/-- The interval of the SRAM walker ends and the walker reads its next word (R685, R688). -/
def execScrubSramRead (s : State) : Host.Outcome State Fault Refusal :=
  s.run (fun d => d.passWhen (fun d => if d.sramWalks then some d.mem.sAt else none) Device.scrubSramNow)

/-- The interval of the flash walker ends and the walker reads its next doubleword (R685, R688). -/
def execScrubFlashRead (s : State) : Host.Outcome State Fault Refusal :=
  s.run (fun d => d.passWhen (fun d => if d.flashWalks then some d.mem.fAt else none) Device.scrubFlashNow)

/-- Entry `e` of the merge buffer has been without a write for 32 ticks (R678). -/
def execMergeIdleFlush (e : Fin 4) (s : State) : Host.Outcome State Fault Refusal :=
  s.run (fun d =>
    d.passWhen (fun d => (d.mem.merge.drop e.val).head?.map (fun m => m.last + 32))
      (fun d => match (d.mem.merge.drop e.val).head? with | some m => d.mergeFlushE m | none => d))

/-! ### The link (R748, R749, R752, R754, R762 to R764) -/

/-- 2 ms pass without a yard that qualifies (R748). -/
def execSyncLoss (s : State) : Host.Outcome State Fault Refusal :=
  s.run (fun d =>
    d.passWhen (fun d => if d.link.sync then d.link.goodAt.map (fun t => t + 400001) else none) Device.syncLost)

/-- The yard event of stream `k` that is oldest comes (R749). -/
def execYardEvent (k : Fin 4) (s : State) : Host.Outcome State Fault Refusal :=
  s.run (fun d =>
    d.passWhen (fun d => if d.linkRuns then (popDue k.val d.link.yevDue).map (fun x => d.link.yevTick x.1) else none)
      (fun d => match popDue k.val d.link.yevDue with
        | some x => ({ d with link := { d.link with yevDue := x.2 } }).yardRaise x.1
        | none => d))

/-- The yard that is due first is sent (R764), once the link controller has a tag to read its stall area (R131). -/
def execYardDue (s : State) : Host.Outcome State Fault Refusal :=
  s.run (fun d =>
    match d.nextYard with
    | some (k, t) => if d.link.head && d.linkRuns && !d.mustWait 5 then (d.passTo (max t d.headFree)).yardSend k t else d
    | none => d)

/-- The head has received its /RP/ for LINK_HEALT ticks (R752): the next yard carries RC = 1. -/
def execRingClosure (s : State) : Host.Outcome State Fault Refusal :=
  s.run (fun d =>
    d.passWhen (fun d =>
        if d.link.head && !d.link.closed && !d.link.rpWait && d.linkAlive && d.link.la.up && d.link.lb.up then
          d.link.healFrom.map (fun t => t + wf (d.lv (bLINK + 0x258)) 23 0)
        else none)
      (fun d => { d with link := { d.link with closed := true, healFrom := none } }))

/-- LINK_HOLD ticks have passed after the REQ of the errand with a tag (R762): the effect falls in the tick after (R82). -/
def execErrandHoldExpiry (tag : Byte) (s : State) : Host.Outcome State Fault Refusal :=
  s.run (fun d =>
    d.passWhen (fun d =>
        ((d.errandOf tag).filter (fun e => !e.kept && d.linkRuns)).map (fun e => e.at' + d.holdTicks + 1))
      (fun d => d.holdOver tag))

/-- The next handle of LINK_HQ.TXQ is sent once the line is free, before a yard that falls due (R751, R763, R764). -/
def execErrandSend (s : State) : Host.Outcome State Fault Refusal :=
  s.run (fun d => d.passWhen (fun d => if d.errandReady then some d.headFree else none) Device.errandSend)

/-- LINK_RTTO passes without the return (R763): the effect falls in the tick after (R82). -/
def execErrandReturnTimeout (s : State) : Host.Outcome State Fault Refusal :=
  s.run (fun d =>
    d.passWhen (fun d => if d.linkRuns then d.link.flight.map (fun x => x.at' + d.rtto + 1) else none)
      (fun d => match d.link.flight with | some x => d.returnOver x | none => d))

/-- 1 ms after the node acted on /RC/ (R754). -/
def execResetCommandHoldEnd (s : State) : Host.Outcome State Fault Refusal :=
  s.run (fun d =>
    d.passWhen (fun d => d.link.rcAt.map (fun t => t + 200000)) (fun d => { d with link := { d.link with rcAt := none } }))

/-! ### The object dictionary and the set swap (R789, R802) -/

/-- The forwarded errand whose handle is `h`. -/
def Device.forwardOf (d : Device) (h : BitVec 16) : Option Errand :=
  (d.forwarded (fld h.toNat 9 0)).filter (fun e => decide ((d.bufC e.buf).gen = fld h.toNat 15 12))

/-- OD_FWDTO ticks pass without an answer to the errand with handle `h` (R789): the effect falls in the tick after (R82). -/
def execForwardTimeout (h : BitVec 16) (s : State) : Host.Outcome State Fault Refusal :=
  s.run (fun d =>
    d.passWhen (fun d => (d.forwardOf h).map (fun e => e.fwdAt + d.fwdTo + 1))
      (fun d => match d.forwardOf h with | some e => d.odTimeout e | none => d))

/-- The tick of the swap point of the armed swap, at TIME and RING time (R802). -/
def Device.swapPointTick (d : Device) : Option Nat :=
  match d.swap.mode with
  | 1 => some d.swap.at'.toNat
  | 2 => some (d.link.ringTick d.swap.at'.toNat).toNat
  | _ => none

/-- The swap point of the armed swap comes (R802). A SWAP_CANCEL that is visible in its tick is sent before it (R803; log 2). -/
def execSetSwap (s : State) : Host.Outcome State Fault Refusal :=
  s.run (fun d => if d.swap.st = .idle || d.swapGone then d else (d.pass d.swapPointTick).swapTick)

/-! ### The debug port (R837) -/

/-- The delay of R837 ends. -/
def execAuthDelayExpiry (s : State) : Host.Outcome State Fault Refusal :=
  s.run (fun d =>
    d.passWhen (fun d => d.dbg.dlyEnd) (fun d => { d with dbg := { d.dbg with dlyEnd := none } }))

end Sys2Proof.Machine
end

