-- ==== Sys2Proof/Machine/Dispatch.lean ====
section
/-! DEFINITION. One arm for each command of the table, each a direct call of its meaning. -/
namespace Sys2Proof.Machine

def exec (i : Instr) (s : State) : Host.Outcome State Fault Refusal :=
  match i with
  | .registerWrite who addr v => Sys2Proof.Machine.execRegisterWrite who addr v s
  | .fabricTagFree sti => Sys2Proof.Machine.execFabricTagFree sti s
  | .restore who => Sys2Proof.Machine.execRestore who s
  | .tbaseNowLoRead who => Sys2Proof.Machine.execTbaseNowLoRead who s
  | .tbaseCmpLoWrite who k v => Sys2Proof.Machine.execTbaseCmpLoWrite who k v s
  | .tbaseCmpHiWrite who k v => Sys2Proof.Machine.execTbaseCmpHiWrite who k v s
  | .tbaseCmpLoRead who k => Sys2Proof.Machine.execTbaseCmpLoRead who k s
  | .tbaseCmpctlWrite who k v => Sys2Proof.Machine.execTbaseCmpctlWrite who k v s
  | .compareMatch k => Sys2Proof.Machine.execCompareMatch k s
  | .rtcSecond vbat => Sys2Proof.Machine.execRtcSecond vbat s
  | .rtcModeChange who tickMode => Sys2Proof.Machine.execRtcModeChange who tickMode s
  | .snap who => Sys2Proof.Machine.execSnap who s
  | .setCal who => Sys2Proof.Machine.execSetCal who s
  | .addHour who => Sys2Proof.Machine.execAddHour who s
  | .subHour who => Sys2Proof.Machine.execSubHour who s
  | .backupSupplySwitch toBat => Sys2Proof.Machine.execBackupSupplySwitch toBat s
  | .kestrelWindowEnd count refc temp => Sys2Proof.Machine.execKestrelWindowEnd count refc temp s
  | .paceTgtWrite who v => Sys2Proof.Machine.execPaceTgtWrite who v s
  | .reqRun who => Sys2Proof.Machine.execReqRun who s
  | .reqPark who => Sys2Proof.Machine.execReqPark who s
  | .reqSleep who => Sys2Proof.Machine.execReqSleep who s
  | .reqOff who => Sys2Proof.Machine.execReqOff who s
  | .sleepRequest c fired => Sys2Proof.Machine.execSleepRequest c fired s
  | .wakeFromSleep src => Sys2Proof.Machine.execWakeFromSleep src s
  | .wakeFromOff cause => Sys2Proof.Machine.execWakeFromOff cause s
  | .softwareReset who v => Sys2Proof.Machine.execSoftwareReset who v s
  | .coreReset who mask => Sys2Proof.Machine.execCoreReset who mask s
  | .coreResetDone c => Sys2Proof.Machine.execCoreResetDone c s
  | .coreHold who hold => Sys2Proof.Machine.execCoreHold who hold s
  | .unitReset who v => Sys2Proof.Machine.execUnitReset who v s
  | .unitResetDone u => Sys2Proof.Machine.execUnitResetDone u s
  | .owlEnable who v => Sys2Proof.Machine.execOwlEnable who v s
  | .owlKickOpen who => Sys2Proof.Machine.execOwlKickOpen who s
  | .owlKickComplete who => Sys2Proof.Machine.execOwlKickComplete who s
  | .owlKickWrong who v => Sys2Proof.Machine.execOwlKickWrong who v s
  | .pinClaim who p v => Sys2Proof.Machine.execPinClaim who p v s
  | .gpInputChange p level => Sys2Proof.Machine.execGpInputChange p level s
  | .samplePoint n => Sys2Proof.Machine.execSamplePoint n s
  | .snsSwtrig who v => Sys2Proof.Machine.execSnsSwtrig who v s
  | .endOfConversion n acqs => Sys2Proof.Machine.execEndOfConversion n acqs s
  | .auxConversionEnd n acq => Sys2Proof.Machine.execAuxConversionEnd n acq s
  | .comparatorAssert n inp => Sys2Proof.Machine.execComparatorAssert n inp s
  | .comparatorDeassert n inp => Sys2Proof.Machine.execComparatorDeassert n inp s
  | .comparatorSettleEnd n v vref => Sys2Proof.Machine.execComparatorSettleEnd n v vref s
  | .calRequest who v => Sys2Proof.Machine.execCalRequest who v s
  | .calStepStart n => Sys2Proof.Machine.execCalStepStart n s
  | .calStepEnd n dev => Sys2Proof.Machine.execCalStepEnd n dev s
  | .calWaitExpiry n => Sys2Proof.Machine.execCalWaitExpiry n s
  | .trackerCount n lvlA lvlB lvlZ => Sys2Proof.Machine.execTrackerCount n lvlA lvlB lvlZ s
  | .trackerIndex n lvlA lvlB lvlZ => Sys2Proof.Machine.execTrackerIndex n lvlA lvlB lvlZ s
  | .trkPosWrite who n v => Sys2Proof.Machine.execTrkPosWrite who n v s
  | .trkEdgetsLoRead who n => Sys2Proof.Machine.execTrkEdgetsLoRead who n s
  | .channelEnable who v => Sys2Proof.Machine.execChannelEnable who v s
  | .enableDelayExpiry n => Sys2Proof.Machine.execEnableDelayExpiry n s
  | .channelDisable who v => Sys2Proof.Machine.execChannelDisable who v s
  | .periodBoundary n => Sys2Proof.Machine.execPeriodBoundary n s
  | .pwmEdge n pos => Sys2Proof.Machine.execPwmEdge n pos s
  | .loadAll who v => Sys2Proof.Machine.execLoadAll who v s
  | .softTrip who v => Sys2Proof.Machine.execSoftTrip who v s
  | .tripClear who n v => Sys2Proof.Machine.execTripClear who n v s
  | .dutyWrite who n v => Sys2Proof.Machine.execDutyWrite who n v s
  | .slotEnable who n => Sys2Proof.Machine.execSlotEnable who n s
  | .slotDisable who n => Sys2Proof.Machine.execSlotDisable who n s
  | .slotOverride who n on => Sys2Proof.Machine.execSlotOverride who n on s
  | .clearFault who n => Sys2Proof.Machine.execClearFault who n s
  | .clearState who n => Sys2Proof.Machine.execClearState who n s
  | .leTrig who v => Sys2Proof.Machine.execLeTrig who v s
  | .slotCompletion n => Sys2Proof.Machine.execSlotCompletion n s
  | .mirrorWrite n => Sys2Proof.Machine.execMirrorWrite n s
  | .leBistStart who => Sys2Proof.Machine.execLeBistStart who s
  | .leBistDone lanes => Sys2Proof.Machine.execLeBistDone lanes s
  | .routeDelivery r => Sys2Proof.Machine.execRouteDelivery r s
  | .swEventSet who v => Sys2Proof.Machine.execSwEventSet who v s
  | .swEventClear who v => Sys2Proof.Machine.execSwEventClear who v s
  | .swEventPulse who v => Sys2Proof.Machine.execSwEventPulse who v s
  | .routeLock who hi v => Sys2Proof.Machine.execRouteLock who hi v s
  | .routeConfigWrite who r mask v => Sys2Proof.Machine.execRouteConfigWrite who r mask v s
  | .ownerWrite who obj v => Sys2Proof.Machine.execOwnerWrite who obj v s
  | .add c g d a b => Sys2Proof.Machine.execAdd c g d a b s
  | .sub c g d a b => Sys2Proof.Machine.execSub c g d a b s
  | .and c g d a b => Sys2Proof.Machine.execAnd c g d a b s
  | .or c g d a b => Sys2Proof.Machine.execOr c g d a b s
  | .xor c g d a b => Sys2Proof.Machine.execXor c g d a b s
  | .shl c g d a b => Sys2Proof.Machine.execShl c g d a b s
  | .shr c g d a b => Sys2Proof.Machine.execShr c g d a b s
  | .sar c g d a b => Sys2Proof.Machine.execSar c g d a b s
  | .ceq c g d a b => Sys2Proof.Machine.execCeq c g d a b s
  | .cne c g d a b => Sys2Proof.Machine.execCne c g d a b s
  | .clt c g d a b => Sys2Proof.Machine.execClt c g d a b s
  | .cltu c g d a b => Sys2Proof.Machine.execCltu c g d a b s
  | .cle c g d a b => Sys2Proof.Machine.execCle c g d a b s
  | .cleu c g d a b => Sys2Proof.Machine.execCleu c g d a b s
  | .mul c g d a b => Sys2Proof.Machine.execMul c g d a b s
  | .mulu c g d a b => Sys2Proof.Machine.execMulu c g d a b s
  | .addi c g d a imm => Sys2Proof.Machine.execAddi c g d a imm s
  | .andi c g d a imm => Sys2Proof.Machine.execAndi c g d a imm s
  | .ori c g d a imm => Sys2Proof.Machine.execOri c g d a imm s
  | .xori c g d a imm => Sys2Proof.Machine.execXori c g d a imm s
  | .shli c g d a sh => Sys2Proof.Machine.execShli c g d a sh s
  | .shri c g d a sh => Sys2Proof.Machine.execShri c g d a sh s
  | .sari c g d a sh => Sys2Proof.Machine.execSari c g d a sh s
  | .ceqi c g d a imm => Sys2Proof.Machine.execCeqi c g d a imm s
  | .cnei c g d a imm => Sys2Proof.Machine.execCnei c g d a imm s
  | .clti c g d a imm => Sys2Proof.Machine.execClti c g d a imm s
  | .cltui c g d a imm => Sys2Proof.Machine.execCltui c g d a imm s
  | .clei c g d a imm => Sys2Proof.Machine.execClei c g d a imm s
  | .cleui c g d a imm => Sys2Proof.Machine.execCleui c g d a imm s
  | .rdacc c g d sh => Sys2Proof.Machine.execRdacc c g d sh s
  | .lui c g d imm => Sys2Proof.Machine.execLui c g d imm s
  | .orl c g d imm => Sys2Proof.Machine.execOrl c g d imm s
  | .mac c g a b => Sys2Proof.Machine.execMac c g a b s
  | .mach c g a b => Sys2Proof.Machine.execMach c g a b s
  | .ldb c g d am => Sys2Proof.Machine.execLdb c g d am s
  | .ldbu c g d am => Sys2Proof.Machine.execLdbu c g d am s
  | .ldh c g d am => Sys2Proof.Machine.execLdh c g d am s
  | .ldhu c g d am => Sys2Proof.Machine.execLdhu c g d am s
  | .ldw c g d am => Sys2Proof.Machine.execLdw c g d am s
  | .stb c g d am => Sys2Proof.Machine.execStb c g d am s
  | .sth c g d am => Sys2Proof.Machine.execSth c g d am s
  | .stw c g d am => Sys2Proof.Machine.execStw c g d am s
  | .evictionAck c => Sys2Proof.Machine.execEvictionAck c s
  | .bra c g off => Sys2Proof.Machine.execBra c g off s
  | .bsr c g off => Sys2Proof.Machine.execBsr c g off s
  | .bz c g t off => Sys2Proof.Machine.execBz c g t off s
  | .bnz c g t off => Sys2Proof.Machine.execBnz c g t off s
  | .jmp c g a => Sys2Proof.Machine.execJmp c g a s
  | .jsr c g a => Sys2Proof.Machine.execJsr c g a s
  | .mfs c g d num => Sys2Proof.Machine.execMfs c g d num s
  | .mts c g num r => Sys2Proof.Machine.execMts c g num r s
  | .vbaseWrite c g r => Sys2Proof.Machine.execVbaseWrite c g r s
  | .icountLoRead c g d => Sys2Proof.Machine.execIcountLoRead c g d s
  | .cacheInvalidateIline c g r => Sys2Proof.Machine.execCacheInvalidateIline c g r s
  | .cacheInvalidateI c g r => Sys2Proof.Machine.execCacheInvalidateI c g r s
  | .cacheCleanDline c g r => Sys2Proof.Machine.execCacheCleanDline c g r s
  | .cacheCleanInvalidateDline c g r => Sys2Proof.Machine.execCacheCleanInvalidateDline c g r s
  | .cacheCleanD c g r => Sys2Proof.Machine.execCacheCleanD c g r s
  | .cacheCleanInvalidateD c g r => Sys2Proof.Machine.execCacheCleanInvalidateD c g r s
  | .sys c g code => Sys2Proof.Machine.execSys c g code s
  | .rfe c g => Sys2Proof.Machine.execRfe c g s
  | .sleep c g => Sys2Proof.Machine.execSleep c g s
  | .fence c g => Sys2Proof.Machine.execFence c g s
  | .rep c g rg cr cnt => Sys2Proof.Machine.execRep c g rg cr cnt s
  | .repI c g rg cr cnt => Sys2Proof.Machine.execRepI c g rg cr cnt s
  | .interruptEntry c => Sys2Proof.Machine.execInterruptEntry c s
  | .interruptClaim who c => Sys2Proof.Machine.execInterruptClaim who c s
  | .interruptComplete who c v => Sys2Proof.Machine.execInterruptComplete who c v s
  | .interruptPset who src => Sys2Proof.Machine.execInterruptPset who src s
  | .interruptPclr who src => Sys2Proof.Machine.execInterruptPclr who src s
  | .doorbell who k v => Sys2Proof.Machine.execDoorbell who k v s
  | .thrWrite who c v => Sys2Proof.Machine.execThrWrite who c v s
  | .quePush who q v => Sys2Proof.Machine.execQuePush who q v s
  | .quePop who q => Sys2Proof.Machine.execQuePop who q s
  | .quePeek who q => Sys2Proof.Machine.execQuePeek who q s
  | .queueConfig who q v => Sys2Proof.Machine.execQueueConfig who q v s
  | .lockTake who n => Sys2Proof.Machine.execLockTake who n s
  | .lockGive who n v => Sys2Proof.Machine.execLockGive who n v s
  | .shedAlloc who => Sys2Proof.Machine.execShedAlloc who s
  | .shedFree who v => Sys2Proof.Machine.execShedFree who v s
  | .shedPass who v => Sys2Proof.Machine.execShedPass who v s
  | .shedFfree who v => Sys2Proof.Machine.execShedFfree who v s
  | .shedLowmarkWrite who v => Sys2Proof.Machine.execShedLowmarkWrite who v s
  | .dmaStart who k => Sys2Proof.Machine.execDmaStart who k s
  | .dmaStop who k => Sys2Proof.Machine.execDmaStop who k s
  | .mergeIdleFlush e => Sys2Proof.Machine.execMergeIdleFlush e s
  | .mergeFlush who => Sys2Proof.Machine.execMergeFlush who s
  | .mergeDisable who => Sys2Proof.Machine.execMergeDisable who s
  | .flashKey who v => Sys2Proof.Machine.execFlashKey who v s
  | .prog who => Sys2Proof.Machine.execProg who s
  | .perase who => Sys2Proof.Machine.execPerase who s
  | .berase who => Sys2Proof.Machine.execBerase who s
  | .memIdleWrite who v => Sys2Proof.Machine.execMemIdleWrite who v s
  | .memBistStart who v => Sys2Proof.Machine.execMemBistStart who v s
  | .memBistDone failAt => Sys2Proof.Machine.execMemBistDone failAt s
  | .fuseProgram who v => Sys2Proof.Machine.execFuseProgram who v s
  | .fuseProgramDone verified => Sys2Proof.Machine.execFuseProgramDone verified s
  | .portUp p => Sys2Proof.Machine.execPortUp p s
  | .portDown p => Sys2Proof.Machine.execPortDown p s
  | .yard p vern f => Sys2Proof.Machine.execYard p vern f s
  | .yardEvent k => Sys2Proof.Machine.execYardEvent k s
  | .headYardReturn p vern f => Sys2Proof.Machine.execHeadYardReturn p vern f s
  | .frameAbort p => Sys2Proof.Machine.execFrameAbort p s
  | .delayProbe p => Sys2Proof.Machine.execDelayProbe p s
  | .delayReply p trip t => Sys2Proof.Machine.execDelayReply p trip t s
  | .ringProbe p => Sys2Proof.Machine.execRingProbe p s
  | .resetCommand p s1 s2 gap => Sys2Proof.Machine.execResetCommand p s1 s2 gap s
  | .linkHrst who v => Sys2Proof.Machine.execLinkHrst who v s
  | .hycfgWrite who k v => Sys2Proof.Machine.execHycfgWrite who k v s
  | .errandReturn p f => Sys2Proof.Machine.execErrandReturn p f s
  | .errandReq p f => Sys2Proof.Machine.execErrandReq p f s
  | .errandCollect p f => Sys2Proof.Machine.execErrandCollect p f s
  | .errandDrop p f => Sys2Proof.Machine.execErrandDrop p f s
  | .errandHoldExpiry tag => Sys2Proof.Machine.execErrandHoldExpiry tag s
  | .linkRtimeLoRead who => Sys2Proof.Machine.execLinkRtimeLoRead who s
  | .odAnswer who v => Sys2Proof.Machine.execOdAnswer who v s
  | .forwardTimeout h => Sys2Proof.Machine.execForwardTimeout h s
  | .swapArm who => Sys2Proof.Machine.execSwapArm who s
  | .swapCancel who => Sys2Proof.Machine.execSwapCancel who s
  | .swapDiscard who => Sys2Proof.Machine.execSwapDiscard who s
  | .coreHandover c => Sys2Proof.Machine.execCoreHandover c s
  | .samplePreload cells => Sys2Proof.Machine.execSamplePreload cells s
  | .debugAccess wr addr v => Sys2Proof.Machine.execDebugAccess wr addr v s
  | .authCheck level => Sys2Proof.Machine.execAuthCheck level s
  | .halt c => Sys2Proof.Machine.execHalt c s
  | .resume c => Sys2Proof.Machine.execResume c s
  | .step c => Sys2Proof.Machine.execStep c s
  | .debugCoreReset c => Sys2Proof.Machine.execDebugCoreReset c s
  | .debugSystemReset v => Sys2Proof.Machine.execDebugSystemReset v s
  | .breakpointHit c => Sys2Proof.Machine.execBreakpointHit c s
  | .coreRegAccess c wr v => Sys2Proof.Machine.execCoreRegAccess c wr v s
  | .debugMemRead size inc => Sys2Proof.Machine.execDebugMemRead size inc s
  | .debugMemWrite size inc => Sys2Proof.Machine.execDebugMemWrite size inc s
  | .illegalInstruction c word => Sys2Proof.Machine.execIllegalInstruction c word s
  | .instructionBusError c uncorrectable => Sys2Proof.Machine.execInstructionBusError c uncorrectable s
  | .delayProbeAnswer p t => Sys2Proof.Machine.execDelayProbeAnswer p t s
  | .codeGroupAlignment p gained => Sys2Proof.Machine.execCodeGroupAlignment p gained s
  | .symbolError p => Sys2Proof.Machine.execSymbolError p s
  | .crystalFailure => Sys2Proof.Machine.execCrystalFailure s
  | .pllRelock => Sys2Proof.Machine.execPllRelock s
  | .crystalQualified => Sys2Proof.Machine.execCrystalQualified s
  | .rtcTickAlarm => Sys2Proof.Machine.execRtcTickAlarm s
  | .rtcCommandApply => Sys2Proof.Machine.execRtcCommandApply s
  | .operatingHour => Sys2Proof.Machine.execOperatingHour s
  | .agingRecord => Sys2Proof.Machine.execAgingRecord s
  | .ledgerWrite => Sys2Proof.Machine.execLedgerWrite s
  | .powerUp => Sys2Proof.Machine.execPowerUp s
  | .brownOut => Sys2Proof.Machine.execBrownOut s
  | .vcoreLow => Sys2Proof.Machine.execVcoreLow s
  | .vcoreHigh => Sys2Proof.Machine.execVcoreHigh s
  | .vddaLow => Sys2Proof.Machine.execVddaLow s
  | .vddaRecover => Sys2Proof.Machine.execVddaRecover s
  | .vddaForceTrip => Sys2Proof.Machine.execVddaForceTrip s
  | .vddaForceEnd => Sys2Proof.Machine.execVddaForceEnd s
  | .parkExit => Sys2Proof.Machine.execParkExit s
  | .fuseLoad => Sys2Proof.Machine.execFuseLoad s
  | .coldResetRelease => Sys2Proof.Machine.execColdResetRelease s
  | .rstPinLow => Sys2Proof.Machine.execRstPinLow s
  | .rstPinHigh => Sys2Proof.Machine.execRstPinHigh s
  | .warmResetEnd => Sys2Proof.Machine.execWarmResetEnd s
  | .rstoutRelease => Sys2Proof.Machine.execRstoutRelease s
  | .owlTimeout => Sys2Proof.Machine.execOwlTimeout s
  | .owlEarlyWarning => Sys2Proof.Machine.execOwlEarlyWarning s
  | .safeAssert => Sys2Proof.Machine.execSafeAssert s
  | .safeRelease => Sys2Proof.Machine.execSafeRelease s
  | .laneStart => Sys2Proof.Machine.execLaneStart s
  | .dmaRunStart => Sys2Proof.Machine.execDmaRunStart s
  | .dmaElement => Sys2Proof.Machine.execDmaElement s
  | .scrubSramRead => Sys2Proof.Machine.execScrubSramRead s
  | .scrubFlashRead => Sys2Proof.Machine.execScrubFlashRead s
  | .flashDone => Sys2Proof.Machine.execFlashDone s
  | .ringClosure => Sys2Proof.Machine.execRingClosure s
  | .syncLoss => Sys2Proof.Machine.execSyncLoss s
  | .yardDue => Sys2Proof.Machine.execYardDue s
  | .errandSend => Sys2Proof.Machine.execErrandSend s
  | .errandReturnTimeout => Sys2Proof.Machine.execErrandReturnTimeout s
  | .errandServe => Sys2Proof.Machine.execErrandServe s
  | .setCheckDone => Sys2Proof.Machine.execSetCheckDone s
  | .setSwap => Sys2Proof.Machine.execSetSwap s
  | .extest => Sys2Proof.Machine.execExtest s
  | .idcode => Sys2Proof.Machine.execIdcode s
  | .clamp => Sys2Proof.Machine.execClamp s
  | .highz => Sys2Proof.Machine.execHighz s
  | .dbgacc => Sys2Proof.Machine.execDbgacc s
  | .bypass => Sys2Proof.Machine.execBypass s
  | .tapReset => Sys2Proof.Machine.execTapReset s
  | .authNewchal => Sys2Proof.Machine.execAuthNewchal s
  | .authDrop => Sys2Proof.Machine.execAuthDrop s
  | .authCheckDone => Sys2Proof.Machine.execAuthCheckDone s
  | .debugMemComplete => Sys2Proof.Machine.execDebugMemComplete s
  | .freeze => Sys2Proof.Machine.execFreeze s
  | .unfreeze => Sys2Proof.Machine.execUnfreeze s
  | .brownOutRelease => Sys2Proof.Machine.execBrownOutRelease s
  | .backupDomainLoss => Sys2Proof.Machine.execBackupDomainLoss s
  | .authDelayExpiry => Sys2Proof.Machine.execAuthDelayExpiry s
  | .resetCommandHoldEnd => Sys2Proof.Machine.execResetCommandHoldEnd s

end Sys2Proof.Machine
end

