-- ==== Sys2Proof/Machine/Tick.lean ====
section
/-! DEFINITION. A cadence tick in which no further command comes (log 1): what the state names the present tick for takes
place, and TBASE_NOW counts on (R71): deliveries of the event router, compare matches, enable delays, period boundaries, the
wait of a calibration, the filters of comparators, trackers and pins, the idle time of a merge-buffer entry, yard events, the
end of a yard, the yards of the head, the timeouts of the link and of the OD engine, the delay after failed checks, the rows t = 400 and t = 2,400 of a warm reset, the release of RSTOUT_n. -/
namespace Sys2Proof.Machine

/-- Apply `f` to the members of `l` that are due in the state as it is by then. -/
def Device.whenDue {α : Type} (d : Device) (l : List α) (due : Device → α → Bool) (f : α → Device → Device) : Device :=
  l.foldl (fun d x => if due d x then f x d else d) d

/-- A boundary of channel `n` falls in the present tick (R262, R266). -/
def Device.pwmDue (d : Device) (n : Nat) : Bool :=
  let c := d.pwmC n
  !d.frozen && ((c.en && decide (c.first = some d.nowN)) || (c.counting && decide (c.bt + c.ticks = d.nowN)))

/-- The wait of the calibration of converter `n` has expired by the present tick (R232). -/
def Device.calDue (d : Device) (n : Nat) : Bool :=
  match (d.snsC n).cal with
  | some k => k.running.isNone && decide (k.expire ≤ d.nowN)
  | none => false

/-- The settling of the comparators of converter `n` has ended by the present tick (R227). -/
def Device.settleDue (d : Device) (n : Nat) : Bool :=
  match (d.snsC n).settle with | some t => decide (t ≤ d.nowN) | none => false

/-- A filter of the comparators of converter `n` has its last sample by the present tick (R224). -/
def Device.cmpFilterDue (d : Device) (n : Nat) : Bool :=
  [true, false].any (fun h => d.cmpWaits n h && decide (d.cmpReady n h ≤ d.nowN))

/-- A filter of tracker `n` has its last sample by the present tick (R236). -/
def Device.trkDue (d : Device) (n : Nat) : Bool := (d.trkNextAt n).any (fun t => decide (t ≤ d.nowN))

/-- The merge-buffer entries that have been idle for 32 ticks (R678). -/
def Device.mergeDue (d : Device) : List Merge := d.mem.merge.filter (fun m => decide (m.last + 32 ≤ d.nowN))

/-- The yard events of the present tick (R749). -/
def Device.yardsDue (d : Device) : List YardEv := d.link.yevDue.filter (fun x => decide (d.link.yevTick x ≤ d.nowN))

/-- The yard event `x` comes. -/
def Device.yardNow (d : Device) (x : YardEv) : Device :=
  ({ d with link := { d.link with yevDue := d.link.yevDue.erase x } }).yardRaise x

/-- The head's line in the present tick: /RP/ after a yard, and the yard that is due (R752, R764). -/
def Device.headNow (d : Device) : Device :=
  let d := if d.link.rpAt.any (fun t => decide (t ≤ d.nowN)) then d.probeNow else d
  match d.nextYard with
  | some (k, t) => if d.link.head && d.linkRuns && !d.mustWait 5 && decide (max t d.headFree ≤ d.nowN) then d.yardSend k t else d
  | none => d

/-- The timeouts that expired before the present tick (R82): LINK_HOLD, LINK_RTTO, the loss of SYNC, OD_FWDTO. -/
def Device.timeouts (d : Device) : Device :=
  let d := d.holdsOver
  let d := d.whenDue d.link.errands (fun d e => d.fwdGone e) (fun e d => d.odTimeout e)
  let d := match d.link.flight with
    | some x => if d.linkRuns && decide (x.at' + d.rtto < d.nowN) then d.returnOver x else d
    | none => d
  if d.link.sync && d.link.goodAt.any (fun t => decide (t + 400000 < d.nowN)) then d.syncLost else d

/-- What the units do in the present tick. -/
def Device.unitEvents (d : Device) : Device :=
  let d := d.whenDue (List.range 6) (fun d k => d.cmpDue k) (fun k d => d.cmpMatch k)
  let d := d.whenDue (List.range 32) (fun d n => d.settleDue n) (fun n d => d.cmpSettled n)
  let d := d.whenDue (List.range 32) (fun d n => d.cmpFilterDue n) (fun n d => d.cmpBoth n)
  let d := d.whenDue (List.range 32) (fun d n => d.pwmDue n) (fun n d => d.boundary n)
  let d := d.whenDue (List.range 32) (fun d n => d.calDue n) (fun n d => d.calExpire n)
  let d := d.whenDue (List.range 16) (fun d n => d.trkDue n) (fun n d => d.trkFollow n)
  let d := (List.range 8).foldl (fun d p => d.gpFollow p) d
  let d := d.mergeDue.foldl (fun d m => d.mergeFlushE m) d
  let d := d.yardsDue.foldl (fun d x => d.yardNow x) d
  ((d.endsCome (fun x => decide (x.at' ≤ d.nowN))).headNow).timeouts

/-- What the debug port and the reset controller do in the present tick. -/
def Device.slowEvents (d : Device) : Device :=
  let d := if d.authDelayed then d else { d with dbg := { d.dbg with dlyEnd := none } }
  let d := if d.rst.warmAt + 400 ≤ d.nowN then d.warm400 else d
  let d := if d.rst.warmAt + 2400 ≤ d.nowN then d.warmReload else d
  if d.resetsTaken && decide (d.rst.rstoutAt ≤ d.nowN) then { d with rst := { d.rst with rstout := true } } else d

/-- What falls in the present tick: a set swap whose tick it is (R802), deliveries that come with it, what the units do, and what their events cause in the same
tick. -/
def Device.tickEvents (d : Device) : Device :=
  ((d.swapIdle.deliverUpTo d.nowN).unitEvents.swapIdle.deliverUpTo d.nowN).slowEvents

/-- One idle tick: the present tick ends as Device.nextTick states, and the cadence counts while the units outside the backup domain have their clock;
without it, the reset period of R163 ends. -/
def Device.tick (d : Device) : Device :=
  if d.powered then d.tickEvents.nextTick else { d with rst := { d.rst with per := none } }

end Sys2Proof.Machine
end

