-- ==== Sys2Proof/Safety.lean ====
section
/-! DEFINITION. The terms the claims use: states that differ by a command's effect, a core that is ready to execute, a
register access that its checks let through, what a safe state of the device is. -/
namespace Sys2Proof.Machine

/-! ### States that a command leads to -/

/-- The state with its device changed by `f`. -/
def State.on (s : State) (f : Device → Device) : State := { s with dev := f s.dev }

/-- The state with core `c` put to `k`. -/
def State.coreTo (s : State) (c : Nat) (k : Core) : State := { s with dev := s.dev.setCore c k }

/-- A core after an instruction that went on to the next address: pc, ICOUNT (R426). -/
def Core.stepped (k : Core) : Core := k.begun.retired 1 (k.pc + 4)

/-- The device in which core `c` has begun an instruction. -/
def Device.begun (d : Device) (c : Nat) : Device := d.setCore c (d.coreC c).begun

/-! ### A core that executes (R137, R430, R436, R442, R484, R842) -/

/-- The instruction at the pc of core `c` is held in its I-cache and may be fetched (R436, R442, R536, R701). -/
def Device.fetched (d : Device) (c : Nat) : Bool :=
  let k := d.coreC c
  let a := k.pc.toNat
  fetchable c a && isCached a && !d.memIdle a && (d.memTrusted a == k.trusted)
    && (k.ic.get (fun _ => none) (lineOf a)).isSome && decide (k.ice.get (fun _ => .good) (a / 8) = .good)

/-- Core `c` executes at a boundary without halt, step, breakpoint, repetition or an interrupt to take, and none of its
accesses is under way (R131, R508, R838, R840, R842). -/
def Device.executing (d : Device) (c : Nat) : Bool :=
  let k := d.coreC c
  decide (k.st = .running) && !k.halted && k.hand.isNone && k.rep.isNone && !k.stepping && !k.haltReq
    && (d.bpAt c).isNone && !d.irqDue c && decide (d.engOf c = .idle) && d.fetched c

/-- Core `c` executes an instruction with guard `g`, and the guard passes (R430). -/
def Device.ready (d : Device) (c : Nat) (g : BitVec 4) : Bool :=
  d.executing c && decide (g ≠ 8) && (d.coreC c).guardOk g

/-- The core and the guard of an instruction; none for the other commands, and for a REP with a count of its own above 64,
which is an undefined encoding (R430, R485). -/
def guardOf : Instr → Option (Fin 4 × BitVec 4)
  | .add c g _ _ _ | .sub c g _ _ _ | .and c g _ _ _ | .or c g _ _ _ | .xor c g _ _ _ | .shl c g _ _ _
  | .shr c g _ _ _ | .sar c g _ _ _ | .ceq c g _ _ _ | .cne c g _ _ _ | .clt c g _ _ _ | .cltu c g _ _ _
  | .cle c g _ _ _ | .cleu c g _ _ _ | .mul c g _ _ _ | .mulu c g _ _ _ | .addi c g _ _ _ | .andi c g _ _ _
  | .ori c g _ _ _ | .xori c g _ _ _ | .shli c g _ _ _ | .shri c g _ _ _ | .sari c g _ _ _ | .ceqi c g _ _ _
  | .cnei c g _ _ _ | .clti c g _ _ _ | .cltui c g _ _ _ | .clei c g _ _ _ | .cleui c g _ _ _
  | .repI c g _ _ _ => some (c, g)
  | .rdacc c g _ _ | .lui c g _ _ | .orl c g _ _ | .mac c g _ _ | .mach c g _ _ | .ldb c g _ _ | .ldbu c g _ _
  | .ldh c g _ _ | .ldhu c g _ _ | .ldw c g _ _ | .stb c g _ _ | .sth c g _ _ | .stw c g _ _ | .bz c g _ _
  | .bnz c g _ _ | .mfs c g _ _ | .mts c g _ _ => some (c, g)
  | .bra c g _ | .bsr c g _ | .jmp c g _ | .jsr c g _ | .vbaseWrite c g _ | .icountLoRead c g _
  | .cacheInvalidateIline c g _ | .cacheInvalidateI c g _ | .cacheCleanDline c g _
  | .cacheCleanInvalidateDline c g _ | .cacheCleanD c g _ | .cacheCleanInvalidateD c g _ | .sys c g _ => some (c, g)
  | .rfe c g | .sleep c g | .fence c g => some (c, g)
  | .rep c g rg _ n => if rg || decide (n.toNat ≤ 63) then some (c, g) else none
  | _ => none

/-- No watchpoint of core `c` is enabled (R843). -/
def Device.unwatched (d : Device) (c : Nat) : Bool :=
  !wb (d.lv (aDbgC c 9)) 0 && !wb (d.lv (aDbgC c 11)) 0

/-- `n` bytes at `a` are a good word of the local SRAM of core `c` that it may access (R435, R442, R535, R669, R701). -/
def Device.localWord (d : Device) (c a n : Nat) : Bool :=
  decide (memRegion a = some (4 + c)) && decide (a % n = 0) && !d.memIdle a
    && (!d.memTrusted a || (d.coreC c).trusted) && decide (d.eccOf (dwOf a) = .good)

/-- An access of `n` bytes at `a` by core `c` passes the checks of memory and has its tag (R131, R435, R535, R684, R701). -/
def Device.memPasses (d : Device) (c : Fin 4) (a n : Nat) (wr : Bool) : Bool :=
  (memRegion a).isSome && decide (a % n = 0) && !d.memIdle a && (!d.memTrusted a || (d.coreC c).trusted)
    && !(wr && decide (a < 0x400000)) && (!d.overFabric (.core c) a || !d.tagBars c)

/-- The `n` bytes of memory at `a`, little-endian (R434). -/
def Device.rdLe (d : Device) (a n : Nat) : Word := wd (leNat ((List.range n).map (fun i => d.rdByte (a + i))))

/-- The loads: instruction, bytes, what is made of the bytes read (R434). -/
def loadForm (c : Fin 4) (g : BitVec 4) (d : Fin 32) (am : AddrMode) (i : Instr) (n : Nat) (f : Word → Word) : Prop :=
  (i = .ldb c g d am ∧ n = 1 ∧ f = fun v => (v.setWidth 8).signExtend 32) ∨ (i = .ldbu c g d am ∧ n = 1 ∧ f = id) ∨
  (i = .ldh c g d am ∧ n = 2 ∧ f = fun v => (v.setWidth 16).signExtend 32) ∨ (i = .ldhu c g d am ∧ n = 2 ∧ f = id) ∨
  (i = .ldw c g d am ∧ n = 4 ∧ f = id)

/-- The loads and stores: instruction, bytes, whether it stores (R434). -/
def accessForm (c : Fin 4) (g : BitVec 4) (d : Fin 32) (am : AddrMode) (i : Instr) (n : Nat) (wr : Bool) : Prop :=
  (wr = false ∧ ∃ f, loadForm c g d am i n f) ∨
  (wr = true ∧ (i = .stb c g d am ∧ n = 1 ∨ i = .sth c g d am ∧ n = 2 ∨ i = .stw c g d am ∧ n = 4))

/-! ### Repetitions (R485 to R497) -/

/-- Core `c` is to run one more repetition of `i`, and nothing comes before it (R490). -/
def Device.repeats (d : Device) (c : Nat) (i : Instr) (x : Rep) : Bool :=
  let k := d.coreC c
  decide (k.st = .running) && !k.halted && k.hand.isNone && !k.stepping && !k.haltReq && !d.irqDue c
    && decide (d.engOf c = .idle) && decide (k.rep = some x) && decide (x.follower = some i)

/-- The core after a repetition of those that `x` counts has run or consumed its count (R426, R490). -/
def Core.repeated (k : Core) (x : Rep) : Core :=
  if x.left ≤ 1 then { k with rep := none, pc := k.pc + 4, icount := k.icount + 1 }
  else { k with rep := some { x with left := x.left - 1 }, icount := k.icount + 1 }

/-! ### Entries through the shadow bank (R510 to R515) and the task-state block (R516) -/

/-- The entry word of vector `v` of core `c`. -/
def Device.entryWord (d : Device) (c v : Nat) : Word :=
  let a := (d.coreC c).entryAddr v
  wd (leNat ((List.range 4).map (fun i => d.rdByte (a + i))))

/-- The entry of vector `v` of core `c` runs in the trusted domain (R511). -/
def Device.entryTrusted (d : Device) (c v : Nat) : Bool :=
  wb (d.entryWord c v) 1 && d.memTrusted ((d.coreC c).entryAddr v)

/-- The handler of vector `v` of core `c`. -/
def Device.handler (d : Device) (c v : Nat) : Word := d.entryWord c v &&& 0xFFFFFFFC

/-- The entry word of vector `v` of core `c` is a good word of the core's local SRAM (R510, R528). -/
def Device.vectorHere (d : Device) (c v : Nat) : Bool :=
  let k := d.coreC c
  let a := k.entryAddr v
  wb k.vbase 0 && fetchable c a && decide (memRegion a = some (4 + c)) && !d.memIdle a && decide (d.eccOf (dwOf a) = .good)

/-- The handler of vector `v` of core `c` is held in the I-cache and may be fetched in the entry's domain (R436, R442, R536). -/
def Device.handlerHeld (d : Device) (c v : Nat) : Bool :=
  let k := d.coreC c
  let h := (d.handler c v).toNat
  fetchable c h && isCached h && !d.memIdle h && (d.memTrusted h == d.entryTrusted c v)
    && (k.ic.get (fun _ => none) (lineOf h)).isSome && decide (k.ice.get (fun _ => .good) (h / 8) = .good)

/-- Word `i` of the block that an entry with saved PC `spc` and fault address `faddr` writes (R516). -/
def Core.blockWord (k : Core) (spc faddr : Word) (i : Nat) : Word :=
  if i < 31 then k.reg (i + 1)
  else match i with
    | 31 => spc | 32 => k.status | 33 => k.rpc | 34 => k.acc.setWidth 32 | 35 => (k.acc >>> 32).setWidth 32 | 36 => k.accst
    | 37 => faddr | 38 => k.estat | _ => k.epc

/-- The core after entry `t` through the task-state block (R514, R516). -/
def Core.blockEntered (k : Core) (t : Trap) (handler : Word) (trusted : Bool) : Core :=
  { k with
    estat := if k.sb then setB k.estat 3 true else k.estat
    ecause := wd (t.vec + 0x100 * t.sub) ||| 0x10000
    faddr := t.faddr, pc := handler, rep := none
    status := setB (setB (setB k.status 0 true) 1 trusted) 2 false }

/-- Vector `v` of core `c` can be taken through the shadow bank: its entry word is a good word of the core's local SRAM,
the handler is held in the I-cache in the entry's domain, and nothing halts the core there (R511, R513, R528, R844). -/
def Device.shadowVector (d : Device) (c v : Nat) : Bool :=
  let k := d.coreC c
  let a := k.entryAddr v
  let h := (d.handler c v).toNat
  wb k.vbase 0 && fetchable c a && decide (memRegion a = some (4 + c)) && !d.memIdle a
    && decide (d.eccOf (dwOf a) = .good) && wb (d.entryWord c v) 0 && !k.sb
    && fetchable c h && isCached h && !d.memIdle h && (d.memTrusted h == d.entryTrusted c v)
    && (k.ic.get (fun _ => none) (lineOf h)).isSome && decide (k.ice.get (fun _ => .good) (h / 8) = .good) && !k.stepping && !k.haltReq
    && !(d.lv (aDbgC c 14)).toNat.testBit v

/-- The core after entry `t` through the shadow bank with saved PC `spc` (R514, R515). -/
def Core.shadowEntered (k : Core) (t : Trap) (spc handler : Word) (trusted : Bool) : Core :=
  { k with
    estat := k.status, epc := spc, ecause := wd (t.vec + 0x100 * t.sub), faddr := t.faddr, pc := handler, rep := none
    status := setB (setB (setB (setB k.status 3 true) 0 true) 1 trusted) 2 false }

/-! ### Register accesses (R18, R164, R181, R537 to R540) -/

/-- An initiator has a free tag, none of its requests waits for one, and no register access of a core is under way (R130, R131,
R452). -/
def Device.tagFreeFor (d : Device) (who : Who) : Bool :=
  !d.ordered (whoIdx who) && !d.queued (whoIdx who) && !d.worksFor (whoIdx who)
    && decide (d.tagsOf (whoIdx who) < tagCap (whoIdx who))

/-- An initiator's request in supervisor mode and the trusted domain reaches block `b`, which is not in reset. -/
def Device.reaches (d : Device) (who : Who) (b : Nat) : Bool :=
  d.regsUp && !d.blockBusy b && (d.reqOf who).sup && (d.reqOf who).trusted && d.tagFreeFor who

/-- A request of supervisor code in the trusted domain reaches block `b`, which is not in reset. -/
def Device.codeReaches (d : Device) (who : Who) (b : Nat) : Bool := d.reaches who b && (codeFail 0 who (d.reqOf who)).isNone

/-- A write that completes and does `f`. -/
def State.wrote (s : State) (who : Who) (f : Device → Device) : Host.Outcome State Fault Refusal :=
  .next (s.on (fun d => (f d).writeDone who .ok))

/-- A register write to `a` that is turned away as a domain violation with code `sub`. -/
def State.denied (s : State) (who : Who) (a sub : Nat) : Host.Outcome State Fault Refusal :=
  .next (s.on (fun d => (d.domViolation who a sub true).writeDone who .domain))

/-- A read that completes, returns `v` and does `f`. -/
def State.gave (s : State) (who : Who) (v : Word) (f : Device → Device) : Host.Outcome State Fault Refusal :=
  .next (s.on (fun d => (f d).answer who v .ok))

/-- What the last read of an initiator returned, and with which response. -/
def Device.got (d : Device) (who : Who) : Word × Resp :=
  (d.rdata.get (fun _ => 0) (whoIdx who), d.resp.get (fun _ => .ok) (whoIdx who))

/-- Command `c` goes on to a state that has the same queue and a device with `p`. -/
def State.yields (s : State) (c : Instr) (p : Device → Prop) : Prop :=
  ∃ d, exec c s = .next { s with dev := d } ∧ p d

/-! ### Calendar values (R87) -/

/-- A date and time of the calendar: 2000 to 2199, months and days as they are, leap years with 29 February. -/
def Cal.valid (c : Cal) : Prop :=
  2000 ≤ c.year ∧ c.year ≤ 2199 ∧ 1 ≤ c.mon ∧ c.mon ≤ 12 ∧ 1 ≤ c.day ∧ c.day ≤ monthDays c.year c.mon ∧
  c.hour ≤ 23 ∧ c.min ≤ 59 ∧ c.sec ≤ 59

/-- The seconds since 2000-01-01 00:00:00. -/
def Cal.secs (c : Cal) : Nat := c.dayNo * 86400 + c.hour * 3600 + c.min * 60 + c.sec

/-! ### Safe states -/

/-- No channel drives both outputs of its pair high (R274, R281). -/
def Device.noShootThrough (d : Device) : Bool := d.pwm.all (fun e => !(e.2.outH && e.2.outL))

/-- Memory is in its canonical form: addresses rise, no byte is listed that reads as an unlisted one. -/
def Device.memWf (d : Device) : Bool := Tab.ok byte0 d.mem.cells

/-- What every step keeps: memory is canonical, and no pair of outputs is driven high together. -/
def Device.sound (d : Device) : Prop := d.memWf = true ∧ d.noShootThrough = true

end Sys2Proof.Machine
end

