-- ==== Sys2Proof/Certificates/Slice0/Obligations.lean ====
section
/-! DEFINITION. The statements for the provers. -/

open Sys2Proof Sys2Proof.Machine

/-! ### Genha instructions -/

/-- R473: the register forms write the result of the table, and nothing but gD, the pc and ICOUNT changes. R473: the
immediate forms, with the immediate sign-extended, CLTUI and CLEUI comparing it unsigned, LUI and ORL. -/
def Obligations.AluInstructions : Prop :=
  (∀ (s : State) (c : Fin 4) (g : BitVec 4) (d a b : Fin 32), s.dev.ready c g = true →
      let k := s.dev.coreC c
      let x := k.reg a
      let y := k.reg b
      let n := y.toNat % 32
      let nx := fun (v : Word) => (.next (s.coreTo c (k.put d v).stepped) : Host.Outcome State Fault Refusal)
      exec (.add c g d a b) s = nx (BitVec.ofNat 32 (x.toNat + y.toNat)) ∧
      exec (.sub c g d a b) s = nx (BitVec.ofInt 32 (x.toInt - y.toInt)) ∧
      exec (.and c g d a b) s = nx (x &&& y) ∧
      exec (.or c g d a b) s = nx (x ||| y) ∧
      exec (.xor c g d a b) s = nx (x ^^^ y) ∧
      exec (.shl c g d a b) s = nx (BitVec.ofNat 32 (x.toNat * 2 ^ n)) ∧
      exec (.shr c g d a b) s = nx (BitVec.ofNat 32 (x.toNat / 2 ^ n)) ∧
      exec (.sar c g d a b) s = nx (BitVec.ofInt 32 (x.toInt / (2 ^ n : Nat))) ∧
      exec (.ceq c g d a b) s = nx (if x = y then 1 else 0) ∧
      exec (.cne c g d a b) s = nx (if x = y then 0 else 1) ∧
      exec (.clt c g d a b) s = nx (if x.toInt < y.toInt then 1 else 0) ∧
      exec (.cltu c g d a b) s = nx (if x.toNat < y.toNat then 1 else 0) ∧
      exec (.cle c g d a b) s = nx (if x.toInt ≤ y.toInt then 1 else 0) ∧
      exec (.cleu c g d a b) s = nx (if x.toNat ≤ y.toNat then 1 else 0)) ∧
  (∀ (s : State) (c : Fin 4) (g : BitVec 4) (d a : Fin 32) (imm : BitVec 12) (sh : BitVec 5) (up : BitVec 16),
      s.dev.ready c g = true →
      let k := s.dev.coreC c
      let x := k.reg a
      let y := imm.signExtend 32
      let nx := fun (v : Word) => (.next (s.coreTo c (k.put d v).stepped) : Host.Outcome State Fault Refusal)
      exec (.addi c g d a imm) s = nx (BitVec.ofInt 32 (x.toInt + imm.toInt)) ∧
      exec (.andi c g d a imm) s = nx (x &&& y) ∧
      exec (.ori c g d a imm) s = nx (x ||| y) ∧
      exec (.xori c g d a imm) s = nx (x ^^^ y) ∧
      exec (.shli c g d a sh) s = nx (BitVec.ofNat 32 (x.toNat * 2 ^ sh.toNat)) ∧
      exec (.shri c g d a sh) s = nx (BitVec.ofNat 32 (x.toNat / 2 ^ sh.toNat)) ∧
      exec (.sari c g d a sh) s = nx (BitVec.ofInt 32 (x.toInt / (2 ^ sh.toNat : Nat))) ∧
      exec (.ceqi c g d a imm) s = nx (if x = y then 1 else 0) ∧
      exec (.cnei c g d a imm) s = nx (if x = y then 0 else 1) ∧
      exec (.clti c g d a imm) s = nx (if x.toInt < imm.toInt then 1 else 0) ∧
      exec (.cltui c g d a imm) s = nx (if x.toNat < y.toNat then 1 else 0) ∧
      exec (.clei c g d a imm) s = nx (if x.toInt ≤ imm.toInt then 1 else 0) ∧
      exec (.cleui c g d a imm) s = nx (if x.toNat ≤ y.toNat then 1 else 0) ∧
      exec (.lui c g d up) s = nx (BitVec.ofNat 32 (up.toNat * 65536)) ∧
      exec (.orl c g d up) s = nx (k.reg d ||| BitVec.ofNat 32 up.toNat))

/-- R459, R474, R475, R506: the products go to the accumulator, MUL and MULU to gD too; a MAC result out of range sets
OV and wraps or saturates by SAT; RDACC rounds, clamps and sets OV when it clamps. -/
def Obligations.MultiplyAccumulate : Prop :=
  ∀ (s : State) (c : Fin 4) (g : BitVec 4) (d a b : Fin 32) (sh : BitVec 5), s.dev.ready c g = true →
    let k := s.dev.coreC c
    let x := k.reg a
    let y := k.reg b
    let v := k.acc.toInt + x.toInt * y.toInt
    let r := rnd k.acc.toInt sh.toNat
    let nx := fun (k : Core) => (.next (s.coreTo c k.stepped) : Host.Outcome State Fault Refusal)
    exec (.mul c g d a b) s =
      nx { k.put d (BitVec.ofInt 32 (x.toInt * y.toInt)) with acc := BitVec.ofInt 64 (x.toInt * y.toInt) } ∧
    exec (.mulu c g d a b) s =
      nx { k.put d (BitVec.ofNat 32 (x.toNat * y.toNat)) with acc := BitVec.ofNat 64 (x.toNat * y.toNat) } ∧
    (-2 ^ 63 ≤ v → v < 2 ^ 63 → exec (.mac c g a b) s = nx { k with acc := BitVec.ofInt 64 v }) ∧
    (v < -2 ^ 63 → exec (.mac c g a b) s =
      nx { k with acc := if wb k.accst 0 then BitVec.ofInt 64 (-2 ^ 63) else BitVec.ofInt 64 v,
                  accst := setB k.accst 8 true }) ∧
    (2 ^ 63 ≤ v → exec (.mac c g a b) s =
      nx { k with acc := if wb k.accst 0 then BitVec.ofInt 64 (2 ^ 63 - 1) else BitVec.ofInt 64 v,
                  accst := setB k.accst 8 true }) ∧
    (-2 ^ 31 ≤ r → r < 2 ^ 31 → exec (.rdacc c g d sh) s = nx (k.put d (BitVec.ofInt 32 r))) ∧
    (r < -2 ^ 31 → exec (.rdacc c g d sh) s =
      nx { k.put d 0x80000000 with accst := setB k.accst 8 true }) ∧
    (2 ^ 31 ≤ r → exec (.rdacc c g d sh) s =
      nx { k.put d 0x7FFFFFFF with accst := setB k.accst 8 true })

/-- R434, R437 to R440: a load of a good word of the core's local SRAM: the bytes little-endian, extended as the table
says, with the update of gA, which the destination overrides; nothing else changes, no byte of memory. The same of a good word of
another core's local SRAM, and of a doubleword that the D-cache holds (R442, R445); a load that misses in flash, main SRAM or
shed data with no copy in another cache brings the line in, in state E where it is shared data (R588), and one of a line that
another core holds modified is supplied by it: the copy goes to memory, both hold it in S (R588, R590). LDW of a register returns
what the read of the register gives (R14, R452). -/
def Obligations.LoadInstructions : Prop :=
  ∀ (s : State) (c : Fin 4) (g : BitVec 4) (d : Fin 32) (am : AddrMode), s.dev.ready c g = true →
    s.dev.unwatched c = true →
    let k := s.dev.coreC c
    let at' := fun (n i : Nat) => s.dev.rdByte ((k.ea am n).toNat + i)
    let nx := fun (n : Nat) (v : Word) =>
      (.next (s.coreTo c ((k.eaUpdate am n).put d v).stepped) : Host.Outcome State Fault Refusal)
    (s.dev.localWord c (k.ea am 1).toNat 1 = true →
      exec (.ldb c g d am) s = nx 1 ((at' 1 0).signExtend 32) ∧
      exec (.ldbu c g d am) s = nx 1 ((at' 1 0).setWidth 32)) ∧
    (s.dev.localWord c (k.ea am 2).toNat 2 = true →
      exec (.ldh c g d am) s = nx 2 ((at' 2 1 ++ at' 2 0).signExtend 32) ∧
      exec (.ldhu c g d am) s = nx 2 ((at' 2 1 ++ at' 2 0).setWidth 32)) ∧
    (s.dev.localWord c (k.ea am 4).toNat 4 = true →
      exec (.ldw c g d am) s = nx 4 (at' 4 3 ++ at' 4 2 ++ at' 4 1 ++ at' 4 0)) ∧
    (∀ i n f, loadForm c g d am i n f →
      let a := (k.ea am n).toNat
      let l := lineOf a
      let fromMem := f (s.dev.rdLe a n)
      let with' := fun (k : Core) (x : DLine) => { k with dc := k.dc.set (fun _ => none) l (some x) }
      let ends := fun (k : Core) (v : Word) => Core.stepped ((k.eaUpdate am n).put d v)
      let room : Prop := (s.dev.setLines c l).length < 4 ∧ s.dev.flashBusy a = false ∧ (∀ m ∈ s.dev.mem.merge, lineOf m.addr ≠ l) ∧
        (∀ j, j < 4 → ∀ e ∈ (s.dev.coreC j).ev, e.addr ≠ l)
      s.dev.memPasses c a n false = true →
      (isCached a = false → s.dev.eccOf (dwOf a) = .good → exec i s = nx n fromMem) ∧
      (isCached a = true → ∀ x, s.dev.dline c l = some x → x.bad.getLsbD (a / 8 % 4) = false →
        x.one.getLsbD (a / 8 % 4) = false → exec i s = nx n (f (exBytes (lineDw x.data (a / 8 % 4)) (a % 8) n))) ∧
      (isCached a = true → room → (∀ j, j < 4 → s.dev.dline j l = none) → (∀ j, j < 4 → s.dev.eccOf (32 * l + 8 * j) = .good) →
        exec i s = .next (s.coreTo c (ends (with' k
          { st := if isShared a then .e else .s, data := lineFrom (fun j => s.dev.rdDw (32 * l + 8 * j)), bad := 0 }) fromMem))) ∧
      (isShared a = true → room → ∀ o x, o < 4 → o ≠ c.val → s.dev.dline o l = some x → x.st = .m → x.bad = 0 →
        (∀ j, j < 4 → j ≠ o → s.dev.dline j l = none) → s.yields i (fun v =>
          v.coreC c = ends (with' k { st := .s, data := x.data, bad := 0 })
            (f (exBytes (lineDw x.data (a / 8 % 4)) (a % 8) n)) ∧
          v.dline o l = some { x with st := .s, one := 0 } ∧
          ∀ j, v.rdByte j = if lineOf j = l then (x.data >>> (8 * (j % 32))).setWidth 8 else s.dev.rdByte j))) ∧
    (let a := (k.ea am 4).toNat
     isRegSpace a = true → s.dev.coreWaits c = false → s.dev.tagBars c = false → ∀ d' v,
       (s.dev.begun c).readReg (.core c) a = (d', .ok v) → d'.core = (s.dev.begun c).core → d'.unwatched c = true →
       d'.engOf c = .idle →
       exec (.ldw c g d am) s = .next { s with dev := d'.setCore c (Core.stepped ((k.eaUpdate am 4).put d v)) })

/-- R434, R437 to R441: a store to a good word of the core's local SRAM or of another core's writes the low bytes of the register
as it was before the update, at the effective address; every other byte, register and unit is unchanged. R445, R588, R589: a store
to main SRAM or shed data goes to the line in the D-cache, which is then modified, and no byte of memory changes; a line held in S
is invalidated in the other caches; a line that no cache holds is brought in first. STW to a register does what the write of
the register does (R14, R452). -/
def Obligations.StoreInstructions : Prop :=
  ∀ (s : State) (c : Fin 4) (g : BitVec 4) (r : Fin 32) (am : AddrMode) (i : Instr) (n : Nat), s.dev.ready c g = true →
    s.dev.unwatched c = true →
    (i = .stb c g r am ∧ n = 1 ∨ i = .sth c g r am ∧ n = 2 ∨ i = .stw c g r am ∧ n = 4) →
    let k := s.dev.coreC c
    let a := (k.ea am n).toNat
    let l := lineOf a
    let new := fun (x : DLine) => some { x with
      st := .m, data := lineSet x.data (a / 8 % 4) (insBytes (lineDw x.data (a / 8 % 4)) (a % 8) n
        ((k.reg r).toNat % 2 ^ (8 * n))) }
    let held := fun (x : Option DLine) => Core.stepped ({ k with dc := k.dc.set (fun _ => none) l x }.eaUpdate am n)
    (s.dev.memPasses c a n true = true → isCached a = false → s.dev.eccOf (dwOf a) = .good →
      ∃ t, exec i s = .next t ∧ t.pending = s.pending ∧
        t.dev.coreC c = (k.eaUpdate am n).stepped ∧
        (∀ j, t.dev.rdByte j =
          if a ≤ j ∧ j < a + n then BitVec.ofNat 8 ((k.reg r).toNat / 256 ^ (j - a)) else s.dev.rdByte j) ∧
        t.dev = { s.dev with
          core := t.dev.core, mem := { s.dev.mem with cells := t.dev.mem.cells, ecc := t.dev.mem.ecc } } ∧
        ∀ c', c' ≠ c.val → t.dev.coreC c' = s.dev.coreC c') ∧
    (s.dev.memPasses c a n true = true → isShared a = true → (∀ j, j < 4 → ∀ e ∈ (s.dev.coreC j).ev, e.addr ≠ l) →
      (∀ x, s.dev.dline c l = some x → x.bad.getLsbD (a / 8 % 4) = false → x.one.getLsbD (a / 8 % 4) = false →
        (x.st ≠ .s → exec i s = .next (s.coreTo c (held (new x)))) ∧
        (x.st = .s → (∀ j y, j < 4 → s.dev.dline j l = some y → y.st = .s) → s.yields i (fun d =>
          d.coreC c = held (new x) ∧ (∀ j, j < 4 → j ≠ c.val → d.dline j l = none) ∧ d.mem = s.dev.mem))) ∧
      ((∀ j, j < 4 → s.dev.dline j l = none) → (s.dev.setLines c l).length < 4 → (∀ m ∈ s.dev.mem.merge, lineOf m.addr ≠ l) →
        (∀ j, j < 4 → s.dev.eccOf (32 * l + 8 * j) = .good) → exec i s = .next (s.coreTo c (held (new
          { st := .e, data := lineFrom (fun j => s.dev.rdDw (32 * l + 8 * j)), bad := 0 }))))) ∧
    (n = 4 → isRegSpace a = true → s.dev.coreWaits c = false → s.dev.tagBars c = false → ∀ d' v,
      (s.dev.begun c).writeReg (.core c) a (k.reg r) = (d', .ok v) → d'.core = (s.dev.begun c).core →
      d'.unwatched c = true → d'.engOf c = .idle →
      exec i s = .next { s with dev := d'.setCore c (k.eaUpdate am n).stepped })

/-- R476: MACH with two good halfwords of the core's local SRAM adds their signed product and moves both address
registers by 2, once when they are one register. R475: a sum out of range sets OV, and saturates under SAT or wraps. -/
def Obligations.MachLoadsAndAdds : Prop :=
  ∀ (s : State) (c : Fin 4) (g : BitVec 4) (a b : Fin 32), s.dev.ready c g = true → s.dev.unwatched c = true →
    let k := s.dev.coreC c
    let x := (k.reg a).toNat
    let y := (k.reg b).toNat
    s.dev.localWord c x 2 = true → s.dev.localWord c y 2 = true →
    let h1 := s.dev.rdByte (x + 1) ++ s.dev.rdByte x
    let h2 := s.dev.rdByte (y + 1) ++ s.dev.rdByte y
    let v := k.acc.toInt + h1.toInt * h2.toInt
    let k1 := k.put a (k.reg a + 2)
    let k2 := if a = b then k1 else k1.put b (k1.reg b + 2)
    let over' := fun (e : Int) => exec (.mach c g a b) s = .next (s.coreTo c (Core.stepped
      { k2 with acc := if wb k.accst 0 then BitVec.ofInt 64 e else BitVec.ofInt 64 v, accst := setB k.accst 8 true }))
    (v < 2 ^ 63 → -2 ^ 63 ≤ v →
      exec (.mach c g a b) s = .next (s.coreTo c (Core.stepped { k2 with acc := BitVec.ofInt 64 v }))) ∧
    (v < -2 ^ 63 → over' (-2 ^ 63)) ∧ (2 ^ 63 ≤ v → over' (2 ^ 63 - 1))

/-- R435, R438, R476, R484: an unaligned access to a memory region takes the alignment exception at the instruction,
with the address in FADDR, before anything else is checked. R535, R541: one to a trusted granule from the open domain is recorded
and takes the domain violation with SUB 0. R14, R55, R435, R684, R701, R670: the data bus error, with SUB 0 where nothing answers, 1
where a register block is not accessed as an aligned word, 3 for an idle region or a store to flash, 2 for a load from a local SRAM
word that is uncorrectable. -/
def Obligations.FailingAccessesTrap : Prop :=
  ∀ (s : State) (c : Fin 4) (g : BitVec 4) (d a b : Fin 32) (am : AddrMode), s.dev.ready c g = true →
    let k := s.dev.coreC c
    let nx := fun (x : Word) => (.next (s.on (fun v =>
      v.ran c ((v.begun c).takeExc c ⟨5, 0, x⟩ true k.pc k.pc))) : Host.Outcome State Fault Refusal)
    (unalignedMem (k.ea am 2).toNat 2 = true →
      exec (.ldh c g d am) s = nx (k.ea am 2) ∧ exec (.ldhu c g d am) s = nx (k.ea am 2) ∧
      exec (.sth c g d am) s = nx (k.ea am 2)) ∧
    (unalignedMem (k.ea am 4).toNat 4 = true →
      exec (.ldw c g d am) s = nx (k.ea am 4) ∧ exec (.stw c g d am) s = nx (k.ea am 4)) ∧
    (unalignedMem (k.reg a).toNat 2 = true → exec (.mach c g a b) s = nx (k.reg a)) ∧
    (unalignedMem (k.reg a).toNat 2 = false → unalignedMem (k.reg b).toNat 2 = true →
      exec (.mach c g a b) s = nx (k.reg b)) ∧
    (∀ i n wr, accessForm c g d am i n wr →
      let x := k.ea am n
      let m := x.toNat
      let fails := fun (f : Device → Device) (vec sub : Nat) => exec i s = .next (s.on (fun v =>
        v.ran c ((f (v.begun c)).takeExc c ⟨vec, sub, x⟩ true k.pc k.pc)))
      let bus := fun (sub : Nat) => fails id 7 sub
      s.dev.overFabric (.core c) m = false ∨ s.dev.tagBars c = false →
      (∀ r, memRegion m = some r → m % n = 0 →
        (s.dev.memTrusted m = true → k.trusted = false → fails (fun v => v.domViolation (.core c) m 0 wr) 6 0) ∧
        (s.dev.memTrusted m = false ∨ k.trusted = true →
          (s.dev.memIdle m = true → bus 3) ∧ (wr = true → m < 0x400000 → bus 3) ∧
          (wr = false → r = 4 + c.val → s.dev.memIdle m = false → s.dev.eccOf (dwOf m) = .bad →
            fails (fun v => v.countUe 2 (dwOf m) c 0) 7 2))) ∧
      (memRegion m = none → isRegSpace m = false → bus 0) ∧
      (isRegSpace m = true → s.dev.coreWaits c = false →
        (blocks.elem (blkOf m) = false → bus 0) ∧
        (blocks.elem (blkOf m) = true → n ≠ 4 → s.dev.regDom (.core c) m wr 0 = none → bus 1) ∧
        (blocks.elem (blkOf m) = true → n = 4 → m % 4 ≠ 0 → (∀ v, s.dev.regDom (.core c) m wr v = none) → bus 1)))

/-- R478, R502: the branches set the pc, BSR and JSR g30 too; BZ and BNZ go on when their condition fails. The targets
are ones R479 and R536 let the core fetch from. R479, R701: a branch whose target is not word-aligned or lies in no region
the core fetches from, or in an idle one, takes the instruction bus error with SUB = 2 at the branch, with the target in FADDR; the pc and
g30 stay for the entry. -/
def Obligations.BranchesGoToTheirTargets : Prop :=
  (∀ (s : State) (c : Fin 4) (g : BitVec 4) (o22 : BitVec 22) (o17 : BitVec 17) (r : Fin 32), s.dev.ready c g = true →
      let k := s.dev.coreC c
      let long := k.pc + 4 * o22.signExtend 32
      let short := k.pc + 4 * o17.signExtend 32
      let nx := fun (k : Core) (pc : Word) =>
        (.next (s.coreTo c (k.begun.retired 1 pc)) : Host.Outcome State Fault Refusal)
      (s.dev.targetTrap c long = none →
        exec (.bra c g o22) s = nx k long ∧ exec (.bsr c g o22) s = nx (k.put 30 (k.pc + 4)) long) ∧
      (s.dev.targetTrap c (k.reg r) = none →
        exec (.jmp c g r) s = nx k (k.reg r) ∧ exec (.jsr c g r) s = nx (k.put 30 (k.pc + 4)) (k.reg r)) ∧
      (s.dev.targetTrap c short = none → k.reg r = 0 → exec (.bz c g r o17) s = nx k short) ∧
      (s.dev.targetTrap c short = none → k.reg r ≠ 0 → exec (.bnz c g r o17) s = nx k short) ∧
      (k.reg r ≠ 0 → exec (.bz c g r o17) s = nx k (k.pc + 4)) ∧
      (k.reg r = 0 → exec (.bnz c g r o17) s = nx k (k.pc + 4))) ∧
  (∀ (s : State) (c : Fin 4) (g : BitVec 4) (o22 : BitVec 22) (r : Fin 32), s.dev.ready c g = true →
      let k := s.dev.coreC c
      let long := k.pc + 4 * o22.signExtend 32
      let nx := fun (x : Word) => (.next (s.on (fun v =>
      v.ran c ((v.begun c).takeExc c ⟨1, 2, x⟩ true k.pc k.pc))) : Host.Outcome State Fault Refusal)
      (fetchable c long.toNat = false ∨ s.dev.memIdle long.toNat = true →
        exec (.bra c g o22) s = nx long ∧ exec (.bsr c g o22) s = nx long) ∧
      (fetchable c (k.reg r).toNat = false ∨ s.dev.memIdle (k.reg r).toNat = true →
        exec (.jmp c g r) s = nx (k.reg r) ∧ exec (.jsr c g r) s = nx (k.reg r)))

/-- R419, R421, R426: MFS copies a system register to gD in supervisor mode; a read of ICOUNT_LO captures the upper
word for ICOUNT_HI. R419, R421, R424, R425, R428, R458, R512: MTS in supervisor mode writes the fields of a register
that it may write: MODE and IE of STATUS, never DOM or SB; VBASE with VALID from the trusted domain only; one half of
the accumulator. -/
def Obligations.SystemRegisterAccesses : Prop :=
  (∀ (s : State) (c : Fin 4) (g : BitVec 4) (d : Fin 32) (num : BitVec 10), s.dev.ready c g = true →
      let k := s.dev.coreC c
      let nx := fun (k : Core) (v : Word) =>
        (.next (s.coreTo c (k.put d v).stepped) : Host.Outcome State Fault Refusal)
      let hi := { k with icountHi := (k.icount >>> 32).setWidth 32 }
      exec (.icountLoRead c g d) s = nx hi (k.icount.setWidth 32) ∧
      (supNum num.toNat = false ∨ k.sup = true → num ≠ 0x24 → exec (.mfs c g d num) s = nx k (k.sysReg c num.toNat)) ∧
      exec (.mfs c g d 0x24) s = nx hi (k.icount.setWidth 32)) ∧
  (∀ (s : State) (c : Fin 4) (g : BitVec 4) (r : Fin 32), s.dev.ready c g = true →
      let k := s.dev.coreC c
      let v := k.reg r
      let nx := fun (k : Core) => (.next (s.coreTo c k.stepped) : Host.Outcome State Fault Refusal)
      let base := { k with vbase := (v &&& 0xFFFFFF00) ||| 1 }
      (k.sup = true →
        exec (.mts c g 0 r) s = nx { k with status := (k.status &&& 0xFFFFFFFA) ||| (v &&& 5) } ∧
        exec (.mts c g 1 r) s = nx { k with estat := v &&& 0xF } ∧
        exec (.mts c g 2 r) s = nx { k with epc := v } ∧
        exec (.mts c g 3 r) s = nx k ∧
        (k.trusted = true → exec (.mts c g 5 r) s = nx base ∧ exec (.vbaseWrite c g r) s = nx base) ∧
        (k.trusted = false → exec (.mts c g 5 r) s = nx k ∧ exec (.vbaseWrite c g r) s = nx k) ∧
        exec (.mts c g 6 r) s = nx { k with tsbp := v &&& 0xFFFFFFF8 } ∧
        exec (.mts c g 7 r) s = nx { k with rpc := v &&& 0x1FF }) ∧
      exec (.mts c g 0x21 r) s = nx { k with acc := (k.acc >>> 32).setWidth 32 ++ v } ∧
      exec (.mts c g 0x22 r) s = nx { k with acc := v ++ k.acc.setWidth 32 } ∧
      exec (.mts c g 0x23 r) s = nx { k with accst := v &&& 0x101 } ∧
      exec (.mts c g 0x24 r) s = nx k)

/-- R420, R483: in user mode the privileged instructions, and MFS and MTS of supervisor numbers, take the privilege
exception and change nothing else. -/
def Obligations.UserModeIsRefused : Prop :=
  ∀ (s : State) (c : Fin 4) (g : BitVec 4) (r : Fin 32) (num : BitVec 10), s.dev.ready c g = true →
    (s.dev.coreC c).sup = false →
    let k := s.dev.coreC c
    let nx := (.next (s.on (fun v =>
      v.ran c ((v.begun c).takeExc c ⟨3, 0, 0⟩ true k.pc k.pc))) : Host.Outcome State Fault Refusal)
    exec (.rfe c g) s = nx ∧ exec (.sleep c g) s = nx ∧ exec (.vbaseWrite c g r) s = nx ∧
    exec (.cacheInvalidateI c g r) s = nx ∧ exec (.cacheCleanInvalidateD c g r) s = nx ∧
    (supNum num.toNat = true → exec (.mfs c g r num) s = nx ∧ exec (.mts c g num r) s = nx)

/-- R448, R450: the cache operations in supervisor mode: an I-cache line or the whole I-cache is no longer held; a D-cache line
is written back when dirty and kept, with the marks of its uncorrectable doublewords, or no longer held; the whole D-cache is
clean, or no longer held; a line that is not held stays so. R701: a line of a region marked idle is not written. Of the cores
nothing but this cache, the pc and ICOUNT changes. A command that names another operation than its register does changes nothing:
that is the model's reading of the table (log 41). -/
def Obligations.CacheOperations : Prop :=
  ∀ (s : State) (c : Fin 4) (g : BitVec 4) (r : Fin 32), s.dev.ready c g = true → (s.dev.coreC c).sup = true →
    let k := s.dev.coreC c
    let op := wf (k.reg r) 2 0
    let l := wf (k.reg r) 31 5
    let dropped := fun (i : Instr) (q : Core → Prop) =>
      s.yields i (fun d => q (d.coreC c) ∧ (∃ ic ice, d = s.dev.setCore c { k.stepped with ic := ic, ice := ice }))
    let cleaned := fun (i : Instr) (q : Device → Prop) => s.yields i (fun d =>
      (∃ dc, d.coreC c = { k.stepped with dc := dc }) ∧ (∀ j, j ≠ c.val → d.coreC j = s.dev.coreC j) ∧ q d)
    let written := fun (d : Device) => ∀ x, s.dev.dline c l = some x → x.st = .m → isShared (32 * l) = true →
      (s.dev.memIdle (32 * l) = false → ∀ i, i < 32 → d.rdByte (32 * l + i) = (x.data >>> (8 * i)).setWidth 8) ∧
      (s.dev.memIdle (32 * l) = true → d.mem.cells = s.dev.mem.cells)
    let here := fun (i : Instr) (n : Nat) => op ≠ n → exec i s = .next s
    (op = 1 → ((∀ e ∈ k.ice, e.1 / 4 ≠ l) →
        exec (.cacheInvalidateIline c g r) s = .next (s.coreTo c (Core.stepped { k with ic := k.ic.del l }))) ∧
      dropped (.cacheInvalidateIline c g r) (fun k' => k'.ic = k.ic.del l)) ∧
    (op = 2 → (k.ice = [] →
        exec (.cacheInvalidateI c g r) s = .next (s.coreTo c (Core.stepped { k with ic := [] }))) ∧
      dropped (.cacheInvalidateI c g r) (fun k' => k'.ic = [])) ∧
    (op = 3 → cleaned (.cacheCleanDline c g r) (fun d => written d ∧ (∀ x, d.dline c l = some x → x.st ≠ .m) ∧
      ∀ x, s.dev.dline c l = some x → d.dline c l = some (if x.st = .m then { x with st := .e, one := 0 } else x))) ∧
    (op = 4 → cleaned (.cacheCleanInvalidateDline c g r) (fun d => written d ∧ d.dline c l = none)) ∧
    (op = 5 → cleaned (.cacheCleanD c g r) (fun d => ∀ j x, d.dline c j = some x → x.st ≠ .m)) ∧
    (op = 6 → cleaned (.cacheCleanInvalidateD c g r) (fun d => ∀ j, d.dline c j = none)) ∧
    (s.dev.dline c l = none → (op = 3 → exec (.cacheCleanDline c g r) s = .next (s.coreTo c k.stepped)) ∧
      (op = 4 → exec (.cacheCleanInvalidateDline c g r) s = .next (s.coreTo c k.stepped))) ∧
    here (.cacheInvalidateIline c g r) 1 ∧ here (.cacheInvalidateI c g r) 2 ∧ here (.cacheCleanDline c g r) 3 ∧
    here (.cacheCleanInvalidateDline c g r) 4 ∧ here (.cacheCleanD c g r) 5 ∧ here (.cacheCleanInvalidateD c g r) 6

/-- R454: a FENCE waits while a register access of its core has not completed. When it completes the merge buffer is empty,
and the bytes gathered for each doubleword lie in memory over the ones that were there; no other byte changes, of the cores only
the pc and ICOUNT of this one, and of the units none (an error that a write meets is counted). The entries are of the form the
buffer holds: aligned doublewords of main SRAM or shed data, one entry each, in no region marked idle. -/
def Obligations.FenceEmptiesTheMergeBuffer : Prop :=
  ∀ (s : State) (c : Fin 4) (g : BitVec 4), s.dev.ready c g = true →
    let l := s.dev.mem.merge
    (s.dev.coreWaits c = true → exec (.fence c g) s = .next s) ∧
    (s.dev.coreWaits c = false → s.yields (.fence c g) (fun d =>
      d.mem.merge = [] ∧ d.core = (s.dev.setCore c (s.dev.coreC c).stepped).core)) ∧
    (s.dev.coreWaits c = false → (l.map (fun m => m.addr)).Nodup →
      (∀ m ∈ l, isShared m.addr = true ∧ m.addr % 8 = 0 ∧ s.dev.memIdle m.addr = false) →
      s.yields (.fence c g) (fun d =>
        d.mem.merge = [] ∧ (∀ m ∈ l, d.rdDw m.addr = m.over (s.dev.rdDw m.addr)) ∧
        (∀ a, (∀ m ∈ l, a < m.addr ∨ m.addr + 8 ≤ a) → d.rdByte a = s.dev.rdByte a) ∧
        d = { s.dev with core := d.core, mem := d.mem, intc := d.intc, evr := d.evr, same := d.same }))

/-- R480, R507, R513 to R515: SYS through the shadow bank saves STATUS and pc + 4, sets ECAUSE, FADDR to CODE, supervisor
mode, IE = 0 and SB = 1, and goes on at the handler. ICOUNT counts the SYS, which retires before its entry: the model's reading
(log 43). -/
def Obligations.SysEntersThroughTheShadowBank : Prop :=
  ∀ (s : State) (c : Fin 4) (g : BitVec 4) (code : BitVec 16), s.dev.ready c g = true → s.dev.shadowVector c 8 = true →
    (s.dev.entryTrusted c 8 = true ∨ (s.dev.coreC c).trusted = false) →
    let k := s.dev.coreC c
    exec (.sys c g code) s = .next (s.coreTo c
      ((k.begun.retired 1 (k.pc + 4)).shadowEntered ⟨8, 0, code.setWidth 32⟩ (k.pc + 4) (s.dev.handler c 8)
        (s.dev.entryTrusted c 8)))

/-- R514, R515, R528: taking any synchronous exception through the shadow bank; from the trusted domain into an open
handler it is a lockup with reason 3, and without a vector table one with reason 1. R528: reason 2 where the entry word cannot be
fetched from or its region is idle, reason 4 where the task-state block is needed and has no home of its own or is not the domain's
to write, reason 5 where the handler cannot be fetched from. R513, R514, R516, R518: an entry through the task-state block in the
core's local SRAM, taken where SB is 1 or the entry word's SHADOW is 0: the forty words of the block, and no other byte of memory, are
written, and bit 3 of ESTAT is set where SB was 1. R529, R546: a lockup records vector, reason and pc, and resets the core with its cause. The order of the reasons
is the model's reading (log 43). -/
def Obligations.ExceptionEntryAndLockup : Prop :=
  (∀ (d : Device) (c : Nat) (t : Trap) (spc ipc : Word), c < 4 → (d.coreC c).st = .running →
      (d.shadowVector c t.vec = true →
        ((d.entryTrusted c t.vec = true ∨ (d.coreC c).trusted = false) →
          d.takeExc c t true spc ipc =
            .ok (d.setCore c ((d.coreC c).shadowEntered t spc (d.handler c t.vec) (d.entryTrusted c t.vec)))) ∧
        (d.entryTrusted c t.vec = false → (d.coreC c).trusted = true →
          d.takeExc c t true spc ipc = .ok (d.lockup c t.vec 3 ipc))) ∧
      (wb (d.coreC c).vbase 0 = false → d.takeExc c t true spc ipc = .ok (d.lockup c t.vec 1 ipc)) ∧
      (wb (d.coreC c).vbase 0 = true →
        (fetchable c ((d.coreC c).entryAddr t.vec) = false → d.takeExc c t true spc ipc = .ok (d.lockup c t.vec 2 ipc)) ∧
        (d.memIdle ((d.coreC c).entryAddr t.vec) = true → memRegion ((d.coreC c).entryAddr t.vec) = some (4 + c) →
          d.takeExc c t true spc ipc = .ok (d.lockup c t.vec 2 ipc)))) ∧
  (∀ (d : Device) (c : Nat) (t : Trap) (spc ipc : Word), c < 4 → (d.coreC c).st = .running →
      let k := d.coreC c
      let shadow := wb (d.entryWord c t.vec) 0 && !k.sb
      let b := k.tsbp.toNat
      let tr := d.entryTrusted c t.vec
      let h := (d.handler c t.vec).toNat
      let mine := (List.range 40).all (fun i => tr || !d.memTrusted (b + 4 * i))
      d.vectorHere c t.vec = true → (tr = true ∨ k.trusted = false) →
      (shadow = false → d.tsbHome c b = false → d.takeExc c t true spc ipc = .ok (d.lockup c t.vec 4 ipc)) ∧
      (shadow = false → d.tsbHome c b = true → mine = false →
        ∃ x, x < b + 160 ∧ b ≤ x ∧ d.memTrusted x = true ∧ d.takeExc c t true spc ipc =
          .ok ((d.domViolation (coreWho c) x 0 true).lockup c t.vec 4 ipc)) ∧
      (shadow = true ∨ d.tsbHome c b = true ∧ mine = true ∧ memRegion b = some (4 + c) →
        fetchable c h = false ∨ d.memIdle h = true ∨ d.memTrusted h ≠ tr →
        d.takeExc c t true spc ipc = .ok (d.lockup c t.vec 5 ipc)) ∧
      (shadow = false → d.tsbHome c b = true → mine = true → memRegion b = some (4 + c) → b % 8 = 0 →
        d.handlerHeld c t.vec = true → k.stepping = false → k.haltReq = false →
        (d.lv (aDbgC c 14)).toNat.testBit t.vec = false →
        ∃ v, d.takeExc c t true spc ipc = .ok v ∧
          v.coreC c = k.blockEntered t (d.handler c t.vec) tr ∧ (∀ j, j ≠ c → v.coreC j = d.coreC j) ∧
          (∀ i, i < 40 → v.rdLe (b + 4 * i) 4 = k.blockWord spc t.faddr i) ∧
          (∀ a, a < b ∨ b + 160 ≤ a → v.rdByte a = d.rdByte a))) ∧
  (∀ (d : Device) (c vec why : Nat) (ipc : Word), c < 4 → d.resetsTaken = true → (d.coreC c).st ≠ .inReset →
      vec < 64 → why < 8 →
      let t := d.lockup c vec why ipc
      wf (t.sys.lockup.get (fun _ => 0) c) 5 0 = vec ∧ wf (t.sys.lockup.get (fun _ => 0) c) 10 8 = why ∧
      wb (t.sys.lockup.get (fun _ => 0) c) 31 = true ∧ t.sys.lockupPc.get (fun _ => 0) c = ipc ∧
      (t.coreC c).st = .inReset ∧ wb t.rst.cause (16 + c) = true ∧ t.rst.inrst.getLsbD c = true)

/-- R496, R519, R520, R523, R524: RFE through the shadow bank loads STATUS and the pc, clears the shadow registers
when it leaves the trusted domain, and resumes a repetition when RPC is not 0. R519, R521, R525: with SB = 0, or ESTAT bit 3 set, it
loads the general registers, of the bank that the loaded STATUS selects, the pc, STATUS, the accumulator, ACCST, ESTAT and EPC from
the task-state block, here one in the core's local SRAM; a block that lies nowhere ends it with the data bus error at TSBP. R522, R550: RFE
from the open domain to a STATUS with DOM = 1 takes the domain violation with SUB = RAISE and loads nothing; the violation has
address 0, the model's choice (log 39). -/
def Obligations.ReturnFromException : Prop :=
  (∀ (s : State) (c : Fin 4) (g : BitVec 4), s.dev.ready c g = true →
      let k := s.dev.coreC c
      k.sup = true → k.sb = true → wb k.estat 3 = false → (k.trusted = true ∨ wb k.estat 1 = false) →
      ∃ k', exec (.rfe c g) s = .next (s.coreTo c k') ∧
        k'.status = k.estat ∧ k'.pc = k.epc ∧ k'.icount = k.icount + 1 ∧ k'.rpc = k.rpc ∧
        (∀ r, r < 32 → k'.gOf false r = k.gOf false r) ∧
        (∀ r, 1 ≤ r → r < 16 → k'.gOf true r = if k.trusted && !wb k.estat 1 then 0 else k.gOf true r) ∧
        (k.rpc = 0 → k'.rep = none) ∧
        (k.rpc ≠ 0 → ∃ x, k'.rep = some x ∧ x.left = k.rpc.toNat ∧ x.isI = true ∧ x.resumed = true)) ∧
  (∀ (s : State) (c : Fin 4) (g : BitVec 4), s.dev.ready c g = true →
      let k := s.dev.coreC c
      k.sup = true → k.sb = true → wb k.estat 3 = false → k.trusted = false → wb k.estat 1 = true →
      exec (.rfe c g) s = .next (s.on (fun d =>
        d.ran c (((d.begun c).domViolation (.core c) 0 4 false).takeExc c ⟨6, 4, 0⟩ true k.pc k.pc)))) ∧
  (∀ (s : State) (c : Fin 4) (g : BitVec 4), s.dev.ready c g = true →
      let k := s.dev.coreC c
      let b := k.tsbp.toNat
      let w := fun (i : Nat) => s.dev.rdLe (b + 4 * i) 4
      k.sup = true → k.sb = false ∨ wb k.estat 3 = true →
      (b % 8 = 0 → s.dev.tsbHome c b = true → memRegion b = some (4 + c.val) →
        (∀ i, i < 40 → s.dev.memTrusted (b + 4 * i) = true → k.trusted = true) →
        (∀ i, i < 20 → s.dev.eccOf (b + 8 * i) = .good) → (k.trusted = true ∨ wb (w 32) 1 = false) →
        ∃ k', exec (.rfe c g) s = .next (s.coreTo c k') ∧
          k'.status = w 32 &&& 0xF ∧ k'.pc = w 31 ∧ k'.acc = w 35 ++ w 34 ∧ k'.accst = w 36 &&& 0x101 ∧
          k'.estat = w 38 &&& 0xF ∧ k'.epc = w 39 ∧ k'.icount = k.icount + 1 ∧ k'.rpc = k.rpc ∧ k'.tsbp = k.tsbp ∧
          (∀ r, 1 ≤ r → r < 32 → k'.gOf (wb (w 32) 3) r = w (r - 1)) ∧
          (∀ r, 1 ≤ r → r < 16 → k'.gOf (!wb (w 32) 3) r = k.gOf (!wb (w 32) 3) r) ∧
          (k.rpc = 0 → k'.rep = none) ∧
          (k.rpc ≠ 0 → ∃ x, k'.rep = some x ∧ x.left = k.rpc.toNat ∧ x.isI = true ∧ x.resumed = true)) ∧
      (memRegion b = none → isRegSpace b = false → s.dev.tagBars c = false → exec (.rfe c g) s = .next (s.on (fun d =>
        d.ran c ((d.begun c).takeExc c ⟨7, 0, k.tsbp⟩ true k.pc k.pc)))))

/-- R140, R481, R503: SLEEP halts the core at pc + 4 when no interrupt is pending for it, and goes on when one is; a halt while
SLEEP or OFF is requested and no core runs is to become a sleep request. -/
def Obligations.SleepHaltsOrGoesOn : Prop :=
  ∀ (s : State) (c : Fin 4) (g : BitVec 4), s.dev.ready c g = true → (s.dev.coreC c).sup = true →
    let k := s.dev.coreC c
    (s.dev.pendingFor c = false → exec (.sleep c g) s =
      .next (s.on (fun d =>
        let d := (d.setCore c { k.stepped with st := .asleep }).owlSync
        { d with pwr := { d.pwr with asks := if d.sleepReq && !d.someRuns then some c.val else none } }))) ∧
    (s.dev.pendingFor c = true → exec (.sleep c g) s = .next (s.coreTo c k.stepped))

/-- R485: a REP whose guard passes makes the next instruction its follower, with the count N + 1 or that of gC. R426,
R490: a repetition of ADDI under REP or REP.I runs it once more: the count falls by one, the pc stays until the last
repetition has run; each counts in ICOUNT. R486, R487, R497: a follower outside the classes ALU, MAC and MEM, here a
branch, is refused with the illegal-sequence exception at the REP, with the follower's address in FADDR and RPC = 0. R490,
R494: the same of MAC, MACH, loads and stores, each repetition with its own address; one whose guard fails consumes its count; one that
takes an exception leaves RPC at the repetitions still to run, itself among them. R492, R493: an interrupt comes between the repetitions
of a REP.I, with that count in RPC, and not between those of a REP. That ICOUNT counts the REP with its first repetition is the
model's reading (log 42). -/
def Obligations.Repetition : Prop :=
  (∀ (s : State) (c : Fin 4) (g : BitVec 4) (rg : Bool) (r : Fin 32) (n : BitVec 8), s.dev.ready c g = true →
      let k := s.dev.coreC c
      let left := if rg then (k.reg r).toNat else n.toNat + 1
      let nx := fun (isI : Bool) => (.next (s.coreTo c { k.begun with
        rep := some { left := left, isI := isI, repPc := k.pc, resumed := false, follower := none }, pc := k.pc + 4 }) :
        Host.Outcome State Fault Refusal)
      (rg = true ∨ n.toNat ≤ 63 → exec (.rep c g rg r n) s = nx false) ∧ exec (.repI c g rg r n) s = nx true) ∧
  (∀ (s : State) (c : Fin 4) (g : BitVec 4) (d a : Fin 32) (imm : BitVec 12) (x : Rep),
      let k := s.dev.coreC c
      let i : Instr := .addi c g d a imm
      let k' := k.put d (k.reg a + imm.signExtend 32)
      k.st = .running → k.halted = false → k.hand = none → k.stepping = false → k.haltReq = false →
      s.dev.irqDue c = false → s.dev.engOf c = .idle →
      k.rep = some x → x.follower = some i → g ≠ 8 → k.guardOk g = true →
      (2 ≤ x.left → exec i s = .next (s.coreTo c { k' with
        bpSkip := false, rep := some { x with left := x.left - 1 }, icount := k.icount + 1 })) ∧
      (x.left = 1 → exec i s = .next (s.coreTo c { k' with
        bpSkip := false, rep := none, pc := k.pc + 4, icount := k.icount + 1 }))) ∧
  (∀ (s : State) (c : Fin 4) (g : BitVec 4) (off : BitVec 22) (x : Rep),
      let k := s.dev.coreC c
      k.st = .running → k.halted = false → k.rep = some x → x.follower = none → x.resumed = false →
      s.dev.irqDue c = false → s.dev.engOf c = .idle → s.dev.bpAt c = none → s.dev.fetched c = true → g ≠ 8 →
      exec (.bra c g off) s = .next (s.on (fun d =>
        d.ran c ((d.setCore c { k.begun with rpc := 0 }).takeExc c ⟨4, 0, k.pc⟩ true x.repPc x.repPc)))) ∧
  (∀ (s : State) (c : Fin 4) (g : BitVec 4) (i : Instr) (x : Rep),
      let k := s.dev.coreC c
      s.dev.repeats c i x = true → g ≠ 8 → s.dev.unwatched c = true →
      let nx := fun (k' : Core) => (.next (s.coreTo c (k'.begun.repeated x)) : Host.Outcome State Fault Refusal)
      let h := fun (a : Nat) => (s.dev.rdLe a 2).setWidth 16
      (guardOf i = some (c, g) → k.guardOk g = false → exec i s = nx k) ∧
      (k.guardOk g = true → ∀ (r a b : Fin 32) (am : AddrMode),
        (∀ v, v = k.acc.toInt + (k.reg a).toInt * (k.reg b).toInt → -2 ^ 63 ≤ v → v < 2 ^ 63 → i = .mac c g a b →
          exec i s = nx { k with acc := BitVec.ofInt 64 v }) ∧
        (∀ v, s.dev.localWord c (k.reg a).toNat 2 = true → s.dev.localWord c (k.reg b).toNat 2 = true → a ≠ b →
          v = k.acc.toInt + (h (k.reg a).toNat).toInt * (h (k.reg b).toNat).toInt → -2 ^ 63 ≤ v → v < 2 ^ 63 →
          i = .mach c g a b → exec i s =
            nx { (k.put a (k.reg a + 2)).put b ((k.put a (k.reg a + 2)).reg b + 2) with acc := BitVec.ofInt 64 v }) ∧
        (∀ n f, loadForm c g r am i n f →
          (s.dev.localWord c (k.ea am n).toNat n = true → exec i s = nx ((k.eaUpdate am n).put r (f (s.dev.rdLe (k.ea am n).toNat n)))) ∧
          (unalignedMem (k.ea am n).toNat n = true → exec i s = .next (s.on (fun d => d.ran c
            ((d.setCore c { k.begun with rpc := wd x.left }).takeExc c ⟨5, 0, k.ea am n⟩ true k.pc k.pc))))) ∧
        (i = .stw c g r am → s.dev.localWord c (k.ea am 4).toNat 4 = true → s.yields i (fun d =>
          d.coreC c = (k.eaUpdate am 4).begun.repeated x ∧
          ∀ j, d.rdByte j = if (k.ea am 4).toNat ≤ j ∧ j < (k.ea am 4).toNat + 4 then
            BitVec.ofNat 8 ((k.reg r).toNat / 256 ^ (j - (k.ea am 4).toNat)) else s.dev.rdByte j)))) ∧
  (∀ (s : State) (c : Fin 4) (src : Nat) (x : Rep),
      let k := s.dev.coreC c
      k.st = .running → k.halted = false → k.hand = none → s.dev.offerOf c = some src → s.dev.accepted c = false →
      k.rep = some x → x.follower.isSome = true →
      (x.isI = true → exec (.interruptEntry c) s = .next (s.on (fun d =>
        d.ran c ((((d.reserve c src).setCore c { k with rep := none, rpc := wd x.left, bpSkip := false }).owlSync).takeExc c
          ⟨if d.srcTrust src then 16 else 17, 0, 0⟩ false k.pc k.pc)))) ∧
      (x.isI = false → exec (.interruptEntry c) s = .next s))

/-- R433, R469, R485: an undefined word takes the illegal-instruction exception; so does every instruction with guard
0b1000, whatever its guard register holds, and a REP with a count of its own above 64. R436, R536, R701: a core that is to
fetch from a region it cannot fetch from takes the instruction bus error at that address. -/
def Obligations.UndefinedWordsAndFailingFetches : Prop :=
  (∀ (s : State) (c : Fin 4) (word : Word) (i : Instr) (g : BitVec 4) (r : Fin 32) (n : BitVec 8),
      s.dev.executing c = true →
      let k := s.dev.coreC c
      let nx := (.next (s.on (fun v =>
      v.ran c ((v.begun c).takeExc c ⟨2, 0, 0⟩ true k.pc k.pc))) : Host.Outcome State Fault Refusal)
      (undefinedWord word = true → exec (.illegalInstruction c word) s = nx) ∧
      (guardOf i = some (c, 8) → exec i s = nx) ∧
      (63 < n.toNat → exec (.rep c g false r n) s = nx)) ∧
  (∀ (s : State) (c : Fin 4) (unc : Bool),
      let k := s.dev.coreC c
      k.st = .running → k.halted = false → k.hand = none → k.rep = none → s.dev.bpAt c = none →
      s.dev.irqDue c = false → s.dev.engOf c = .idle → fetchable c k.pc.toNat = false →
      exec (.instructionBusError c unc) s = .next (s.on (fun d =>
        d.ran c ((d.begun c).takeExc c ⟨1, 0, k.pc⟩ true k.pc k.pc))))

/-- R482, R541, R565: a core that is offered a source, running or asleep, accepts it: the source is reserved for it, and it
enters vector 16 or 17 by TRUST with the first instruction not executed as its saved PC. R422, R464, R508: until then it
executes no instruction. -/
def Obligations.InterruptEntry : Prop :=
  ∀ (s : State) (c : Fin 4) (src : Nat) (i : Instr) (g : BitVec 4),
    let k := s.dev.coreC c
    k.halted = false → k.hand = none → k.rep = none → s.dev.offerOf c = some src → s.dev.accepted c = false →
    (k.live = true → s.dev.bpAt c = none) →
    exec (.interruptEntry c) s = .next (s.on (fun d =>
      d.ran c ((((d.reserve c src).setCore c { k with st := .running, bpSkip := false }).owlSync).takeExc c
        ⟨if d.srcTrust src then 16 else 17, 0, 0⟩ false k.pc k.pc))) ∧
    (guardOf i = some (c, g) → exec i s = .next s)

/-- R810: a core that is to hand over and is the last to record its state restarts at ENTRY in supervisor mode and the trusted
domain, with its I-cache empty, RPC, VBASE and TSBP 0 and g31 = STACK. R811: while another core has still to record its state,
the core records its own and waits. R809, R812: the restart leaves the active interrupts, the queues, the locks and the errands
that are held as they are. -/
def Obligations.HandoverRestartsTheCore : Prop :=
  ∀ (s : State) (c : Fin 4) (entry stack : Word),
    let x := s.dev.coreC c
    x.hand = some (entry, stack) → x.halted = false → x.rep = none →
    ((∀ j, j < 4 → j ≠ c.val → (s.dev.coreC j).hand = none ∨ (s.dev.coreC j).handed = true) →
      wb (s.dev.lv (aDbgC c 0)) 8 = false → s.yields (.coreHandover c) (fun d =>
        let k := d.coreC c
        k.st = .running ∧ k.hand = none ∧ k.pc = entry ∧ k.status = 3 ∧ k.reg 31 = stack ∧ k.ic = [] ∧
        k.rpc = 0 ∧ k.vbase = 0 ∧ k.tsbp = 0 ∧ k.rep = none)) ∧
    (∀ j, j < 4 → j ≠ c.val → (s.dev.coreC j).hand ≠ none → (s.dev.coreC j).handed = false →
      (s.dev.coreC j).halted = false → s.yields (.coreHandover c) (fun d =>
        (d.coreC c).handed = true ∧ (d.coreC c).hand = some (entry, stack) ∧ (d.coreC c).pc = x.pc ∧
        (d.coreC j).hand = (s.dev.coreC j).hand)) ∧
    s.yields (.coreHandover c) (fun d => d.intc.act = s.dev.intc.act ∧ d.que = s.dev.que ∧ d.lock = s.dev.lock ∧
      d.link.errands = s.dev.link.errands)

/-- R432: an instruction whose guard fails writes nothing but the pc and ICOUNT, whatever instruction it is. -/
def Obligations.FailedGuardsDoNothing : Prop :=
  ∀ (s : State) (i : Instr) (c : Fin 4) (g : BitVec 4), guardOf i = some (c, g) → s.dev.executing c = true → g ≠ 8 →
    (s.dev.coreC c).guardOk g = false → exec i s = .next (s.coreTo c (s.dev.coreC c).stepped)

/-! ### The queue, reset, register accesses -/

/-- A step takes the command at the front of the queue and runs it with the rest; no command stops the machine or
touches the queue; on an empty queue the machine idles (log 1). -/
def Obligations.StepRunsTheFrontCommand : Prop :=
  (∀ (c : Instr) (d : Device) (q : List Instr), step { dev := d, pending := c :: q } = exec c { dev := d, pending := q }) ∧
  (∀ (c : Instr) (s : State), s.yields c (fun _ => True)) ∧
  (∀ d : Device, step { dev := d, pending := [] } = .next { dev := d.tick, pending := [] })

/-- R169, R170, R178, R303, R600, R618: the end of a cold reset: TBASE_NOW 0, RUN at code 30, C1 to C3 held, supervisor mode and
the trusted domain, queues enabled and empty, every buffer free, slots OFF, channels disabled, no source pending, no swap armed.
That the reset is the one of power-up, with cause POR, is the model's choice (log 5), and so is flash that nothing has written,
which reads 0xFF (log 6). -/
def Obligations.ResetState : Prop :=
  let d := State.reset.dev
  State.reset.pending = [] ∧ d.time.now = 0 ∧ d.pwr.mode = .run ∧ d.pwr.vcode = 30 ∧ d.rst.cause = 1 ∧
  d.rst.hold = 0xE ∧ (d.coreC 1).st = .held ∧ (d.coreC 2).st = .held ∧ (d.coreC 3).st = .held ∧
  (∀ c, (d.coreC c).status = 3 ∧ (d.coreC c).rpc = 0 ∧ ∀ r, (d.coreC c).reg r = 0) ∧
  (∀ q, (d.queC q).words = []) ∧ (d.queC 31).en = true ∧ d.shed.free = List.range 1024 ∧ d.shed.lowMark = 1024 ∧
  (∀ n, (d.slotC n).st = .off) ∧ (∀ n, (d.pwmC n).en = false) ∧ d.intc.pend = 0 ∧ d.swap.st = .idle ∧
  d.mem.merge = [] ∧ d.evr.lock = 0 ∧ (∀ a, a < 0x00400000 → d.rdByte a = 0xFF)

/-- R14, R22, R24, R543, R710: a register write is answered by the first of these checks that fails: a block, the
domains, alignment; then it waits, with a tag, for a unit in reset; then it is staged in the shadow copy of a register of the sets,
while a write to an active view or to the configuration of a locked route is a lock violation. R429, R452: a core's request
waits, with the mode and the domain of its instruction, while an earlier one of the core has not completed. R131: at the cap of
its tags an initiator's request waits and is counted. -/
def Obligations.RegisterWritesAreChecked : Prop :=
  ∀ (s : State) (who : Who) (addr v : Word), s.dev.regsUp = true → s.dev.levelBars who true addr.toNat = false →
    let a := addr.toNat
    let c : Instr := .registerWrite who addr v
    let nx := fun (r : Resp) (f : Device → Device) =>
      (.next (s.on (fun d => (f d).writeDone who r)) : Host.Outcome State Fault Refusal)
    let i := whoIdx who
    let held := fun (tag : Bool) (d : Device) =>
      { d with waits := d.waits ++ [{ who := who, addr := a, put := some v, tag := tag, req := s.dev.reqOf who }] }
    (s.dev.ordered i = true → exec c s = .next (s.on (held false))) ∧
    (s.dev.ordered i = false → s.dev.noTag i = true → exec c s = .next (s.on (fun d => held false (d.countWait i)))) ∧
    (s.dev.tagFreeFor who = true → blocks.elem (blkOf a) = false → exec c s = nx .busError id) ∧
    (s.dev.tagFreeFor who = true → blocks.elem (blkOf a) = true →
      (∀ sub, s.dev.regDom who a true v = some sub →
        exec c s = nx .domain (fun d => d.domViolation who a sub true)) ∧
      (s.dev.regDom who a true v = none → a % 4 ≠ 0 → exec c s = nx .busError id) ∧
      (s.dev.regDom who a true v = none → a % 4 = 0 → s.dev.blockBusy (blkOf a) = true →
        exec c s = .next (s.on (held true))) ∧
      (s.dev.regDom who a true v = none → a % 4 = 0 → s.dev.blockBusy (blkOf a) = false →
        (∀ w, setWord a v = some w → s.dev.ofLockedRoute a = false →
          exec c s = nx .ok (fun d => d.setShadow a w)) ∧
        (isSet a = true → s.dev.ofLockedRoute a = true → exec c s = nx .ok (fun d => d.lockViolation who a 3)) ∧
        (∀ x, a = x + 0x8000 → isSet x = true → s.dev.ofLockedRoute x = false →
          exec c s = nx .ok (fun d => d.lockViolation who a 2))))

/-! ### The cadence domain -/

/-- R68, R72, R75, R78: RESTORE; the read of TBASE_NOW_LO captures the upper word for its initiator; a write of
TBASE_CMP_LO is held until TBASE_CMP_HI makes the value take effect; arming a value that has passed sets LATE in that tick (log
64). R79: in the tick of a match of the compare a write of the control word or of the value is applied before the match, which is
decided on what has been written. R65, R66, R69, R76, R77: a failed crystal leaves the device on the stable oscillator with
FALLBACK, source 192 and the ports down; a match sets MATCH, toggles the pin and re-arms by the period or disarms. TBASE_NOW
moves to the tick of a command (log 3), and what falls before it with no command comes first. -/
def Obligations.CadenceOfTheDevice : Prop :=
  (∀ (s : State) (who : Who) (k : Fin 6) (v : Word) (c0 : Cmp), s.dev.reaches who bTBASE = true →
      let t := s.dev.time
      let quiet : Prop := ∀ x ∈ s.dev.here.hits, x.1 ≠ k.val
      let anew := { c0 with held := (s.dev.cmpC k).held, val := v ++ (s.dev.cmpC k).held }
      let c := s.dev.cmpC k
      let hi := { c with val := v ++ c.held }
      let kept := c.ctl &&& 0x300 &&& ~~~ (v &&& ~~~ (s.dev.hwBits (aCmpctl k)))
      let c1 := { c with ctl := kept ||| (v &&& 3), late := if wb v 0 then c.late else none }
      let arms := wb v 0 && !wb c.ctl 0
      let nx := fun (c : Cmp) => s.wrote who (fun d => d.setCmp k c)
      let late := fun (i : Instr) (x : Cmp) => s.yields i (fun d => d.cmpC k = x ∧
        (∀ j, j ≠ k.val → d.cmpC j = s.dev.cmpC j) ∧
        d = { s.dev with time := { t with cmp := d.time.cmp }, resp := d.resp, same := d.same })
      let asked := fun (t' : Time) => s.yields (.restore who) (fun d => d.time = t' ∧ (∀ a, d.lv a = s.dev.lv a) ∧
        d = { s.dev with time := t', rw := d.rw, resp := d.resp, same := d.same })
      (t.qual = true → asked { t with src := false, pllLock := t.pllLock && !t.src }) ∧
      (t.qual = false → asked { t with stat := t.stat ||| 0x200 }) ∧
      exec (.tbaseNowLoRead who) s = s.gave who (t.now.setWidth 32) (fun d => d.capture pairNow (whoIdx who) t.now) ∧
      exec (.tbaseCmpLoRead who k) s =
        s.gave who (c.val.setWidth 32) (fun d => d.capture (pairCmp k) (whoIdx who) c.val) ∧
      exec (.tbaseCmpLoWrite who k v) s = nx { c with held := v } ∧
      (quiet →
        (wb c.ctl 0 = false → exec (.tbaseCmpHiWrite who k v) s = nx hi) ∧
        (wb c.ctl 0 = true → s.dev.nowN < hi.val.toNat → exec (.tbaseCmpHiWrite who k v) s = nx { hi with late := none }) ∧
        (wb c.ctl 0 = true → hi.val.toNat ≤ s.dev.nowN →
          late (.tbaseCmpHiWrite who k v) { hi with late := some (s.dev.nowN + 1), ctl := c.ctl ||| 0x200 }) ∧
        (arms = false → exec (.tbaseCmpctlWrite who k v) s = nx c1) ∧
        (arms = true → s.dev.nowN < c.val.toNat → exec (.tbaseCmpctlWrite who k v) s = nx { c1 with late := none }) ∧
        (arms = true → c.val.toNat ≤ s.dev.nowN →
          late (.tbaseCmpctlWrite who k v) { c1 with late := some (s.dev.nowN + 1), ctl := c1.ctl ||| 0x200 })) ∧
      (s.dev.here.hits = [(k.val, c0)] → wb c0.ctl 0 = true →
        (s.dev.nowN < anew.val.toNat → s.yields (.tbaseCmpHiWrite who k v) (fun d =>
          d.cmpC k = { anew with late := none } ∧ d.here.hits = [])) ∧
        (wb v 0 = false → s.yields (.tbaseCmpctlWrite who k v) (fun d =>
          wb (d.cmpC k).ctl 0 = false ∧ (d.cmpC k).out = c0.out ∧ (d.cmpC k).val = c0.val ∧ d.here.hits = [])) ∧
        (wb v 0 = true → c0.late = none → c0.val.toNat = s.dev.nowN → s.yields (.tbaseCmpctlWrite who k v) (fun d =>
          (d.cmpC k).out = !c0.out ∧ wb (d.cmpC k).ctl 8 = true)))) ∧
  (∀ (s : State) (k : Fin 6),
      let t := s.dev.time
      let c := s.dev.cmpC k
      let b := s.dev.passTo c.val.toNat
      let x := b.cmpC k
      let per := (b.lv (bTBASE + 0x108 + 0x10 * k)).toNat
      exec .pllRelock s = .next (s.on (fun d => { d with time := { t with pllLock := true } })) ∧
      (s.dev.rst.phase ≠ .unpowered → s.dev.rst.phase ≠ .coldHold →
        exec .crystalQualified s = .next (s.on (fun d => { d with time := { t with qual := true } }))) ∧
      (s.dev.rst.phase = .unpowered ∨ s.dev.rst.phase = .coldHold → exec .crystalQualified s = .next s) ∧
      (t.src = true → exec .crystalFailure s = .next (s.on (fun d => { d with time := { t with qual := false } }))) ∧
      (t.src = false → s.dev.here.restore = none → s.yields .crystalFailure (fun d =>
        d.time = { t with qual := false, src := true, pllLock := false, stat := t.stat ||| 0x100, fbcnt := satInc 16 t.fbcnt } ∧
        d.intc.pend.getLsbD 192 = true ∧ d.link.la.up = false ∧ d.link.lb.up = false)) ∧
      (wb c.ctl 0 = false → exec (.compareMatch k) s = .next s) ∧
      (wb c.ctl 0 = true → c.late = none → s.dev.nowN ≤ c.val.toNat → b.nowN = c.val.toNat →
        wb x.ctl 0 = true → x.late = none → x.val = c.val → s.yields (.compareMatch k) (fun d =>
          d.time.now = b.time.now ∧ (d.cmpC k).out = !x.out ∧ wb (d.cmpC k).ctl 8 = true ∧ (d.cmpC k).late = none ∧
          (wb x.ctl 1 = true → per ≠ 0 →
            (d.cmpC k).val = BitVec.ofNat 64 (x.val.toNat + per) ∧ wb (d.cmpC k).ctl 0 = true) ∧
          (wb x.ctl 1 = false ∨ per = 0 → (d.cmpC k).val = x.val ∧ wb (d.cmpC k).ctl 0 = false)))) ∧
  (∀ (d : Device) (t : Nat), d.link.ends = [] → t < 2 ^ 64 → (d.passTo t).nowN = max d.nowN t)

/-! ### The real-time clock -/

/-- R87, R88, R94: from every value but the last the calendar moves on by one second, through months, leap years (2100 is
none) and years; the last value stays; RTC_SET accepts the BCD form of every valid value and of no other. -/
def Obligations.CalendarCountsSeconds : Prop :=
  ∀ (c : Cal) (t e : Word),
    (c.valid → c.isLast = false → c.tick.valid ∧ c.tick.secs = c.secs + 1) ∧
    (c.isLast = true → c.tick = c) ∧
    (c.valid → stagedCal c.timeWord c.dateWord = some c) ∧
    (stagedCal t e = some c → c.valid)

/-- R86, R90 to R97: a command waits for its edge, the second after its write, and is refused while one waits; SNAP copies calendar
and ticks, SET_CAL takes a valid staged value and clears the prescaler, ADD_HOUR and SUB_HOUR move the calendar and toggle DST;
outside their conditions they set REFUSED and change nothing else; where the second lies among the edges up to it, RTC_SECOND
comes first. The edges of the 32.768 kHz clock that have come by a write, or by a change of mode, are a free value: fewer than
lie before the next second, the tick alarm and the edge of a command that waits (log 65). R83, R84, R88, R99, R100, R103, R105: a
second moves the ticks to the next multiple of 32,768 and, in calendar mode, the calendar, with source 170 and, when the alarm
matches, 169; below 1.9 V VBLO is set; RTC_TICKS reaches its alarm; the backup domain changes its supply and loses its
sentinel. -/
def Obligations.CalendarAndRtc : Prop :=
  (∀ (s : State) (who : Who) (tm : Bool),
      let r := s.dev.rtc
      let t := s.dev.lv (bRTC + 0x20)
      let staged := stagedCal t (s.dev.lv (bRTC + 0x24))
      let tick := s.dev.tickMode
      let busy := fun (i : Instr) => exec i s = s.wrote who (fun d =>
        ({ d with rtc := { r with refused := true } }).hwFlag (bRTC + 4) 0x10)
      let second := if tick then
        if r.ticks.toNat % 0x8000 = 0 ∧ r.ticks ≠ r.secTicks then 0 else 0x8000 - r.ticks.toNat % 0x8000
        else 0x8000 - r.presc.toNat
      let alarm := tick && s.dev.almEn && decide (r.ticks.toNat < s.dev.almTicks.toNat)
      let n := s.dev.rtcRoom (Config.rtcEdges s.dev.free)
      let passed := fun (m : Nat) => { r with
        ticks := r.ticks + BitVec.ofNat 48 m
        presc := if tick then r.presc else r.presc + BitVec.ofNat 15 m
        cmdEdges := if r.cmd.isSome then r.cmdEdges + m else r.cmdEdges }
      let asks := fun (i : Instr) (code : Nat) =>
        exec i s = s.wrote who (fun d => { d.fresh with rtc := { (passed n) with cmd := some code, cmdEdges := 0 } })
      let ctl := setB (s.dev.lv bRTC) 0 tm &&& 3
      let e := { passed (2 - r.cmdEdges) with cmd := none }
      let done := fun (x : Rtc) => s.yields .rtcCommandApply (fun d => d.rtc = x ∧
        d = { s.dev with rtc := d.rtc, intc := { s.dev.intc with pend := d.intc.pend }, evr := d.evr, same := d.same })
      (n ≤ second - 1 ∧ (r.cmd ≠ none → n ≤ 2 - r.cmdEdges - 1) ∧ (alarm = true → r.ticks.toNat + n < s.dev.almTicks.toNat)) ∧
      (s.dev.reaches who bRTC = true →
        (r.cmd = none → asks (.snap who) 1 ∧ asks (.setCal who) 2 ∧ asks (.addHour who) 3 ∧ asks (.subHour who) 4) ∧
        (r.cmd ≠ none → busy (.snap who) ∧ busy (.setCal who) ∧ busy (.addHour who) ∧ busy (.subHour who)) ∧
        (s.dev.lv bRTC = ctl → exec (.rtcModeChange who tm) s = s.wrote who (fun d => d.setLv bRTC ctl)) ∧
        (tick ≠ tm → exec (.rtcModeChange who tm) s = s.wrote who (fun d => { (d.fresh).setLv bRTC ctl with
          rtc := { passed n with
            calstale := r.calstale || !tm, secTicks := if tm then (passed n).ticks else r.secTicks } }))) ∧
      (r.cmd = none ∨ second ≤ 2 - r.cmdEdges → exec .rtcCommandApply s = .next s) ∧
      (2 - r.cmdEdges < second →
        (r.cmd = some 1 → done { e with snapTime := r.cal.timeWord, snapDate := r.cal.dateWord, snapTicks := e.ticks }) ∧
        (r.cmd = some 2 → staged = none → done { e with refused := true }) ∧
        (∀ c, r.cmd = some 2 → staged = some c →
          done { e with cal := c, dst := wb t 31, presc := 0, calstale := false, range := c.isLast }) ∧
        (r.cmd = some 3 → tick = false → r.cal.valid → r.cal.addHour.valid →
          done { e with cal := r.cal.addHour, dst := !r.dst, range := r.cal.addHour.isLast }) ∧
        (r.cmd = some 4 → tick = false → r.cal.valid → r.cal.subHour.valid →
          done { e with cal := r.cal.subHour, dst := !r.dst, range := r.cal.subHour.isLast }) ∧
        (r.cmd = some 3 ∨ r.cmd = some 4 → tick = true → done { e with refused := true }) ∧
        (r.cmd = some 3 → 2199 < r.cal.addHour.year → done { e with refused := true }) ∧
        (r.cmd = some 4 → r.cal.subHour.year < 2000 → done { e with refused := true }))) ∧
  (∀ (s : State) (vbat : Nat) (toBat : Bool),
      let r := s.dev.rtc
      let alm := s.dev.almEn && s.dev.almHit r.cal.tick
      let irq := fun (n : Nat) (b : Bool) => if b then BitVec.twoPow 193 n else 0
      let second := fun (r' : Rtc) (a : Bool) => s.yields (.rtcSecond vbat) (fun d =>
        d.rtc = r' ∧ d.intc.pend = (s.dev.intc.pend ||| irq 170 true) ||| irq 169 a ∧
        d = { s.dev with rtc := d.rtc, intc := { s.dev.intc with pend := d.intc.pend }, evr := d.evr, same := d.same })
      let m := 0x8000 - r.presc.toNat
      let m' := if r.ticks.toNat % 0x8000 = 0 ∧ r.ticks ≠ r.secTicks then 0 else 0x8000 - r.ticks.toNat % 0x8000
      let edges := fun (m : Nat) => if r.cmd.isSome then r.cmdEdges + m else r.cmdEdges
      let t := r.ticks + BitVec.ofNat 48 m
      let u := r.ticks + BitVec.ofNat 48 m'
      let toAlm := s.dev.almTicks.toNat - r.ticks.toNat
      (s.dev.powered = true → 1900 ≤ vbat → s.dev.tickMode = false → r.cal.isLast = false →
        r.cmd = none ∨ m ≤ 2 - r.cmdEdges →
        second { r with
          ticks := t, secTicks := t, presc := 0, cal := r.cal.tick, cmdEdges := edges m,
          range := r.range || r.cal.tick.isLast } alm) ∧
      (s.dev.powered = true → 1900 ≤ vbat → s.dev.tickMode = true → r.cmd = none ∨ m' ≤ 2 - r.cmdEdges →
        second { r with ticks := u, secTicks := u, cmdEdges := edges m' }
          (s.dev.almEn && decide (r.ticks.toNat < s.dev.almTicks.toNat) && decide (s.dev.almTicks.toNat < u.toNat))) ∧
      (r.cmd ≠ none → 2 - r.cmdEdges < (if s.dev.tickMode then m' else m) →
        exec (.rtcSecond vbat) s = exec (.rtcSecond vbat) (s.on Device.rtcApply)) ∧
      (vbat < 1900 → s.yields (.rtcSecond vbat) (fun d => d.rtc.vblo = true)) ∧
      (s.dev.powered = true → s.dev.tickMode = true → s.dev.almEn = true → r.cmd = none →
        r.ticks.toNat ≤ s.dev.almTicks.toNat → toAlm ≤ m' → s.yields .rtcTickAlarm (fun d =>
          d.rtc = { r with ticks := s.dev.almTicks } ∧ d.intc.pend = s.dev.intc.pend ||| irq 169 true)) ∧
      (r.cmd = none → s.dev.tickMode = false ∨ s.dev.almEn = false ∨ s.dev.almTicks.toNat < r.ticks.toNat ∨ m' < toAlm →
        exec .rtcTickAlarm s = .next s) ∧
      exec (.backupSupplySwitch toBat) s = .next (s.on (fun d => { d with rtc := { r with onBat := toBat } })) ∧
      exec .backupDomainLoss s = .next (s.on (fun d => { d with rtc := { r with sentinel := 0 } })))

/-! ### Power -/

/-- R124: a write of PWR_PACE_TGT stores the written value or the floor, and is no lock violation. R139, R140, R345: SLEEP and
OFF are stored as requests and change no mode; PARK is entered from RUN at once, with the outputs in the trip state once no
evaluation runs; RUN ends PARK unless a ramp or the loop engine's self-test runs, and is then stored until PARK_EXIT. In
SLEEP a write of REQ by another initiator changes REQ and leaves the state (log 81). R158:
after a PARK request of R129 in the same tick each of them leaves REQ = PARK, and does nothing else to a device that entered
PARK by it. -/
def Obligations.PowerCommands : Prop :=
  ∀ (s : State) (who : Who) (v : Word),
    let p := s.dev.pwr
    let nx := fun (x : Pwr) => s.wrote who (fun d => { d with pwr := x })
    let leaves : Prop := p.mode = .park ∧ p.ramp = false ∧ s.dev.le.bistBusy = false
    (s.dev.reaches who bPWR = true →
      s.yields (.paceTgtWrite who v) (fun d =>
        d.lv aPaceTgt = wd (max (wf v 15 0) s.dev.paceFloor) ∧ (∀ a, a ≠ aPaceTgt → d.lv a = s.dev.lv a) ∧
        d = { s.dev with rw := d.rw, resp := d.resp, same := d.same }) ∧
      (s.dev.here.park = none →
        exec (.reqSleep who) s = nx { p with req := 2, asks := none } ∧
        exec (.reqOff who) s = nx { p with req := 3, asks := none } ∧
        (p.mode = .run → s.dev.lanesBusy = [] → s.yields (.reqPark who) (fun d =>
          d.pwr = { p with req := 1, mode := .park, asks := none } ∧ ∀ n, n < 32 → (d.pwmC n).running = false)) ∧
        (p.mode = .run → s.dev.lanesBusy ≠ [] →
          exec (.reqPark who) s = nx { p with req := 1, mode := .park, parkWait := true, asks := none }) ∧
        (p.mode ≠ .run → exec (.reqPark who) s = nx { p with req := 1, asks := none }) ∧
        (leaves → s.yields (.reqRun who) (fun d =>
          d.pwr = { p with req := 0, mode := .run, parkWait := false, asks := none })) ∧
        (¬ leaves → exec (.reqRun who) s = nx { p with req := 0, asks := none })) ∧
      (∀ cmd ∈ [Instr.reqRun who, .reqPark who, .reqSleep who, .reqOff who],
        (s.dev.here.park = some true → exec cmd s = nx { p with req := 1, asks := none }) ∧
        (s.dev.here.park = some false → s.yields cmd (fun d => d.pwr.req = 1 ∧ d.pwr.mode ≠ .run)))) ∧
    (p.req = 0 → leaves → s.yields .parkExit (fun d => d.pwr = { p with mode := .run, parkWait := false })) ∧
    (p.req ≠ 0 ∨ ¬ leaves → exec .parkExit s = .next s)

/-- R140 to R145: a sleep request enters SLEEP with the wake code stored and VCORE at code 0, or OFF, or goes on when a wake
source fires in its tick; an enabled wake source ends SLEEP in PARK with every core released, and ends OFF through a warm
reset with OFF_WAKE. -/
def Obligations.SleepAndWake : Prop :=
  ∀ (s : State) (c : Fin 4) (fired : Word) (src : Fin 32),
    let p := s.dev.pwr
    let en := s.dev.lv (bPWR + 0xC)
    (s.dev.sleepAsks c = true → p.req = 2 → fired &&& en &&& sleepWakes = 0 →
      s.yields (.sleepRequest c fired) (fun d => d.pwr.mode = .sleep ∧ d.pwr.wake = p.vcode ∧ d.pwr.vcode = 0)) ∧
    (s.dev.sleepAsks c = true → p.req = 3 → fired &&& en &&& offWakes = 0 →
      s.yields (.sleepRequest c fired) (fun d => d.rst.phase = .off ∧ d.rst.rstout = s.dev.rst.rstout ∧ d.rst.claim = 0)) ∧
    (s.dev.sleepAsks c = true → p.req = 2 → fired &&& en &&& sleepWakes ≠ 0 →
      s.yields (.sleepRequest c fired) (fun d =>
        d.pwr = { p with wokeEarly := true, wakeSrc := p.wakeSrc ||| (fired &&& en &&& sleepWakes), asks := none } ∧
        d.coreC c = { s.dev.coreC c with st := .running } ∧
        d = { s.dev with pwr := d.pwr, core := d.core, owl := d.owl, same := d.same })) ∧
    (s.dev.resetsTaken = true → p.mode = .sleep → p.asks = none → wb (en &&& sleepWakes) src = true →
      (src.val < 8 ∨ 16 ≤ src.val ∨ s.dev.here.gpEdge.getLsbD (src.val - 8) = true) →
      s.yields (.wakeFromSleep src) (fun d =>
        d.pwr = { p with wakeSrc := setB p.wakeSrc src true, mode := .park, req := 1, ramp := decide (0 < p.wake) } ∧
        ∀ k, k < 4 → (s.dev.coreC k).st = .asleep → (d.coreC k).st = .running)) ∧
    (s.dev.rst.phase = .off → wb en 0 = true → s.yields (.wakeFromOff .rtc) (fun d =>
      d.rst.phase = .warm ∧ wb d.rst.cause 15 = true ∧ d.pwr.wakeSrc = 1 ∧ d.pwr.vcode = 30)) ∧
    (s.dev.rst.phase = .off → wb (s.dev.lv bLINK) 0 = true → s.yields (.wakeFromOff .link) (fun d =>
      d.rst.phase = .warm ∧ wb d.rst.cause 15 = true ∧ wb d.rst.cause 11 = true))

/-- R116, R121, R127, R128, R144, R146 to R149: a Kestrel window loads its counts; one that ends in the tick that ended SLEEP
leaves the set point; N windows in a row off the target by more than the deadband move VCORE by one code; four windows in a row below the floor start an episode; operating hours, the AGING
record that falls due, and a due record as it is written to the newer page. -/
def Obligations.PaceAndLedger : Prop :=
  ∀ (s : State) (count refc : BitVec 16) (temp : BitVec 8) (pace : Nat) (rest : List LedgerDue),
    let w : Instr := .kestrelWindowEnd count refc temp
    let at' := s.dev.passTo s.dev.nextWindow
    let p := at'.pwr
    let q := s.dev.pwr
    let ctl := at'.lv aPwrCtl
    let err : Int := (at'.paceTarget : Int) - count.toNat
    let one := s.dev.newerIs1
    let put := fun (k x : Nat) => exec .ledgerWrite s = .next (s.on (fun d =>
      (Device.setPage { d with pwr := { q with due := rest } } one
        (d.getPage one ++ (d.mkRec k x d.nextSeq).words)).flashGo))
    (s.dev.powered = true → s.yields w (fun d =>
      d.pwr.paceNow = count.toNat ∧ d.pwr.paceRef = refc.toNat ∧ d.pwr.temp = temp ∧
      d.pwr.under = decide (count.toNat < s.dev.floorCmp))) ∧
    (s.dev.powered = true → at'.here.woke = true → s.yields w (fun d => d.pwr.vcode = p.vcode ∧ d.pwr.ramp = p.ramp)) ∧
    (s.dev.powered = true → at'.here.woke = false → p.ramp = false → p.mode ≠ .sleep → s.dev.floorCmp ≤ count.toNat →
      ((wf ctl 14 6 : Int) < err → gainN ctl ≤ p.hiRun + 1 → p.vcode < 60 →
        s.yields w (fun d => d.pwr.vcode = p.vcode + 1 ∧ d.pwr.hiRun = 0)) ∧
      (err < -(wf ctl 14 6 : Int) → gainN ctl ≤ p.loRun + 1 → 0 < p.vcode →
        s.yields w (fun d => d.pwr.vcode = p.vcode - 1 ∧ d.pwr.loRun = 0)) ∧
      (-(wf ctl 14 6 : Int) ≤ err → err ≤ (wf ctl 14 6 : Int) → s.yields w (fun d => d.pwr.vcode = p.vcode))) ∧
    (s.dev.resetsTaken = true → at'.here.woke = false → p.ramp = false → p.mode ≠ .sleep → p.episode = false →
      3 ≤ p.underRun →
      count.toNat < s.dev.floorCmp → wf ctl 1 0 = 0 →
      s.yields w (fun d => d.pwr.episode = true ∧ d.pwr.below = true ∧ d.intc.pend.getLsbD 172 = true)) ∧
    (s.dev.powered = true → q.mode ≠ .sleep → s.yields .operatingHour (fun d =>
      d.pwr.opHours = (q.opHours + 1) % 0x1000000 ∧ d.pwr.lowHour = false ∧
      d.pwr.avgOn = (q.avgOn || decide ((q.opHours + 1) % 0x1000000 % 1000 = 0)) ∧ d = { s.dev with pwr := d.pwr })) ∧
    (q.avgOn = true → q.avgCnt = 256 → s.yields .agingRecord (fun d => d.pwr.avgOn = false ∧
      ∃ r, d.pwr.due = q.due ++ [.aging r] ∧ q.avgSum ≤ 256 * r + 255 ∧ 256 * r < q.avgSum + 256)) ∧
    (s.dev.flashRuns = false → (s.dev.getPage one).length / 4 < 512 →
      (q.due = .aging pace :: rest → put 1 pace) ∧ (q.due = .timeLost :: rest → put 2 0) ∧
      (q.due = .paceLow pace :: rest → put 3 pace))

/-! ### Resets -/

/-- R134, R161 to R173, R222, R233, R872: power-up, brown-out and a core supply fault start a cold reset with their cause and
those of the requests of the same period (a period is eight ticks, log 86), and in OFF, where VCORE is off, a core supply fault has
no effect (log 73); fuse load; the release with TBASE_NOW 0; RST_n starts a warm reset; the end of a warm reset; RSTOUT_n; VDDA. -/
def Obligations.SupplyAndDeviceResets : Prop :=
  ∀ (s : State),
    let r := s.dev.rst
    let near := s.dev.perBits.getD 0
    let b := s.dev.passTo r.rstoutAt
    let cold := fun (c : Instr) (cause : Word) => s.yields c (fun d =>
      d.rst.phase = .coldHold ∧ d.rst.cause = cause ∧ d.rst.rstout = false ∧
      ∀ a, 0x00400000 ≤ a → d.rdByte a = 0)
    cold .powerUp 1 ∧
    (r.phase = .run → cold .brownOut (2 ||| near) ∧ cold .vcoreLow (4 ||| near) ∧ cold .vcoreHigh (4 ||| near)) ∧
    (r.phase = .off → exec .vcoreLow s = .next s ∧ exec .vcoreHigh s = .next s) ∧
    exec .brownOutRelease s = .next (s.on (fun d => { d with pwr := { d.pwr with vdd33ok := true } })) ∧
    (r.phase = .coldHold → s.dev.pwr.vdd33ok = true → s.yields .fuseLoad (fun d =>
      d.rst.phase = .fuseLoaded ∧ d.pwr.vcode = 30 ∧ d.pwr.vcoreok = true ∧
      ∀ w, w < 128 → d.fuseW w = if s.dev.fuseEcc w = .bad then 0 else s.dev.fuse.arr.get fuse0 w)) ∧
    (r.phase = .fuseLoaded → r.rstLow = false → s.dev.time.qual = true → s.yields .coldResetRelease (fun d =>
      d.rst.phase = .run ∧ d.time.now = 0 ∧ d.time.src = false ∧ d.rst.rstoutAt = 2000)) ∧
    (r.phase = .run → s.yields .rstPinLow (fun d =>
      d.rst.phase = .warm ∧ d.rst.rstLow = true ∧ wb d.rst.cause 8 = true ∧ d.rst.rstout = false ∧ d.rst.claim = 0)) ∧
    s.yields .rstPinHigh (fun d => d.rst.rstLow = false ∧ d.rst.phase = r.phase) ∧
    (r.phase = .warm → s.dev.pwr.ramp = false → r.rstLow = false → s.dev.flash.cmd = none → s.dev.fuse.prog = none →
      s.yields .warmResetEnd (fun d => d.rst.phase = .run ∧ d.rst.rstoutAt = d.nowN + 2000)) ∧
    (r.phase = .run → b.rst.phase = .run → b.rst.rstoutAt = r.rstoutAt → s.yields .rstoutRelease (fun d =>
      d = { b with rst := { b.rst with rstout := true } })) ∧
    s.yields .vddaLow (fun d => d.pwr.vddalo = true ∧ ∀ n, n < 32 → (d.snsC n).cal = none ∧
      ((s.dev.snsC n).cal ≠ none → wf (d.snsC n).stat 18 16 = 3)) ∧
    (s.dev.pwr.vddaForce = false → s.dev.pwr.vddalo = true →
      s.yields .vddaRecover (fun d => d.pwr.vddalo = false)) ∧
    s.yields .vddaForceTrip (fun d => d.pwr.vddaForce = true ∧
      ∀ n, n < 32 → wb (s.dev.snsCmp n) 0 = true → d.cmpRaw n true = true ∧
        ((s.dev.snsC n).settle = none → wf (s.dev.snsCmp n) 11 8 ≤ 1 → (s.dev.snsC n).hAt ≤ s.dev.nowN →
          (d.snsC n).filtH = true)) ∧
    s.yields .vddaForceEnd (fun d => d.pwr = { s.dev.pwr with vddaForce := false } ∧
      ∀ n, n < 32 → d.cmpRaw n true = (s.dev.snsC n).rawH ∧ d.cmpRaw n false = (s.dev.snsC n).rawL)

/-- R166 to R168, R177 to R185, R191: the reset key starts a warm reset; a core reset stops its core; HOLD = 0 starts
a held core at RST_ENTRY; a unit reset holds its unit; Owl is enabled once, refreshed in its window, and anything else
resets; CLAIM gives a pin to its configured state. R178, R181, R184, R186: the end of a core reset, held or started at
RST_ENTRY with its registers reset, in SLEEP not before its end (log 84); the end of a unit reset, with which a request
that waits for the unit completes; Owl's early warning and its timeout, with a unit of 2,048 ticks (log 21). g31 of C0 is the one
of the boot header (log 85). Where TBASE_NOW moves to the tick of a command, what falls before that tick comes first. -/
def Obligations.ResetsOfUnitsAndDevice : Prop :=
  (∀ (s : State) (who : Who) (v : Word) (m : BitVec 4) (p : Fin 96), s.dev.reaches who bRST = true →
      let r := s.dev.rst
      let o := s.dev.owl
      let warm := fun (c : Instr) (bit : Nat) => s.yields c (fun d => d.rst.phase = .warm ∧ wb d.rst.cause bit = true)
      (v = 0x5A17 → warm (.softwareReset who v) 12) ∧
      (v ≠ 0x5A17 → exec (.softwareReset who v) s = s.wrote who id) ∧
      s.yields (.coreReset who m) (fun d => ∀ c, c < 4 → m.getLsbD c = true →
        (d.coreC c).st = .inReset ∧ ((s.dev.coreC c).st ≠ .inReset → wb d.rst.cause (16 + c) = true)) ∧
      s.yields (.coreHold who m) (fun d => d.rst.hold = m ∧ ∀ c, c < 4 → (s.dev.coreC c).st = .held →
        m.getLsbD c = false → s.dev.pwr.mode ≠ .sleep → (d.coreC c).st = .running ∧ (d.coreC c).pc = s.dev.lv (aEntry c)) ∧
      s.yields (.unitReset who v) (fun d => ∀ u, u < 11 → v.getLsbD u = true → d.rst.unitBusy.getLsbD u = true) ∧
      (s.dev.spent.get (fun _ => false) aOwlCtl = false → s.yields (.owlEnable who v) (fun d =>
        d.lv aOwlCtl = v &&& 1 ∧ d.spent.get (fun _ => false) aOwlCtl = true ∧ (wb v 0 = true → d.owl.ticks = 0))) ∧
      (s.dev.spent.get (fun _ => false) aOwlCtl = true →
        exec (.owlEnable who v) s = s.wrote who (fun d => d.lockViolation who aOwlCtl 0)) ∧
      (s.dev.owlEn = true →
        exec (.owlKickOpen who) s = s.wrote who (fun d => { d with owl := { o with isOpen := true } }) ∧
        (o.isOpen = true → wf (s.dev.lv aOwlWin) 15 0 ≤ s.dev.owlCount → s.yields (.owlKickComplete who) (fun d =>
          d.owl.ticks = 0 ∧ d.owl.since = s.dev.nowN ∧ d.owl.isOpen = false ∧ d.rst = r)) ∧
        (o.isOpen = false ∨ s.dev.owlCount < wf (s.dev.lv aOwlWin) 15 0 → warm (.owlKickComplete who) 10) ∧
        (v ≠ 0x3C96 → v ≠ 0xC369 → warm (.owlKickWrong who v) 10)) ∧
      (isPin p = true → exec (.pinClaim who p v) s = s.wrote who (fun d => { d.setLv (aPinCfg p) (v &&& 0x7F7) with
        rst := { r with claim := r.claim ||| BitVec.twoPow 96 p } }))) ∧
  (∀ (s : State) (c : Fin 4) (u : Fin 11) (w : Wait),
      let r := s.dev.rst
      let warns := s.dev.nowN + ((s.dev.owlTo - s.dev.owlEw) * 2048 - s.dev.owlTicks)
      let bw := s.dev.passTo warns
      let ends := ((s.dev.nowN + s.dev.owlTo * 2048 - s.dev.owlTicks) / 8 + 1) * 8
      let be := s.dev.passTo ends
      let free := fun (d : Device) =>
        { d with rst := { d.rst with unitBusy := d.rst.unitBusy &&& ~~~ (BitVec.twoPow 11 u) } }
      ((s.dev.coreC c).st ≠ .inReset → exec (.coreResetDone c) s = .next s) ∧
      ((s.dev.coreC c).st = .inReset → r.hold.getLsbD c = true → s.yields (.coreResetDone c) (fun d =>
        (d.coreC c).st = .held ∧ d.rst.inrst = r.inrst &&& ~~~ (BitVec.twoPow 4 c))) ∧
      ((s.dev.coreC c).st = .inReset → r.hold.getLsbD c = false → s.dev.pwr.mode ≠ .sleep → s.yields (.coreResetDone c) (fun d =>
        (d.coreC c).st = .running ∧ (d.coreC c).pc = s.dev.lv (aEntry c) ∧ (d.coreC c).status = 3 ∧
        (∀ k, (d.coreC c).reg k = if c = 0 ∧ k = 31 then r.stack else 0) ∧ d.rst.inrst = r.inrst &&& ~~~ (BitVec.twoPow 4 c))) ∧
      (r.unitBusy.getLsbD u = false → exec (.unitResetDone u) s = .next s) ∧
      (r.unitBusy.getLsbD u = true → u ≠ 7 → s.dev.waits.filter (waitsFor u) = [] → exec (.unitResetDone u) s =
        .next (s.on free)) ∧
      (r.unitBusy.getLsbD u = true → u ≠ 7 → s.dev.waits = [w] → waitsFor u w = true → exec (.unitResetDone u) s =
        .next (s.on (fun d => ({ (free d) with waits := [] }).grant w))) ∧
      (s.dev.owlCounts = true → be.owlCounts = true → be.owlPeriodEnd ≤ be.nowN → s.yields .owlTimeout (fun d =>
        d.rst.phase = .warm ∧ wb d.rst.cause 9 = true ∧ d.time.now = be.time.now)) ∧
      (s.dev.owlCounts = true → s.dev.owlEw < s.dev.owlTo → s.dev.owlCount ≤ s.dev.owlTo - s.dev.owlEw →
        bw.warnTick = some bw.nowN → s.yields .owlEarlyWarning (fun d =>
          d.intc.pend = bw.intc.pend ||| BitVec.twoPow 193 176 ∧
          d = { bw with intc := { bw.intc with pend := d.intc.pend }, same := d.same })))

/-! ### Converters and comparators -/

/-- R210, R212, R229: a sample point starts an idle converter that is enabled for its source and counts a miss on a busy
one; a calibration request starts the wait of a converter that has none. The sample point of SNS_SWTRIG is the tick of the write
(log 4). -/
def Obligations.SenseCommands : Prop :=
  ∀ (s : State) (who : Who) (v : Word) (n : Fin 32),
    let c := s.dev.snsC n
    let cfg := s.dev.snsCfg n
    (s.dev.reaches who bSNS = true → v.getLsbD n = true →
      (wb cfg 0 = true → wf cfg 2 1 = 2 → s.dev.parked = false →
        (s.dev.snsBusy n = false → s.yields (.snsSwtrig who v) (fun d =>
          ∃ r, (d.snsC n).run = some r ∧ r.start = s.dev.nowN ∧ r.avg = 2 ^ wf cfg 9 8 ∧ r.inp = wb cfg 3 ∧
            r.alt = wb cfg 4 ∧ r.ofs = (c.coef s.dev.nowN).1 ∧ r.gain = (c.coef s.dev.nowN).2 ∧ r.mainDone = false)) ∧
        (s.dev.snsBusy n = true → s.yields (.snsSwtrig who v) (fun d =>
          (d.snsC n).miss = satInc 16 c.miss ∧ (d.snsC n).run = c.run ∧ wb (d.snsC n).stat 1 = true))) ∧
      (c.cal = none → s.yields (.calRequest who v) (fun d =>
        (d.snsC n).cal = some { expire := s.dev.nowN + wf (s.dev.lv bSNS) 23 0 })) ∧
      (c.cal ≠ none → s.yields (.calRequest who v) (fun d => (d.snsC n).cal = c.cal))) ∧
    (∀ o, (s.dev.pwmC n).sampleOfs = some o → s.dev.frozen = false →
      let b := s.dev.passTo ((s.dev.pwmC n).bt + o)
      (b.pwmC n).sampleOfs = some o → (b.pwmC n).bt = (s.dev.pwmC n).bt → b.frozen = false →
      wb (b.snsCfg n) 0 = true → wf (b.snsCfg n) 2 1 = 0 → b.parked = false → (b.snsC n).run = none →
      s.yields (.samplePoint n) (fun d => ∃ r, (d.snsC n).run = some r ∧ r.start = b.nowN ∧ d.time = b.time ∧
        r.avg = 2 ^ wf (b.snsCfg n) 9 8))

/-- R895: the ideal code of a voltage. R213, R214, R219, R220, R222: the result of a sequence is formed from the mean of its
codes with the coefficients held at its start, in the format of FMT, with the VLO and SHORT marks, and sets DONE; the AUX
conversion does the same. R223 to R228, R284: an enabled comparator outside its settling time compares its input with HI or
LO and the hysteresis; its filtered output follows with FILT up to 1 in that tick, else with the last of its samples, latches
its flag and, where it is trip-enabled, makes a hard trip of its channel, which sets HARD in the next tick. -/
def Obligations.ConversionsAndComparators : Prop :=
  (∀ (v vref : Nat), 0 < vref →
      let k := idealCode v vref
      k ≤ 4095 ∧ 2 * k * vref ≤ 2 * 4096 * v + vref ∧ (k < 4095 → 2 * 4096 * v + vref < 2 * (k + 1) * vref)) ∧
  (∀ (s : State) (n : Fin 32) (r : SnsRun) (acqs : List Acq) (acq : Acq),
      (s.dev.snsC n).run = some r → ((s.dev.passTo r.endTick).snsC n).run = some r →
      ((s.dev.passTo r.auxTick).snsC n).run = some r →
      let w := snsArith (16 * (acqs.foldl (fun a c => a + acqCode r.inp c) 0) / r.avg) r.ofs r.gain
      (r.mainDone = false → acqs.length = r.avg → s.yields (.endOfConversion n acqs) (fun d =>
        (d.snsC n).res = wd (snsFmt r.fmt w) ||| boolW r.vlo 24 ||| boolW r.short 25 ∧
        (d.snsC n).handed = BitVec.ofNat 16 (w ^^^ 0x8000) ∧ (d.snsC n).handedVlo = r.vlo ∧ wb (d.snsC n).stat 0 = true)) ∧
      (r.mainDone = true → r.alt = true → r.auxDone = false → s.yields (.auxConversionEnd n acq) (fun d =>
        (d.snsC n).aux = wd (snsFmt r.fmt (snsArith (16 * acqCode true acq) r.ofs r.gain)) ∧ wb (d.snsC n).stat 4 = true))) ∧
  (∀ (s : State) (n : Fin 32) (v vref t : Nat),
      let c := s.dev.snsC n
      let k := s.dev.snsCmp n
      let x : Int := v * 4096
      let hi : Int := wf (s.dev.act (aSnsThr n)) 27 16
      let lo : Int := wf (s.dev.act (aSnsThr n)) 11 0
      let hy : Int := hystCodes k
      let trips := fun (d : Device) (low : Bool) => wb (d.snsC n).stat (if low then 3 else 2) = true ∧
        (wb k (if low then 3 else 2) = true → (d.pwmC n).hardAt ≠ none ∧
          ((s.dev.pwmC n).hardAt = none → (d.pwmC n).hardAt = some (d.nowN + 1)))
      let b := s.dev.passTo (c.hAt + (wf k 11 8 - 1))
      let e := s.dev.passTo t
      (c.settle = none → wf k 11 8 ≤ 1 → wb k 0 = true → c.hAt ≤ s.dev.nowN →
        (hi * vref < x → s.yields (.comparatorAssert n ⟨true, v, vref⟩) (fun d =>
          (d.snsC n).rawH = true ∧ (d.snsC n).filtH = true ∧ (c.filtH = false → trips d false))) ∧
        (s.dev.pwr.vddaForce = false → x < (hi - hy) * vref → s.yields (.comparatorDeassert n ⟨true, v, vref⟩) (fun d =>
          (d.snsC n).rawH = false ∧ (d.snsC n).filtH = false ∧
          (c.filtH = true ∨ c.rawH = false → wb (d.snsC n).stat 2 = wb c.stat 2)))) ∧
      (c.settle = none → wf k 11 8 ≤ 1 → wb k 1 = true → c.lAt ≤ s.dev.nowN →
        (x < lo * vref → s.yields (.comparatorAssert n ⟨false, v, vref⟩) (fun d =>
          (d.snsC n).rawL = true ∧ (d.snsC n).filtL = true ∧ (c.filtL = false → trips d true))) ∧
        (s.dev.pwr.vddaForce = false → (lo + hy) * vref < x → s.yields (.comparatorDeassert n ⟨false, v, vref⟩) (fun d =>
          (d.snsC n).rawL = false ∧ (d.snsC n).filtL = false ∧
          (c.filtL = true ∨ c.rawL = false → wb (d.snsC n).stat 3 = wb c.stat 3)))) ∧
      (c.settle = none → 1 < wf k 11 8 → wb k 0 = true → wb k 1 = false → s.dev.pwr.vddaForce = false → hi * vref < x →
        c.filtH = false →
        (c.rawH = false → s.yields (.comparatorAssert n ⟨true, v, vref⟩) (fun d =>
          (d.snsC n).rawH = true ∧ (d.snsC n).filtH = false ∧ (d.snsC n).hAt = s.dev.nowN ∧ (d.snsC n).stat = c.stat)) ∧
        (c.rawH = true → rawOutputs true c.rawL (s.dev.act (aSnsThr n)) (hystCodes k) v vref = (true, c.rawL) →
          s.dev.nowN ≤ c.hAt + (wf k 11 8 - 1) → b.snsC n = c → b.snsCmp n = k → b.pwr.vddaForce = false →
          b.nowN = c.hAt + (wf k 11 8 - 1) → (b.pwmC n).hardAt = (s.dev.pwmC n).hardAt →
          s.yields (.comparatorAssert n ⟨true, v, vref⟩) (fun d =>
            d.nowN = b.nowN ∧ (d.snsC n).filtH = true ∧ trips d false))) ∧
      (c.settle = some t → (e.snsC n).settle = some t → wf (e.snsCmp n) 11 8 ≤ 1 → wb (e.snsCmp n) 0 = true →
        wb (e.snsCmp n) 1 = true → s.yields (.comparatorSettleEnd n v vref) (fun d =>
          let r := rawOutputs (e.snsC n).rawH (e.snsC n).rawL (e.act (aSnsThr n)) (hystCodes (e.snsCmp n)) v vref
          (d.snsC n).settle = none ∧ (d.snsC n).filtH = (r.1 || e.pwr.vddaForce) ∧
          (d.snsC n).filtL = (r.2 || e.pwr.vddaForce))) ∧
      (c.settle = none → exec (.comparatorSettleEnd n v vref) s = .next s))

/-- R230 to R235: 16 steps on ground and 16 on the reference; after the last one the coefficients are taken when they are in
range, else RANGE; a wait that expires ends the request with BUSY. -/
def Obligations.Calibration : Prop :=
  ∀ (s : State) (n : Fin 32) (k : SnsCal) (t : Nat) (dev : Int),
    let c := s.dev.snsC n
    let code := realCode (if k.step < 16 then 0 else 3072) dev
    let sg := k.sumG + (if k.step < 16 then code else 0)
    let sr := k.sumR + (if k.step < 16 then 0 else code)
    let gain := calGain sg sr
    let b := s.dev.passTo (t + 50)
    let x := s.dev.passTo k.expire
    c.cal = some k → (b.snsC n).cal = some k → (x.snsC n).cal = some k →
    (k.running = none → s.dev.calFree n = true → s.dev.nowN ≤ k.expire →
      exec (.calStepStart n) s =
        .next (s.on (fun d => d.setSns n { c with cal := some { k with running := some d.nowN } }))) ∧
    (k.running = some t → k.step < 31 → s.yields (.calStepEnd n dev) (fun d =>
      ∃ k', (d.snsC n).cal = some k' ∧ k'.step = k.step + 1 ∧ k'.sumG = sg ∧ k'.sumR = sr ∧ k'.running = none ∧
        k'.expire = b.nowN + wf (b.lv bSNS) 23 0)) ∧
    (k.running = some t → k.step = 31 → sg ≤ 0x400 → 0x7000 ≤ gain → gain ≤ 0x9000 →
      s.yields (.calStepEnd n dev) (fun d => (d.snsC n).cal = none ∧ (d.snsC n).ofs = wd sg ∧ (d.snsC n).gain = wd gain ∧
        wf (d.snsC n).stat 18 16 = 1 ∧ wb (d.snsC n).stat 8 = true)) ∧
    (k.running = some t → k.step = 31 → 0x400 < sg ∨ gain < 0x7000 ∨ 0x9000 < gain →
      s.yields (.calStepEnd n dev) (fun d => (d.snsC n).cal = none ∧ (d.snsC n).ofs = (b.snsC n).ofs ∧
        (d.snsC n).gain = (b.snsC n).gain ∧
        wf (d.snsC n).stat 18 16 = 4)) ∧
    (k.running = none → x.calFree n = false ∨ k.expire < s.dev.nowN →
      s.yields (.calWaitExpiry n) (fun d => (d.snsC n).cal = none ∧ wf (d.snsC n).stat 18 16 = 2)) ∧
    (k.running = none → x.nowN = k.expire → x.calFree n = true →
      s.yields (.calWaitExpiry n) (fun d => (d.snsC n).cal = some { k with running := some k.expire }))

/-! ### Trackers -/

/-- R236: a tracker's pins change, and its filtered levels, count and flags stay until the delay of FILT + 3 ticks has
passed. R237 to R245, R252: then quadrature, Hall and step/direction counting with wrap or modulus, a double change as an
error, frozen counts without EN, the index capture and the clearing index. R242, R245, R255: a written count modulo M, with a
count and a clearing index of its tick applied after it. The exact FILT + 3 ticks are log 50's reading; a written number is
unsigned, and a count outside 0 to M - 1 moves into the range with the next one (log 55). -/
def Obligations.TrackersCount : Prop :=
  ∀ (s : State) (who : Who) (n : Fin 16) (v : Word) (la lb lz : Bool) (t : Nat),
    let c := s.dev.trkC n
    let cfg := s.dev.trkCfg n
    let m := (s.dev.act (aTrkMod n)).toNat
    let here := s.dev.trkHere n
    let p0 := if m = 0 then v else wd (v.toNat % m)
    let at' := fun (p : BitVec 3) => p.getLsbD 0 = la ∧ p.getLsbD 1 = lb ∧ p.getLsbD 2 = lz
    let up : Word := if m = 0 then c.pos + 1 else if m ≤ c.pos.toNat + 1 then 0 else c.pos + 1
    let down : Word := if m = 0 then c.pos - 1 else if c.pos.toNat = 0 ∨ m < c.pos.toNat then wd (m - 1) else c.pos - 1
    let moves := fun (q : Device → Prop) => s.yields (.trackerCount n la lb lz) (fun d =>
      (d.trkC n).a = la ∧ (d.trkC n).b = lb ∧ (d.trkC n).z = lz ∧ d.nowN = t ∧ q d)
    let counts := fun (p : Word) => moves (fun d => (d.trkC n).pos = p ∧ (d.trkC n).edgeTs = d.time.now)
    let b := s.dev.passTo t
    let pos : Nat := quadPos c.a c.b
    let pos' : Nat := quadPos la lb
    let hall := hallState la lb lz
    (s.dev.reaches who bTRK = true →
      (here.count = none → here.index = false → here.idx = false → exec (.trkPosWrite who n v) s =
        s.wrote who (fun d => d.setTrk n { c with pos := p0, did := { here with pos := p0 } })) ∧
      (∀ b, here.count = some b → here.index = false → s.yields (.trkPosWrite who n v) (fun d =>
        (d.trkC n).pos = (trkNext p0 m b).1)) ∧
      (here.index = true → wb cfg 8 = true → s.yields (.trkPosWrite who n v) (fun d => (d.trkC n).pos = 0)) ∧
      exec (.trkEdgetsLoRead who n) s =
        s.gave who (c.edgeTs.setWidth 32) (fun d => d.capture (pairTrk n) (whoIdx who) c.edgeTs)) ∧
    (¬ at' c.pins → c.due = [] → s.dev.trkWaits n = [] → ∀ cmd ∈ [Instr.trackerCount n la lb lz, .trackerIndex n la lb lz],
      s.yields cmd (fun d => at' (d.trkC n).pins ∧ (d.trkC n).a = c.a ∧ (d.trkC n).b = c.b ∧ (d.trkC n).z = c.z ∧
        (d.trkC n).pos = c.pos ∧ (d.trkC n).stat = c.stat ∧ (∀ i ∈ d.trkWaits n, d.trkReady n i = s.dev.nowN + wf cfg 6 4 + 3))) ∧
    (at' c.pins → c.due = [] → s.dev.trkWaits n ≠ [] → (∀ i ∈ s.dev.trkWaits n, s.dev.trkReady n i = t) → s.dev.nowN ≤ t →
      c.refAt ≠ some t → b.nowN = t → b.trkC n = c → b.trkCfg n = cfg → b.act (aTrkMod n) = s.dev.act (aTrkMod n) →
      (wb cfg 0 = true → wf cfg 2 1 = 0 → wb cfg 3 = false → lz = c.z →
        (pos' = (pos + 1) % 4 → counts up) ∧ (pos = (pos' + 1) % 4 → counts down) ∧
        (la = !c.a → lb = !c.b → moves (fun d =>
          (d.trkC n).pos = c.pos ∧ (d.trkC n).errQ = satInc 16 c.errQ ∧ wb (d.trkC n).stat 1 = true))) ∧
      (wb cfg 0 = true → wf cfg 2 1 = 1 → wb cfg 3 = false → hallValid c.hall = true → hallState c.a c.b c.z = c.hall →
        (hallValid hall = true → hallPos hall = (hallPos c.hall + 1) % 6 → counts up) ∧
        (hallValid hall = true → hallPos c.hall = (hallPos hall + 1) % 6 → counts down) ∧
        (hallValid hall = false → moves (fun d =>
          (d.trkC n).pos = c.pos ∧ (d.trkC n).errQ = satInc 16 c.errQ ∧ wb (d.trkC n).stat 2 = true))) ∧
      (wb cfg 0 = true → wf cfg 2 1 = 2 → wb cfg 3 = false → lz = c.z → c.a = false → la = true →
        (c.b = false → counts up) ∧ (c.b = true → counts down)) ∧
      (wb cfg 0 = false → moves (fun d => (d.trkC n).pos = c.pos ∧ (d.trkC n).stat = c.stat)) ∧
      (wb cfg 0 = true → wf cfg 2 1 = 0 → wf cfg 11 10 = 0 → la = c.a → lb = c.b → c.z = false → lz = true →
        wb c.stat 0 = false ∨ wb cfg 9 = true → s.yields (.trackerIndex n la lb lz) (fun d =>
          (d.trkC n).idxPos = c.pos ∧ (d.trkC n).idxTs = d.time.now ∧ d.nowN = t ∧ wb (d.trkC n).stat 0 = true ∧
          (d.trkC n).pos = if wb cfg 8 then 0 else c.pos)))

/-! ### The PWM stage -/

/-- R44, R261, R263, R267, R280, R285, R849: enabling starts the delay of PWM_DELAY ticks, which does not run in FREEZE;
disabling puts the outputs in the
trip state and discards a pending duty; a load-all captures the duties of its group's XFER channels as they were at the end of the
tick before; a soft trip needs SOFTEN; HARD, SAFE and SOFT stay while their cause persists, and a latch set in the tick of
the write, or a HARD that is due, stays; only the writer's duty is taken (enabling and a load-all act in the tick of the write,
log 4; a boundary with XFER 0 discards the pending duty, log 95). R43, R47, R262, R266, R267, R272, R274, R292, R891: a boundary takes the
parameters of the active set and the duty of the end of the tick before, or with XFER the pending one; within a period H_ref
follows the shape, and an output is high only once its dead time has passed since H_ref changed; SAFE_n sets every SAFE latch
while the stage runs, and its release changes no latch. -/
def Obligations.PwmChannels : Prop :=
  (∀ (s : State) (who : Who) (n : Fin 32) (v : Word), s.dev.reaches who bPWM = true →
      let c := s.dev.pwmC n
      let tc := s.dev.tripCfg n
      (v.getLsbD n = true → c.en = false → s.yields (.channelEnable who v) (fun d =>
        (d.pwmC n).en = true ∧ (d.pwmC n).first = some ((if s.dev.frozen then s.dev.dbg.frzAt else s.dev.nowN) +
          wf (s.dev.lv (aPwm n 7)) 15 0) ∧
        (d.pwmC n).carry = 0 ∧ (d.pwmC n).running = false)) ∧
      (v.getLsbD n = true → c.en = true → s.yields (.channelEnable who v) (fun d => d.pwmC n = c)) ∧
      (v.getLsbD n = true → c.en = true → s.yields (.channelDisable who v) (fun d =>
        (d.pwmC n).en = false ∧ (d.pwmC n).pend = none ∧ (d.pwmC n).running = false ∧
        (d.pwmC n).outH = decide ((tripLevels tc).1 = 1) ∧ (d.pwmC n).outL = decide ((tripLevels tc).2 = 1))) ∧
      (v.getLsbD (n.val / 4) = true → c.en = true → c.xfer = true → s.yields (.loadAll who v) (fun d =>
        d.pwmC n = { c with pend := some (c.dutyBefore s.dev.nowN), pendAt := s.dev.nowN,
                            pendOld := if c.pendAt = s.dev.nowN ∧ c.pend ≠ none then c.pendOld else c.pend })) ∧
      (v.getLsbD n = true → wb tc 6 = true → s.yields (.softTrip who v) (fun d =>
        wb (d.pwmC n).trip 3 = true ∧ (d.pwmC n).running = false)) ∧
      (v.getLsbD n = true → wb tc 6 = false → s.yields (.softTrip who v) (fun d => d.pwmC n = c)) ∧
      (c.hardAt = none → s.dev.cmpAsserted n = false → s.dev.safeIn = false → s.dev.softReq n = false →
        s.dev.hwBits (aPwm n 13) = 0 → exec (.tripClear who n v) s =
          s.wrote who (fun d => d.setPwm n { c with trip := tripFirst (c.trip &&& ~~~ (wd (wf v 3 0))) })) ∧
      (∀ t, c.hardAt = some t → t ≤ s.dev.nowN → s.yields (.tripClear who n v) (fun d =>
        wb (d.pwmC n).trip 1 = true ∧ (d.pwmC n).hardAt = none)) ∧
      (c.hardAt = none → s.yields (.tripClear who n v) (fun d =>
        (s.dev.cmpAsserted n = true → wb (d.pwmC n).trip 1 = wb c.trip 1) ∧
        (s.dev.safeIn = true → wb (d.pwmC n).trip 0 = wb c.trip 0) ∧
        (s.dev.softReq n = true → wb (d.pwmC n).trip 3 = wb c.trip 3) ∧
        ∀ b, b < 4 → wb (s.dev.hwBits (aPwm n 13)) b = true → wb (d.pwmC n).trip b = wb c.trip b)) ∧
      (isWriter (s.dev.writerOf n) who = true → exec (.dutyWrite who n v) s =
        s.wrote who (fun d => d.setPwm n { c with
          duty := if who = .loop ∨ who = .link then (v &&& 0x003FFFFF) ||| 0x80000000 else v &&& 0x803FFFFF,
          dutyAt := s.dev.nowN, dutyOld := c.dutyBefore s.dev.nowN })) ∧
      (isWriter (s.dev.writerOf n) who = false → exec (.dutyWrite who n v) s = s.wrote who id)) ∧
  (∀ (s : State) (n : Fin 32) (pos : Nat),
      let c0 := s.dev.pwmC n
      let begun := fun (b d : Device) =>
        let c := b.pwmC n
        let per := wf (b.act (aPwm n 1)) 15 0
        let xfer := wb (b.act (aPwm n 0)) 4
        d.time = b.time ∧ (d.pwmC n).bt = b.nowN ∧ (d.pwmC n).first = none ∧ (d.pwmC n).cfg = b.act (aPwm n 0) ∧
        (d.pwmC n).per = b.act (aPwm n 1) ∧ (d.pwmC n).dt = b.act (aPwm n 2) ∧
        (d.pwmC n).minp = b.act (aPwm n 3) ∧ (d.pwmC n).pol = b.act (aPwm n 4) ∧
        (d.pwmC n).smp = b.act (aPwm n 5) ∧ (d.pwmC n).duty = c.duty ∧
        let old := if c.pendAt = b.nowN then c.pendOld else c.pend
        let takes := fun (w : Word) => (d.pwmC n).raw = w ∧ (d.pwmC n).on = dutyOn w per (wb (b.act (aPwm n 0)) 0)
        (per ≠ 0 → wb (d.pwmC n).stat 0 = true ∧
          (xfer = false → takes (c.dutyBefore b.nowN) ∧ (d.pwmC n).pend = none) ∧
          (xfer = true → old = none → (d.pwmC n).raw = c.raw ∧ (d.pwmC n).on = c.on) ∧
          (∀ w, xfer = true → old = some w → takes w ∧ wb (d.pwmC n).stat 4 = true ∧
            (d.pwmC n).pend = if c.pendAt = b.nowN then c.pend else none))
      (∀ t, c0.first = some t → c0.en = true → s.dev.frozen = false →
        let b := s.dev.passTo t
        (b.pwmC n).first = some t → (b.pwmC n).en = true → b.frozen = false → s.yields (.enableDelayExpiry n) (fun d =>
          begun b d ∧ (d.pwmC n).periods = 0)) ∧
      (c0.counting = true → s.dev.frozen = false →
        let b := s.dev.passTo (c0.bt + c0.ticks)
        (b.pwmC n).counting = true → b.frozen = false → (b.pwmC n).bt + (b.pwmC n).ticks = c0.bt + c0.ticks →
        s.yields (.periodBoundary n) (fun d => begun b d ∧ (d.pwmC n).periods = (b.pwmC n).periods + 1)) ∧
      (s.dev.edgeComes n pos = true →
        let b := s.dev.passTo (c0.bt + pos / 32)
        let c := b.pwmC n
        (b.edgeComes n pos = true → c.bt = c0.bt → s.yields (.pwmEdge n pos) (fun d =>
          let x := d.pwmC n
          x.edgePos = pos ∧ x.outH = (x.href && x.held c.dtRise (32 * c.bt + pos)) ∧
          x.outL = (!x.href && x.held c.dtFall (32 * c.bt + pos)) ∧
          (c.edgePos = 0 → x.href = match c.shape with
            | .low => false
            | .high => true
            | .normal => if c.centre then decide ((c.steps - c.t) / 2 ≤ pos ∧ pos < (c.steps + c.t) / 2)
              else decide (pos < c.t)) ∧
          d.time = b.time ∧ ∀ m, m ≠ n.val → d.pwmC m = b.pwmC m)) ∧
        (b.edgeComes n pos = false → exec (.pwmEdge n pos) s = .next (s.on (fun d => d.passTo (c0.bt + pos / 32))))) ∧
      (∀ t, c0.hardAt = some t → t ≤ s.dev.nowN + 1 → s.dev.nowN + 1 < 2 ^ 64 →
        (s.dev.nextTick.pwmC n).hardAt = none ∧ wb (s.dev.nextTick.pwmC n).trip 1 = true ∧
        (s.dev.nextTick.pwmC n).running = false) ∧
      s.yields .safeAssert (fun d => d.rst.safeLow = true ∧
        ∀ m, m < 32 → if s.dev.pwmUp then wb (d.pwmC m).trip 0 = true else d.pwmC m = s.dev.pwmC m) ∧
      s.yields .safeRelease (fun d =>
        d = { s.dev with rst := { s.dev.rst with safeLow := false }, evr := d.evr }))

/-! ### The loop engine -/

/-- R304 to R306, R314, R316, R317, R322, R337, R338, R345, R350: enabling makes a slot without conflict IDLE with its state
cleared; disabling turns it OFF, as it was before a trigger of the tick (an evaluation that this trigger began is gone, log 110); OVRD; CLRFLT; CLRST; a trigger queues an IDLE slot and
is an overrun for a QUEUED or RUNNING one; the self-test starts in PARK only (RES and LANEFAIL are 0 while it runs, log 30) and
ends. R324, R335: a mirror record is written with a free tag, its eight bytes at the address it was formed for and of memory
nothing outside the line of that address; without a tag it waits for one. -/
def Obligations.LoopSlots : Prop :=
  (∀ (s : State) (who : Who) (n : Fin 32) (v : Word) (on : Bool) (c0 : LeSlot) (irq : Bool), s.dev.reaches who bLE = true →
      let c := s.dev.slotC n
      let conflict := slotConflict s.dev.act ((s.dev.slotsOn.filter (fun j => decide (j ≠ n.val))) ++ [n.val]) n
      let quiet : Prop := s.dev.here.trigs = []
      (who ≠ .link →
        (c.st = .off → conflict = false → s.yields (.slotEnable who n) (fun d =>
          d.slotC n = { c with
            law := {}, bump := false, clr := false, st := .idle, fecnt := 0, lose := false, done := false })) ∧
        (c.st = .off → conflict = true → s.yields (.slotEnable who n) (fun d =>
          (d.slotC n).st = .off ∧ wb (d.slotC n).stat 6 = true)) ∧
        (c.st ≠ .off → s.yields (.slotEnable who n) (fun d => d.slotC n = c)) ∧
        (quiet → s.yields (.slotDisable who n) (fun d => (d.slotC n).st = .off ∧
          (c.st ≠ .off → (d.slotC n).lose = false ∧ (d.slotC n).run = c.run.map (fun r => { r with stop := true })))) ∧
        (s.dev.here.trigs = [(n.val, c0, irq)] → c.st ≠ .off → s.yields (.slotDisable who n) (fun d =>
          (d.slotC n).st = .off ∧ (d.slotC n).lose = false ∧ (d.slotC n).cntOvr = c0.cntOvr ∧
          (∀ r, c.run = some r → (d.slotC n).run =
            if c.trigAt = s.dev.nowN ∧ r.trigAt = s.dev.nowN then none else some { r with stop := true }))) ∧
        (c.st = .held ∨ c.st = .parked ∨ c.st = .fault → s.yields (.clearFault who n) (fun d =>
          (d.slotC n).st = .idle ∧ (d.slotC n).fecnt = 0 ∧ (d.slotC n).fcode = 0 ∧ (d.slotC n).done = false ∧
          (wb (s.dev.desc n 0) 17 = true → (d.slotC n).law = {}) ∧
          (wb (s.dev.desc n 0) 17 = false → (d.slotC n).law = c.law))) ∧
        (c.st ≠ .held → c.st ≠ .parked → c.st ≠ .fault → quiet → s.yields (.clearFault who n) (fun d => d.slotC n = c)) ∧
        (quiet → s.yields (.clearState who n) (fun d => (d.slotC n).clr = true ∧ (d.slotC n).st = c.st))) ∧
      (c.st ≠ .off ∨ quiet → s.yields (.slotOverride who n on) (fun d => d.slotC n = { c with ovrd := on })) ∧
      (v.getLsbD n = true → s.dev.parked = false → s.dev.frozen = false →
        (c.st = .idle → s.yields (.leTrig who v) (fun d => (d.slotC n).st = .queued ∧ (d.slotC n).trigAt = s.dev.nowN)) ∧
        (c.st = .queued ∨ c.st = .running → s.yields (.leTrig who v) (fun d =>
          (d.slotC n).st = c.st ∧ (d.slotC n).cntOvr = satInc 16 c.cntOvr ∧ wb (d.slotC n).stat 1 = true))) ∧
      (s.dev.parked = true ∨ s.dev.frozen = true → exec (.leTrig who v) s = s.wrote who id) ∧
      (s.dev.le.bistBusy = false → s.dev.pwr.mode = .park → s.dev.lanesBusy = [] → exec (.leBistStart who) s =
        s.wrote who (fun d => { d with le := { d.le with bistBusy := true, bistRes := 0, laneFail := 0 } })) ∧
      (s.dev.le.bistBusy = false → s.dev.pwr.mode ≠ .park ∨ s.dev.lanesBusy ≠ [] → exec (.leBistStart who) s =
        s.wrote who (fun d => { d with le := { d.le with bistRes := 3 } }))) ∧
  (∀ (s : State) (n : Fin 32) (ma : Nat) (w0 w1 : Word) (lanes : BitVec 4),
      let c := s.dev.slotC n
      (s.dev.le.bistBusy = true → exec (.leBistDone lanes) s = .next (s.on (fun d => { d with
        le := { d.le with bistBusy := false, bistRes := if lanes = 0 then 1 else 2, laneFail := lanes } }))) ∧
      (c.mirror = some (ma, w0, w1) → s.dev.tagBars 4 = true → exec (.mirrorWrite n) s = .next (s.on (fun d => d.engWait 4))) ∧
      (c.mirror = some (ma, w0, w1) → s.dev.tagBars 4 = false → s.yields (.mirrorWrite n) (fun d =>
        (d.slotC n).mirror = none ∧
        (0x10000000 ≤ ma → ma < 0x10080000 → ma % 8 = 0 → s.dev.memIdle ma = false → s.dev.memTrusted ma = false →
          (∀ i, i < 4 → d.rdByte (ma + i) = (w0 >>> (8 * i)).setWidth 8 ∧ d.rdByte (ma + 4 + i) = (w1 >>> (8 * i)).setWidth 8) ∧
          (∀ a, a / 32 ≠ ma / 32 → d.rdByte a = s.dev.rdByte a) ∧ (d.slotC n).stat = c.stat))))

/-! ### The event router -/

/-- R387, R396, R398, R399, R538: the levels of the software events; a pulse of an event at level 0 passes a level-mode
route for one tick; a lock takes the active configuration; the owner writes an unlocked route's shadow, another core is
refused; owner registers keep OWNER and TRUST, from supervisor code in the trusted domain only (the service tool's at full level
counts as such, log 99). R386, R390 to R393: the oldest delivery of a route takes
place in its tick, one after the route tick in the cadence domain: its route then delivers its level to the destinations of
its mask, and a rising DMA destination triggers its armed channel; a pad's level at once, and its filtered level. The route tick of a pulse is the tick of the command (log 4); a pad takes the
board's level when the command comes (log 103), its filter passes it with the last of its samples (log 50). -/
def Obligations.EventRouter : Prop :=
  (∀ (s : State) (who : Who) (r : Fin 64) (i : Fin 32) (k : Fin 16) (v : Word) (obj : OwnObj),
      let e := s.dev.evr
      (s.dev.reaches who bEVR = true →
        s.yields (.swEventSet who v) (fun d => d.evr.sw = e.sw ||| v.setWidth 16) ∧
        s.yields (.swEventClear who v) (fun d => d.evr.sw = e.sw &&& ~~~ (v.setWidth 16)) ∧
        s.yields (.swEventPulse who v) (fun d => d.evr.sw = e.sw ∧
          d = { s.dev with evr := d.evr, resp := d.resp, same := d.same } ∧
          ∀ j : Fin 8, j ≠ 0 → v.getLsbD k = true → e.sw.getLsbD k = false →
            s.dev.rtCfg r = wd (0x80000000 + 0x1000000 * j.val + 224 + k.val) → (∀ f ∈ e.fly, f.route ≠ r.val) →
            e.dl.get (fun _ => none) r = none →
            let sent := fun (o : OutKind) (x : Nat) =>
              { route := r, out := o, tick := x, kind := j, mask := s.dev.act (aRtMask r) : Flight }
            sent .rise s.dev.nowN ∈ d.evr.fly ∧ sent .fall (s.dev.nowN + 1) ∈ d.evr.fly) ∧
        (s.dev.codeReaches who bEVR = true → v.getLsbD i = true →
          s.yields (.routeLock who false v) (fun d => d.routeLocked i = true ∧
            (s.dev.routeLocked i = false → d.shd (aRtCfg i) = s.dev.act (aRtCfg i))) ∧
          s.yields (.routeLock who true v) (fun d => d.routeLocked (32 + i.val) = true ∧
            (s.dev.routeLocked (32 + i.val) = false → d.shd (aRtCfg (32 + i.val)) = s.dev.act (aRtCfg (32 + i.val))))) ∧
        (s.dev.codeReaches who bEVR = false → exec (.routeLock who false v) s = s.denied who bEVR 2 ∧
          exec (.routeLock who true v) s = s.denied who (bEVR + 4) 2) ∧
        (ownFail (s.dev.lv (aRtOwn r)) who (s.dev.reqOf who) = none → s.dev.routeLocked r = false →
          exec (.routeConfigWrite who r false v) s = s.wrote who (fun d => d.setShadow (aRtCfg r) (v &&& 0x8733FFFF)) ∧
          exec (.routeConfigWrite who r true v) s = s.wrote who (fun d => d.setShadow (aRtMask r) v))) ∧
      (∀ c, who = .core c → s.dev.reaches who bEVR = true → wf (s.dev.lv (aRtOwn r)) 1 0 ≠ c.val →
        exec (.routeConfigWrite who r false v) s =
          s.denied who (aRtCfg r) 1) ∧
      (s.dev.reaches who (blkOf (ownReg obj)) = true → s.dev.ofLockedRoute (ownReg obj) = false → obj ≠ .irq 0 →
        (s.dev.codeReaches who (blkOf (ownReg obj)) = true →
          exec (.ownerWrite who obj v) s = s.wrote who (fun d => d.setLv (ownReg obj) (v &&& 0x103))) ∧
        (s.dev.codeReaches who (blkOf (ownReg obj)) = false → exec (.ownerWrite who obj v) s = s.denied who (ownReg obj) 5))) ∧
  (∀ (s : State) (r : Fin 64) (f : Flight) (rest : List Flight) (p : Fin 24) (i : Fin 16) (b : Bool),
      let b' := s.dev.passTo f.due
      let ch := b'.dmaC i
      let burst := wf ch.cfg 31 16
      let drives := { s.dev with rst := { s.dev.rst with
        gpDrv := s.dev.rst.gpDrv ||| BitVec.twoPow 24 p
        gpExt := if b then s.dev.rst.gpExt ||| BitVec.twoPow 24 p else s.dev.rst.gpExt &&& ~~~ (BitVec.twoPow 24 p) } }
      let x := drives.passTo (s.dev.gpReady p)
      (popFlight r s.dev.evr.fly = none → exec (.routeDelivery r) s = .next s) ∧
      (popFlight r s.dev.evr.fly = some (f, rest) → f.due < s.dev.nowN → s.yields (.routeDelivery r) (fun d =>
        d.evr.fly = s.dev.evr.fly.filter (fun g => decide (s.dev.nowN ≤ g.due)) ∧ d.nowN = s.dev.nowN)) ∧
      (popFlight r s.dev.evr.fly = some (f, rest) → s.dev.nowN ≤ f.due → 0 < f.due → (∀ g ∈ rest, f.due < g.due) →
        b'.evr.fly = s.dev.evr.fly →
        s.yields (.routeDelivery r) (fun d => d.evr.fly = rest ∧ d.time = b'.time ∧
          (f.out = .rise → d.evr.dl.get (fun _ => none) f.route = some (f.kind, f.mask)) ∧
          (f.out = .fall → d.evr.dl.get (fun _ => none) f.route = none) ∧
          (f.out = .rise → f.kind = 5 → f.mask.getLsbD i = true → b'.destIn 5 i = false → ch.st = .armed →
            d.dmaC i = { ch with
              st := .pending, runLeft := if burst = 0 ∨ ch.rem < burst then ch.rem else burst }))) ∧
      (s.dev.rst.gpIn.getLsbD p ≠ b → s.yields (.gpInputChange p b) (fun d =>
        d.rst.gpIn.getLsbD p = b ∧ (8 ≤ p.val → d.rst.gpFilt = s.dev.rst.gpFilt) ∧
        (p.val < 8 → s.dev.gpFilterN p ≤ 1 → d.rst.gpFilt.getLsbD p = b) ∧
        (p.val < 8 → 1 < s.dev.gpFilterN p → s.dev.gpWaits p = false →
          d.rst.gpFilt = s.dev.rst.gpFilt ∧ d.gpReady p = s.dev.nowN + s.dev.gpFilterN p - 1))) ∧
      (s.dev.rst.gpIn.getLsbD p = b → 8 ≤ p.val ∨ s.dev.gpWaits p = false →
        exec (.gpInputChange p b) s = .next (s.on (fun _ => drives))) ∧
      (s.dev.rst.gpIn.getLsbD p = b → p.val < 8 → s.dev.gpWaits p = true → x.rst.gpIn.getLsbD p = b → x.gpWaits p = true →
        x.gpReady p ≤ x.nowN → s.yields (.gpInputChange p b) (fun d =>
          d.rst.gpFilt.getLsbD p = b ∧ d.rst.gpIn = x.rst.gpIn ∧ d.time = x.time)))

/-! ### The interrupt controller -/

/-- R541, R558, R561, R565, R568, R570, R571, R575: a claim makes the reserved source active and, for an edge source, no
longer pending; it answers 0x3FF for one withdrawn in an earlier tick and 0 for none; a completion ends its own core's source and is else
counted; PSET, PCLR but for a source raised in the tick, doorbells and THR. -/
def Obligations.InterruptCommands : Prop :=
  ∀ (s : State) (c : Fin 4) (src : Fin 193) (k : Fin 4) (v : Word),
    let who : Who := .core c
    let n := s.dev.intc
    let id' := wf v 9 0
    s.dev.reaches who bINTC = true →
    (s.dev.resvOf c = none → exec (.interruptClaim who c) s = s.gave who 0 id) ∧
    (s.dev.resvOf c = some ⟨src, true⟩ → (∀ x ∈ s.dev.here.gone, x.1 ≠ c.val) → exec (.interruptClaim who c) s = s.gave who 0x3FF (fun d =>
      { d with intc := { n with resv := n.resv.set (fun _ => none) c none } })) ∧
    (s.dev.resvOf c = some ⟨src, false⟩ → exec (.interruptClaim who c) s = s.gave who (wd src) (fun d =>
      { d with intc := { n with
          resv := n.resv.set (fun _ => none) c none
          act := n.act.set (fun _ => none) src (some (c.val, s.dev.prio src))
          pend := if isLevelSrc src then n.pend else n.pend &&& ~~~ (BitVec.twoPow 193 src) } })) ∧
    (∀ p, s.dev.actOf id' = some (c.val, p) → id' ≠ 0 → id' ≠ 0x3FF →
      exec (.interruptComplete who c v) s = s.wrote who (fun d =>
        { d with intc := { n with act := n.act.set (fun _ => none) id' none } })) ∧
    ((s.dev.actOf id').map (fun x => x.1) ≠ some c.val → id' ≠ 0 → id' ≠ 0x3FF →
      exec (.interruptComplete who c v) s = s.wrote who (fun d =>
        { d with intc := { n with badDone := wd (satInc 32 n.badDone.toNat), badInfo := wd (id' + 0x10000 * c.val) } })) ∧
    (id' = 0 ∨ id' = 0x3FF → exec (.interruptComplete who c v) s = s.wrote who id) ∧
    (src ≠ 0 → isLevelSrc src = false → ownFail (s.dev.lv (aIown src)) who (s.dev.reqOf who) = none →
      s.yields (.interruptPset who src) (fun d => d.intc.pend = n.pend ||| BitVec.twoPow 193 src) ∧
      s.yields (.interruptPclr who src) (fun d => d.intc.pend =
        if s.dev.here.irqs.getLsbD src then n.pend else n.pend &&& ~~~ (BitVec.twoPow 193 src))) ∧
    (wb v 0 = true → s.yields (.doorbell who k v) (fun d =>
      d = { s.dev with intc := { n with pend := n.pend ||| BitVec.twoPow 193 (177 + k.val) }, resp := d.resp, same := d.same })) ∧
    (wb v 0 = false → exec (.doorbell who k v) s = s.wrote who id) ∧
    exec (.thrWrite who c v) s = s.wrote who (fun d =>
      { d with intc := { n with thr := n.thr.set (fun _ => 0) c (wf v 3 0) } })

/-! ### Queues -/

/-- R597 to R599, R601 to R603, R608: a push appends, or is dropped and counted; a pop takes the head word, or answers
QUE_EMPTYWORD and is counted; a peek changes nothing; an enable takes granules that no enabled queue holds and starts
empty, a disable empties, another write of an enabled queue's QUE_CFG changes nothing. A word that is not correctable is
removed by a pop, kept by a peek, flagged, and answered with an error. -/
def Obligations.QueuesKeepOrder : Prop :=
  ∀ (s : State) (c : Fin 4) (q : Fin 32) (v w : Word) (l : List Word),
    let who : Who := .core c
    let k := s.dev.queC q
    let ew := s.dev.lv (aQueEw q)
    s.dev.reaches who bQUE = true →
    (k.en = true → k.words.length < k.cap → s.yields (.quePush who q v) (fun d =>
      (d.queC q).words = k.words ++ [v] ∧ (d.queC q).overs = k.overs ∧ ∀ j, j ≠ q.val → d.queC j = s.dev.queC j)) ∧
    (k.en = false ∨ k.cap ≤ k.words.length → s.yields (.quePush who q v) (fun d =>
      (d.queC q).words = k.words ∧ (d.queC q).overs = satInc 16 k.overs ∧ wb (d.queC q).flags 16 = true ∧
      (k.en = false → wb (d.queC q).flags 20 = true))) ∧
    (k.en = true → k.words = w :: l → s.dev.queEcc q = .good →
      s.yields (.quePop who q) (fun d => (d.queC q).words = l ∧ d.got who = (w, .ok)) ∧
      exec (.quePeek who q) s = s.gave who w id) ∧
    (k.en = true → k.words = w :: l → s.dev.queEcc q = .single →
      s.yields (.quePop who q) (fun d => (d.queC q).words = l ∧ d.got who = (w, .ok)) ∧
      s.yields (.quePeek who q) (fun d => d.queC q = k ∧ d.got who = (w, .ok) ∧ d.queEcc q = .good)) ∧
    (k.en = true → k.words = w :: l → s.dev.queEcc q = .bad →
      s.yields (.quePop who q) (fun d =>
        (d.queC q).words = l ∧ wb (d.queC q).flags 19 = true ∧ d.got who = (0, .ecc)) ∧
      s.yields (.quePeek who q) (fun d =>
        (d.queC q).words = k.words ∧ wb (d.queC q).flags 19 = true ∧ d.got who = (0, .ecc))) ∧
    (k.en = false ∨ k.words = [] →
      s.yields (.quePop who q) (fun d =>
        (d.queC q).words = k.words ∧ (d.queC q).unders = satInc 16 k.unders ∧ wb (d.queC q).flags 17 = true ∧
        (k.en = false → wb (d.queC q).flags 20 = true) ∧
        d.got who = (ew, .ok)) ∧
      exec (.quePeek who q) s = s.gave who ew id) ∧
    (ownFail (s.dev.lv (aQueOwn q)) who (s.dev.reqOf who) = none →
      (k.en = false → wb v 15 = true → s.dev.queClash q (v &&& 0x03FF81FF) = false →
        exec (.queueConfig who q v) s = s.wrote who (fun d =>
          d.setQue q { k with cfg := v &&& 0x03FF81FF, words := [], head := 0 })) ∧
      (k.en = false → wb v 15 = true → s.dev.queClash q (v &&& 0x03FF81FF) = true →
        s.yields (.queueConfig who q v) (fun d => (d.queC q).en = false ∧ wb (d.queC q).flags 18 = true)) ∧
      (k.en = true → wb v 15 = false → s.yields (.queueConfig who q v) (fun d =>
        (d.queC q).en = false ∧ (d.queC q).words = [])) ∧
      (k.en = true → wb v 15 = true → exec (.queueConfig who q v) s = s.wrote who id) ∧
      (k.en = false → wb v 15 = false → exec (.queueConfig who q v) s = s.wrote who (fun d =>
        d.setQue q { k with cfg := v &&& 0x03FF81FF })))

/-! ### Locks and buffers -/

/-- R612, R613, R615, R620 to R625, R631: a take of a free lock gives it to the core, of a held one names its holder; only
the holder gives it back; an allocation hands out the head of the free list with the next generation; free, pass and
forced free check the handle; a rejected request changes no buffer, is flagged, counted and recorded with its handle, initiator and
kind (an allocation has no handle: 0, log 109; a forced free of a free buffer records its index, log 58), and raises source 189. -/
def Obligations.LocksAndBuffers : Prop :=
  ∀ (s : State) (c : Fin 4) (n : Fin 32) (h : Fin 4) (v : Word) (i : Nat) (l : List Nat),
    let who : Who := .core c
    let k := s.dev.lockC n
    let x := s.dev.shed
    let hd := wf v 15 0
    let j := hd % 1024
    let g := ((s.dev.bufC i).gen + 1) % 16
    let rejected := fun (kind hd : Nat) (d : Device) => d.shed.free = x.free ∧ d.shed.buf = x.buf ∧ wb d.shed.err kind = true ∧
      d.shed.errCnt = wd (satInc 32 x.errCnt.toNat) ∧ d.shed.errInfo = wd (hd + 0x10000 * c.val + 0x1000000 * kind) ∧
      (wb x.err kind = false → d.intc.pend.getLsbD 189 = true)
    (s.dev.reaches who bLOCK = true →
      (k.holder = none → exec (.lockTake who n) s =
        s.gave who (wd ((if k.orph then 2 else 1) + 0x10 * c.val)) (fun d => d.setLock n { holder := some c })) ∧
      (k.holder = some h → exec (.lockTake who n) s = s.gave who (wd ((if h = c then 3 else 0) + 0x10 * h.val)) id) ∧
      (k.holder = some c → exec (.lockGive who n v) s = s.wrote who (fun d => d.setLock n { k with holder := none })) ∧
      (k.holder ≠ some c → s.yields (.lockGive who n v) (fun d =>
        d.lockC n = k ∧ d.lock.badGive = wd (satInc 32 s.dev.lock.badGive.toNat) ∧
        d.lock.badInfo = wd (n.val + 0x100 * c.val)))) ∧
    (s.dev.reaches who bSHED = true →
      (x.free = i :: l → s.yields (.shedAlloc who) (fun d =>
        d.shed.free = l ∧ d.bufC i = { owner := c.val, gen := g } ∧ d.shed.lowMark = min x.lowMark l.length ∧
        d.got who = (wd (i + 0x1000 * g), .ok))) ∧
      (x.free = [] → s.yields (.shedAlloc who) (fun d => rejected 3 0 d ∧ d.got who = (0x80000000, .ok))) ∧
      ((s.dev.bufC j).owner = c.val → (s.dev.bufC j).gen = hd / 0x1000 →
        s.yields (.shedFree who v) (fun d => d.shed.free = x.free ++ [j] ∧ (d.bufC j).owner = 7) ∧
        (wf v 18 16 < 6 → exec (.shedPass who v) s =
          s.wrote who (fun d => d.setBuf j { s.dev.bufC j with owner := wf v 18 16 }))) ∧
      ((s.dev.bufC j).owner = 7 ∨ (s.dev.bufC j).gen ≠ hd / 0x1000 →
        s.yields (.shedFree who v) (rejected 0 hd) ∧ (wf v 18 16 < 6 → s.yields (.shedPass who v) (rejected 2 hd))) ∧
      ((s.dev.bufC j).owner ≠ 7 → (s.dev.bufC j).owner ≠ c.val → (s.dev.bufC j).gen = hd / 0x1000 →
        s.yields (.shedFree who v) (rejected 1 hd) ∧ (wf v 18 16 < 6 → s.yields (.shedPass who v) (rejected 1 hd))) ∧
      (6 ≤ wf v 18 16 → exec (.shedPass who v) s = s.wrote who id) ∧
      ((s.dev.bufC j).owner ≠ 7 → s.yields (.shedFfree who v) (fun d =>
        d.shed.free = x.free ++ [j] ∧ (d.bufC j).owner = 7)) ∧
      ((s.dev.bufC j).owner = 7 → s.yields (.shedFfree who v) (rejected 0 j)) ∧
      exec (.shedLowmarkWrite who v) s =
        s.wrote who (fun d => { d with shed := { x with lowMark := x.free.length } }))

/-! ### DMA -/

/-- R641, R643, R645, R646, R648, R649, R651 to R653, R655: START copies a valid setup and refuses an invalid one; STOP; the engine
starts the PENDING channel of highest priority; the running channel reads at its source, one element at a time with a fixed source
and up to four with an incrementing one (how many, and what an error leaves of them, is open: log 98), and writes the oldest one in
flight, which moves the addresses and counts; the last one ends the run with DONE; one that is not read or not written, or whose
push drops, stops the channel with its code once what is in flight behind it has come to its end; an element whose access waits
stays; a stop or an abort takes place at the element
boundary. -/
def Obligations.DmaTransfers : Prop :=
  ∀ (s : State) (who : Who) (k : Fin 16) (d1 d2 : Device) (v w : Word) (x y : Acc) (l : List (Word × Nat)),
    let c := s.dev.dmaC k
    let src := s.dev.lv (aDma k 0)
    let dst := s.dev.lv (aDma k 1)
    let cnt := wf (s.dev.lv (aDma k 2)) 15 0
    let cfg := s.dev.lv (aDma k 3)
    let armed := wb cfg 4
    let good : Prop := cnt ≠ 0 ∧ wf cfg 1 0 ≠ 3 ∧ src.toNat % 2 ^ wf cfg 1 0 = 0 ∧ dst.toNat % 2 ^ wf cfg 1 0 = 0
    let a := c.csrc.toNat
    let d0 := s.dev.engBegin 6
    let df := d0.dmaFill k (c.ahead s.dev.free) 4
    let f := df.dmaC k
    let drops := (df.engTake 6 f.cdst.toNat (some v)).isNone && df.pushDrops f.cdst.toNat
    let put := (df.setDma k { f with buf := l }).busWrite (.dma k) f.cdst.toNat (2 ^ wf f.cfg 1 0) v.toNat
    let e := d2.dmaC k
    let size := wd (2 ^ wf e.cfg 1 0)
    let runs : Prop := s.dev.resetsTaken = true ∧ s.dev.dmaRuns = some k
    let blocked := d0.busBusy a && (d0.engTake 6 a none).isNone
    let stops := fun (code : Nat) (c : DmaCh) => s.yields .dmaElement (fun d =>
      (d.dmaC k).st = .idle ∧ (d.dmaC k).ecode = code ∧ wb (d.dmaC k).flags 5 = true ∧ (d.dmaC k).buf = [] ∧
      (d.dmaC k).csrc = c.csrc ∧ (d.dmaC k).cdst = c.cdst ∧ (d.dmaC k).rem = c.rem)
    (s.dev.reaches who bDMA = true → ownFail (s.dev.lv (aDmaOwn k)) who (s.dev.reqOf who) = none →
      (c.st = .idle → good → exec (.dmaStart who k) s = s.wrote who (fun d => d.setDma k { c with
        st := if armed then .armed else .pending, csrc := src, cdst := dst, cfg := cfg, rem := cnt,
        runLeft := if armed then 0 else cnt, trust := wb (s.dev.lv (aDmaOwn k)) 8, stop := 0 })) ∧
      (c.st = .idle → ¬ good → s.yields (.dmaStart who k) (fun d =>
        (d.dmaC k).st = .idle ∧ wb (d.dmaC k).flags 7 = true)) ∧
      (c.st ≠ .idle → exec (.dmaStart who k) s = s.wrote who id) ∧
      (c.st = .armed ∨ c.st = .pending → exec (.dmaStop who k) s =
        s.wrote who (fun d => d.setDma k { c with st := .idle, runLeft := 0, ecode := 5 })) ∧
      (c.st = .running → c.stop = 0 → exec (.dmaStop who k) s = s.wrote who (fun d => d.setDma k { c with stop := 1 })) ∧
      (c.st = .idle ∨ (c.st = .running ∧ c.stop ≠ 0) → exec (.dmaStop who k) s = s.wrote who id)) ∧
    (s.dev.dmaRunning = none → s.dev.dmaNext = some k.val →
      exec .dmaRunStart s = .next (s.on (fun d => d.setDma k { c with st := .running }))) ∧
    (s.dev.dmaRunning ≠ none ∨ s.dev.dmaNext = none → exec .dmaRunStart s = .next s) ∧
    (s.dev.resetsTaken = false ∨ s.dev.dmaRuns = none → exec .dmaElement s = .next s) ∧
    (runs → c.buf = [] → c.stop = 0 → c.fail = none →
      (blocked = true → s.yields .dmaElement (fun d => d.dma = s.dev.dma ∧ d.mem = s.dev.mem ∧ d.time = s.dev.time)) ∧
      (blocked = false → c.runLeft ≠ 0 → d0.busRead (.dma k) a (2 ^ wf c.cfg 1 0) = (d1, x) → d1.dmaC k = c → d1.dmaReadOut k = false →
        ((∀ u, x ≠ .ok u) → x ≠ .wait → stops (dmaCodeOf x) c) ∧
        (x = .wait → s.yields .dmaElement (fun d => d.dma = s.dev.dma)) ∧
        (x = .ok v → wb c.cfg 2 = false → df = d1.setDma k { c with buf := [(v, 0)] }))) ∧
    (runs → c.buf = [] → d0.dmaRead1 k = false → d0.dmaReading k = false → (∀ x ∈ s.dev.here.drops, x.1 ≠ k.val) →
      (∀ code a b n, c.fail = some (code, a, b, n) → s.yields .dmaElement (fun d =>
        (d.dmaC k).st = .idle ∧ (d.dmaC k).ecode = code ∧ wb (d.dmaC k).flags 5 = true ∧ (d.dmaC k).csrc = a ∧
        (d.dmaC k).cdst = b ∧ (d.dmaC k).rem = n)) ∧
      (c.fail = none → c.stop = 1 → s.yields .dmaElement (fun d => d.dmaC k = { c with st := .idle, runLeft := 0, stop := 0, ecode := 5 })) ∧
      (c.fail = none → c.stop = 2 → s.yields .dmaElement (fun d => (d.dmaC k).st = .idle ∧ (d.dmaC k).ecode = 6 ∧
        wb (d.dmaC k).flags 5 = true))) ∧
    (runs → f.buf = (v, 0) :: l → f.fail = none → put = (d2, y) → e.st = .running → e.fail = none →
      (e.buf = [] → d2.dmaReadOut k = false → e.stop ≠ 3 →
        ((∀ u, y ≠ .ok u) → y ≠ .wait → stops (dmaCodeOf y) e) ∧ (y = .ok w → drops = true → stops 4 e)) ∧
      (y = .wait → s.yields .dmaElement (fun d => d.dmaC k = f)) ∧
      (y = .ok w → drops = false → e.stop = 0 → (∀ x ∈ d2.here.drops, x.1 ≠ k.val) →
        s.yields .dmaElement (fun d =>
          (d.dmaC k).csrc = (if wb e.cfg 2 then e.csrc + size else e.csrc) ∧
          (d.dmaC k).cdst = (if wb e.cfg 3 then e.cdst + size else e.cdst) ∧ (d.dmaC k).rem = e.rem - 1 ∧
          (d.dmaC k).st = (if e.rem - 1 = 0 then .idle else if e.runLeft - 1 = 0 then .armed else .running) ∧
          (e.rem - 1 = 0 → wb (d.dmaC k).flags 4 = true))))

/-! ### The memories -/

/-- R592, R670, R678, R680, R681, R685 to R687: a flushed entry leaves the buffer and its bytes lie over memory's doubleword;
MERGE_FLUSH and MERGE_DISABLE empty the buffer; an entry of a region marked idle leaves it with no access (R701); the walkers correct or record and move on; an acknowledgement takes the
oldest eviction. -/
def Obligations.MergeBufferAndScrubber : Prop :=
  ∀ (s : State) (who : Who) (i : Fin 4) (m : Merge) (c : Fin 4) (e : Evict) (l : List Evict),
    let b := s.dev.passTo (m.last + 32)
    let bs := s.dev.passTo s.dev.mem.sAt
    let bf := s.dev.passTo s.dev.mem.fAt
    ((s.dev.mem.merge.drop i).head? = some m → (b.mem.merge.drop i).head? = some m → isShared m.addr = true →
      b.memIdle m.addr = false → s.yields (.mergeIdleFlush i) (fun d =>
        d.time = b.time ∧ (∀ x ∈ d.mem.merge, x.addr ≠ m.addr) ∧ d.rdDw m.addr = m.over (b.rdDw m.addr))) ∧
    ((s.dev.mem.merge.drop i).head? = some m → (b.mem.merge.drop i).head? = some m → b.memIdle m.addr = true →
      s.yields (.mergeIdleFlush i) (fun d => (∀ x ∈ d.mem.merge, x.addr ≠ m.addr) ∧ d.mem.cells = b.mem.cells)) ∧
    (s.dev.reaches who bMEM = true →
      s.yields (.mergeFlush who) (fun d => d.mem.merge = [] ∧ wb (d.lv bMEM) 0 = wb (s.dev.lv bMEM) 0) ∧
      s.yields (.mergeDisable who) (fun d => d.mem.merge = [] ∧ d.lv bMEM = 0)) ∧
    (s.dev.sramWalks = true → bs.sramWalks = true → bs.mem.sAt = s.dev.mem.sAt → s.yields .scrubSramRead (fun d =>
      let p := bs.scrubSkip bs.mem.sPos
      d.eccOf (scrubKey p).1 ≠ .single ∧ d.mem.sPos = (if scrubWords ≤ p + 1 then 0 else p + 1))) ∧
    (s.dev.flashWalks = true → bf.flashWalks = true → bf.mem.fAt = s.dev.mem.fAt → bf.flash.cmd = none → bf.mem.idle = 0 →
      s.yields .scrubFlashRead (fun d =>
        let a := 8 * bf.mem.fPos
        d.mem.fPos = (if flashWords ≤ bf.mem.fPos + 1 then 0 else bf.mem.fPos + 1) ∧
        (bf.eccOf a = .single → d.mem.flWeak = wd a ∧ d.mem.flWeakCnt = satInc 16 bf.mem.flWeakCnt))) ∧
    ((s.dev.coreC c).ev = e :: l → s.yields (.evictionAck c) (fun d => (d.coreC c).ev = l))

/-- R690 to R694, R698: the key sequence; a command that R692 lets through starts, or waits for the ledger record that is being
written (one first due counts as being written, log 63), and ends the sequence; another leaves its code; other initiators than supervisor code in the trusted domain are turned
away (the service tool's at full level counts as such, log 99); a program writes its doubleword, an erase leaves 0xFF in its page
or bank. -/
def Obligations.FlashCommands : Prop :=
  ∀ (s : State) (who : Who) (v : Word) (x a : Nat) (w : DWord),
    let f := s.dev.flash
    let ad := (s.dev.lv (bFLASH + 0x10)).toNat
    let data := s.dev.lv (bFLASH + 0x18) ++ s.dev.lv (bFLASH + 0x14)
    let free : Prop := f.key = 2 ∧ f.cmd = none ∧ ad < 0x400000 ∧ s.dev.mem.idle.getLsbD (ad / 0x200000) = false ∧
      (wb (s.dev.lv bFLASH) 0 = false ∨ ad / 0x200000 ≠ s.dev.runBank)
    let start := fun (c : Instr) (code : Nat) => exec c s = s.wrote who (fun d => { d with flash := { f with
      key := 0, held := decide (s.dev.pwr.due ≠ []) && !s.dev.here.recDue, cmd := some (code, ad, data) } })
    (s.dev.codeReaches who bFLASH = true →
      (v = 0x6C1D → exec (.flashKey who v) s = s.wrote who (fun d => { d with flash := { f with key := 1 } })) ∧
      (v = 0x93E2 → f.key = 1 → exec (.flashKey who v) s = s.wrote who (fun d => { d with flash := { f with key := 2 } })) ∧
      (v ≠ 0x6C1D → v ≠ 0x93E2 ∨ f.key ≠ 1 →
        exec (.flashKey who v) s = s.wrote who (fun d => { d with flash := { f with key := 0 } })) ∧
      (free → start (.perase who) 2 ∧ start (.berase who) 3) ∧
      (free → ad % 8 = 0 → s.dev.dwErased ad = true → start (.prog who) 1) ∧
      (∀ p ∈ [(Instr.prog who, 1), (.perase who, 2), (.berase who, 3)],
        (s.dev.flashRefusal p.2 ≠ 0 → exec p.1 s = s.wrote who (fun d => ({ d with
          flash := { f with key := 0, err := true, ecode := s.dev.flashRefusal p.2 } }).hwFlag (bFLASH + 4) 0x200)) ∧
        (f.key ≠ 2 → s.dev.flashRefusal p.2 = 1) ∧ (f.key = 2 → f.cmd ≠ none → s.dev.flashRefusal p.2 = 2) ∧
        (f.key = 2 → f.cmd = none → 0x400000 ≤ ad → s.dev.flashRefusal p.2 = 3))) ∧
    (s.dev.reaches who bFLASH = true → s.dev.codeReaches who bFLASH = false →
      exec (.flashKey who v) s = s.denied who (bFLASH + 8) 2 ∧ exec (.perase who) s = s.denied who (bFLASH + 12) 2) ∧
    (f.held = true → exec .flashDone s = .next (s.on (fun d => d.warmLag 2400))) ∧
    (a < 0x400000 → f.held = false →
      (f.cmd = some (1, a, w) → s.dev.mem.undefPage.get (fun _ => 0) (a / 0x2000) = 0 →
        s.dev.mem.undefDw.get (fun _ => 0) (a / 8) = 0 → s.yields .flashDone (fun d =>
          d.rdDw (dwOf a) = w ∧ d.flash.cmd = none ∧ d.flash.done = true)) ∧
      (f.cmd = some (2, a, w) → x / 0x2000 = a / 0x2000 → s.yields .flashDone (fun d =>
        d.rdByte x = 0xFF ∧ d.flash.cmd = none ∧ d.flash.done = true)) ∧
      (f.cmd = some (3, a, w) → x / 0x200000 = a / 0x200000 → s.yields .flashDone (fun d =>
        d.rdByte x = 0xFF ∧ d.flash.cmd = none ∧ d.flash.done = true)))

/-- R702, R703, R707, R708: idle marks but for protected regions; the self-test of an idle region, which leaves an SRAM
region zero; supervisor code in the trusted domain (log 99) programs a fuse word once, from word 32 up, below the lock and 85 °C,
and while VDD33 is not below 3.15 V, a free value (log 16); the word holds what was written when it verifies. -/
def Obligations.IdleMarksAndFuses : Prop :=
  ∀ (s : State) (who : Who) (v : Word) (r : Fin 8) (failAt : Option Word) (x w : Nat) (fv : Word),
    let m := s.dev.mem
    let f := s.dev.fuse
    let reg := wf v 6 4
    let fw := wf (s.dev.lv (bFUSE + 0x408)) 6 0
    (s.dev.reaches who bMEM = true →
      s.yields (.memIdleWrite who v) (fun d =>
        (wb v r = true → s.dev.noIdle r = false → d.mem.idle.getLsbD r = true) ∧
        (wb v r = true → s.dev.noIdle r = true → d.mem.idle.getLsbD r = m.idle.getLsbD r) ∧
        (wb v r = false → m.bistBusy = false → d.mem.idle.getLsbD r = false)) ∧
      (m.idle.getLsbD reg = true → m.bistBusy = false → exec (.memBistStart who v) s = s.wrote who (fun d =>
        { d with mem := { m with bistBusy := true, bistReg := reg, bistRes := 0 } })) ∧
      (m.idle.getLsbD reg = false ∨ m.bistBusy = true → exec (.memBistStart who v) s = s.wrote who (fun d =>
        { d with mem := { m with bistRes := 3 } }))) ∧
    (m.bistBusy = true → m.bistReg < 8 → s.yields (.memBistDone failAt) (fun d =>
      d.mem.bistBusy = false ∧ d.mem.bistRes = (if failAt = none then 1 else 2) ∧ d.mem.idle = m.idle &&& ~~~ m.idleClr ∧
      (2 ≤ m.bistReg → (regionBounds m.bistReg).1 ≤ x → x < (regionBounds m.bistReg).2 → d.rdByte x = 0))) ∧
    (s.dev.codeReaches who bFUSE = true →
      (v ≠ 0xF0A5 → exec (.fuseProgram who v) s = s.wrote who id) ∧
      (v = 0xF0A5 → 32 ≤ fw → f.written.getLsbD fw = false → wb (s.dev.fuseW 127) 0 = false →
        s.dev.pwr.temp.toInt ≤ 85 → f.prog = none → exec (.fuseProgram who v) s = s.wrote who (fun d => { d.fresh with
          fuse := if Config.vdd33Low s.dev.free then { f with res := 2 } else { f with prog := some (fw, s.dev.lv (bFUSE + 0x40C)) } })) ∧
      (v = 0xF0A5 → fw < 32 ∨ f.written.getLsbD fw = true ∨ wb (s.dev.fuseW 127) 0 = true ∨ 85 < s.dev.pwr.temp.toInt ∨
        f.prog ≠ none → exec (.fuseProgram who v) s = s.wrote who (fun d => { d.fresh with fuse := { f with res := 2 } }))) ∧
    (s.dev.reaches who bFUSE = true → s.dev.codeReaches who bFUSE = false →
      exec (.fuseProgram who v) s = s.denied who (bFUSE + 0x410) 2) ∧
    (f.prog = some (w, fv) → exec (.fuseProgramDone true) s = .next (s.on (fun d => ({ d with fuse := { f with
      arr := f.arr.set fuse0 w fv, bad := f.bad.set (fun _ => .good) w .good, written := f.written ||| BitVec.twoPow 128 w,
      prog := none, res := 1 } }).warmLag 400)) ∧
      s.yields (.fuseProgramDone false) (fun d => d.fuse.prog = none ∧ d.fuse.res = 3 ∧ d.fuse.shadow = f.shadow ∧
        d.fuse.written = f.written ||| BitVec.twoPow 128 w))

/-! ### Roram Link -/

/-- R727, R728, R745, R748, R750, R752: ports come up and go down, with their counts, and send /I2/ or /I1/; alignment; probes,
replies and the mean of the cable delay, of the measurements taken so far (log 66) and rounded either way (log 11); /RP/ and the
closure of the ring; a frame that a failing port cuts, or that ends with /AB/, and what was to come of it; an abort that reaches
the head shows it an open ring (log 67); the loss of SYNC in the tick after the 2 ms (log 91); symbol errors. -/
def Obligations.LinkPorts : Prop :=
  ∀ (s : State) (p : Port) (gained : Bool) (trip : Nat) (t : BitVec 24) (t0 : Nat),
    let l := s.dev.link
    let x := s.dev.port p
    let o := s.dev.port p.other
    let cnt := fun (d : Device) (i : Nat) => d.link.ecnt.get (fun _ => 0) i
    let sent := fun (d : Device) (q : Port) => match q with | .la => d.link.sentA | .lb => d.link.sentB
    let void := fun (d : Device) => ∀ y ∈ d.link.ends, y.port = p → y.at' ≤ s.dev.nowN
    (s.dev.linkAlive = true →
      s.yields (.portUp p) (fun d => d.port p = { x with up := true, aligned := true } ∧ d.port p.other = o ∧
        sent d p = .idle true ∧
        (d.link.uturn = l.uturn → d = (s.dev.setPort p { x with up := true, aligned := true }).sends p (.idle true)) ∧
        (d.link.uturn ≠ l.uturn → wb (s.dev.lv (bLINK + 0xC)) 18 = true → d.intc.pend.getLsbD 164 = true)) ∧
      exec (.delayProbeAnswer p t) s = .next (s.on (fun d => d.sends p (.delayReply t))) ∧
      (x.up = true → exec (.delayProbe p) s =
        .next (s.on (fun d => (d.setPort p { x with probeAt := some d.nowN }).sends p .probe))) ∧
      (x.probeAt ≠ none → s.yields (.delayReply p trip t) (fun d =>
        let m := ((trip - t.toNat) :: x.meas).take 16
        (d.port p).meas = m ∧ (d.port p).probeAt = none ∧ (d.port p).valid = decide (15 ≤ x.meas.length) ∧
        ∃ q, (d.port p).dly = q % 0x100000 ∧ 2 * m.length * q < m.sum + 2 * m.length ∧
          m.sum < 2 * m.length * q + 2 * m.length)) ∧
      (x.up = true → o.up = true → l.head = false →
        exec (.ringProbe p) s = .next (s.on (fun d => d.sends p.other .ringProbe)) ∧
        (o.turned = false → s.yields (.frameAbort p) (fun d => sent d p.other = .abort ∧ void d))) ∧
      (l.la.up = true → l.head = true → l.healFrom = none → s.yields (.ringProbe .la) (fun d =>
        d.link.healFrom = some s.dev.nowN ∧ d.link.rpWait = false)) ∧
      (x.up = true → l.head = true → s.yields (.frameAbort p) (fun d => d.link.closed = false)) ∧
      (let b := s.dev.passTo (t0 + wf (s.dev.lv (bLINK + 0x258)) 23 0)
       l.healFrom = some t0 → l.head = true → l.closed = false → l.rpWait = false → l.la.up = true → l.lb.up = true →
        b.linkAlive = true → b.link = l → b.lv (bLINK + 0x258) = s.dev.lv (bLINK + 0x258) →
        s.yields .ringClosure (fun d => d.link = { l with closed := true, healFrom := none } ∧ d.time = b.time))) ∧
    (x.up = true → s.yields (.portDown p) (fun d => (d.port p).up = false ∧ (d.port p).turned = !l.head ∧
      cnt d (2 + p.num) = satInc 16 (cnt s.dev (2 + p.num)) ∧ wb d.link.errf 1 = true ∧ sent d p = .idle x.aligned ∧ void d ∧
      (wb (s.dev.lv (bLINK + 0xC)) 18 = true → d.intc.pend.getLsbD 164 = true) ∧
      (l.head = false → o.up = true → s.dev.nowN < x.txEnd ∨ (o.cross = true ∧ s.dev.nowN + 48 < o.txEnd) →
        sent d p.other = .abort) ∧
      (l.head = true ∨ o.up = false ∨ (x.txEnd ≤ s.dev.nowN ∧ o.cross = false) → sent d p.other = sent s.dev p.other))) ∧
    (x.up = false → exec (.portDown p) s = .next s) ∧
    exec (.codeGroupAlignment p gained) s =
      .next (s.on (fun d => (d.setPort p { x with aligned := gained }).sends p (.idle gained))) ∧
    (s.dev.powered = true → s.yields (.symbolError p) (fun d =>
      cnt d p.num = satInc 16 (cnt s.dev p.num) ∧ wb d.link.errf 0 = true)) ∧
    (let b := s.dev.passTo (t0 + 400001)
     l.goodAt = some t0 → l.sync = true → b.link.goodAt = some t0 → b.link.sync = true → s.yields .syncLoss (fun d =>
      d.link.sync = false ∧ d.time = b.time))

/-- R731, R734, R737, R738, R739, R746, R757: a member that processes a yard, one received on LA away from the head or on LB
towards it, sends it on with HOP + 1, its cable and node delay added to ACCDLY, the header check right, and the frame check right where
it was; it stores SEQ and the time offset, and waits for /T/ with the rest. R736, R740 to R744: without a stall of its own the stall area
goes on as it came; with one, the bytes of an OUT entry are replaced by the register's, and the words of its IN entries wait for /T/. A
yard whose header check fails is counted and sent on with a wrong check. What a frame before it on the port still owes comes first.
R739, R744: at /T/ after a correct frame check the IN words are written, and after a wrong one, which is counted, none is. -/
def Obligations.MembersProcessYards : Prop :=
  (∀ (s : State) (p : Port) (vern : Fin 32) (f : YardFrame),
    let b := s.dev.frameStart p
    let l := b.link
    let k := f.stream
    let dly := (b.port p).dly
    let sent := fun (d : Device) => match p with | .la => d.link.sentB | .lb => d.link.sentA
    let ends := fun (d : Device) (ok : Bool) (ins : Option (List (Nat × Word))) =>
      d.link.ends = l.ends ++ [{ at' := b.nowN + 16 * (f.len - 1), port := p, ok := ok, k := k, ins := ins }]
    let own := b.stallOf k
    let es := b.mapOf k own.2.1 own.2.2
    let ins := (es.filter (fun e => e.ok && !e.out)).map (fun e =>
      let v := leNat ((f.stall.drop (own.1 + e.ofs)).take e.w)
      (e.addr, wd (if e.w = 4 then v else v + 0x10000 * e.upper)))
    let goes := fun (d : Device) (stall : List Byte) (right : Bool) =>
      (∃ g, sent d = .yard g ∧ g.hop = f.hop + 1 ∧ g.accdly = wd (f.accdly.toNat + dly + 1024) ∧
        g.hchk = g.check ∧ (g.crc = g.crcOf ↔ right = true) ∧ g.stall = stall ∧ g.seq = f.seq ∧ g.ty = f.ty ∧ g.flags = f.flags) ∧
      d.link.yseq.get (fun _ => 0) k = f.seq ∧
      d.link.tofs = BitVec.ofInt 64 ((f.ty.toNat : Int) * 32 + (f.accdly.toNat + dly : Nat) - (32 * b.nowN + vern.val : Nat)) ∧
      d.link.rc = f.isRc
    s.dev.linkAlive = true → s.dev.link.head = false → (s.dev.port p).up = true → l.head = false → l.la.up = true → l.lb.up = true →
    l.la.turned = false → l.lb.turned = false → b.rst.unitBusy.getLsbD 9 = false → f.dir = decide (p = .lb) →
    (f.hchk = f.check → own.2 = (0, 0) → s.yields (.yard p vern f) (fun d =>
      goes d f.stall (decide (f.crc = f.crcOf)) ∧ ends d (decide (f.crc = f.crcOf)) none)) ∧
    (f.hchk = f.check → b.rst.phase ≠ .warm → 0 < own.2.1 + own.2.2 → own.1 + own.2.1 + own.2.2 ≤ f.ylen.toNat →
      (es.filter (fun e => e.ok && e.out) = [] → s.yields (.yard p vern f) (fun d =>
        goes d f.stall (decide (f.crc = f.crcOf)) ∧ ends d (decide (f.crc = f.crcOf)) (some ins))) ∧
      (∀ e v, es.filter (fun e => e.ok && e.out) = [e] → b.noTag 5 = false → b.readReg .link e.addr = (b, .ok v) →
        s.yields (.yard p vern f) (fun d =>
          goes d (putBytes f.stall (own.1 + own.2.1 + e.ofs) (toBytes e.w v.toNat)) (decide (f.crc = f.crcOf)) ∧
          ends d (decide (f.crc = f.crcOf)) (some ins)))) ∧
    (f.hchk ≠ f.check → s.yields (.yard p vern f) (fun d =>
      (∃ g, sent d = .yard g ∧ g.hop = f.hop + 1 ∧ g.hchk ≠ g.check) ∧
      d.link.ecnt.get (fun _ => 0) 4 = satInc 16 (l.ecnt.get (fun _ => 0) 4) ∧ wb d.link.errf 2 = true ∧
      d.link.yseq = l.yseq ∧ d.link.tofs = l.tofs))) ∧
  (∀ (d : Device) (x : YardEnd) (a : Nat) (v : Word) (d1 : Device) (u : Word),
    let e := { d with link := { d.link with ends := d.link.ends.erase x } }
    (x.ok = true → x.ins = some [(a, v)] → d.rst.phase ≠ .warm → e.noTag 5 = false → e.writeReg .link a v = (d1, .ok u) →
      d.endNow x = d1.raiseEvent (212 + x.k)) ∧
    (x.ok = true → x.ins = none → d.endNow x = e) ∧
    (x.ok = false → (d.endNow x).rw = d.rw ∧ wb (d.endNow x).link.errf 3 = true ∧
      (d.endNow x).link.ecnt.get (fun _ => 0) 5 = satInc 16 (d.link.ecnt.get (fun _ => 0) 5)))

/-- R733, R749, R751, R755, R763 to R765, R767: the head sends the yard that is due, once the frame before it and its gap have
ended, with the next SEQ, twice where the ring is open; it takes the ring delay and HOP of a returned yard, sends /RC/ on a write
of LINK_HRST (on both ports, log 67), ignores a YLEN above 2,048; its errand waits for its return, which reports the handle, or
for LINK_RTTO (whose effect comes in the tick after it, log 91, and after which no return is taken; a copy that came back without an answer counts as the return, log
67); a yard event falls due. R753, R754: two identical sets of /RC/ that name the node cause a warm reset with cause LINK, and the
node does not act on /RC/ again until 1 ms has passed. -/
def Obligations.HeadAndResetCommand : Prop :=
  (∀ (s : State) (who : Who) (v : Word) (k : Fin 4) (t : Nat) (p : Port) (vern : Fin 32) (f : YardFrame) (e : ErrFrame)
      (x : HeadErr) (y : YardEv) (l' : List YardEv) (d1 d2 : Device) (hd data : List Byte) (w : Word) (ws : List Word),
      let l := s.dev.link
      let h := w.toNat % 0x10000
      let up := l.head && s.dev.linkRuns
      let reports := fun (b d : Device) (v : Word) => (b.queC b.rxq).en = true → (b.queC b.rxq).words.length < (b.queC b.rxq).cap →
        b.tagFreeFor .link = true → b.rst.unitBusy.getLsbD 2 = false → (d.queC b.rxq).words = (b.queC b.rxq).words ++ [v]
      let rtto := wf (s.dev.lv (bLINK + 0x254)) 23 0
      let bd := s.dev.passTo (max t s.dev.headFree)
      let be := s.dev.passTo s.dev.headFree
      let bt := s.dev.passTo (x.at' + rtto + 1)
      (s.dev.reaches who bLINK = true → l.head = true →
        s.yields (.linkHrst who v) (fun d => ∃ c : RcSet, d.link.sentA = .resetCmd c c ∧ d.link.sentB = .resetCmd c c ∧
          c.a = v.setWidth 8 ∧ c.b = ~~~ c.a ∧ c.m = (v >>> 8).setWidth 8) ∧
        (2048 < wf v 27 16 → exec (.hycfgWrite who k v) s = s.wrote who id) ∧
        (wf v 27 16 ≤ 2048 → s.yields (.hycfgWrite who k v) (fun d => d.hycfg k = v &&& 0x0FFF0003))) ∧
      (s.dev.reaches who bLINK = true → exec (.linkRtimeLoRead who) s =
        s.gave who (s.dev.ringTime.setWidth 32) (fun d => d.capture pairRtime (whoIdx who) s.dev.ringTime)) ∧
      (up = true → s.dev.mustWait 5 = false → s.dev.nextYard = some (k.val, t) → s.yields .yardDue (fun d =>
        let leaves := fun (x : Sent) (dir : Bool) =>
          ∃ g, x = .yard g ∧ g.seq = bd.link.hseq.get (fun _ => 0) k + 1 ∧ g.hop = 0 ∧ g.accdly = 0 ∧ g.dir = dir ∧
            g.stream = k.val ∧ g.hchk = g.check ∧ g.crc = g.crcOf ∧ g.isRc = bd.link.closed
        d.time = bd.time ∧ leaves d.link.sentB false ∧ (bd.link.closed = false → leaves d.link.sentA true))) ∧
      (s.dev.mustWait 5 = true → exec .yardDue s = .next s) ∧
      (up = true → (s.dev.port p).up = true → f.check = f.hchk → f.crcOf = f.crc → s.yields (.headYardReturn p vern f) (fun d =>
        let r := d.link.hret.get (fun _ => 0) f.stream
        d.link.rdly = BitVec.ofNat 24 (f.accdly.toNat + (s.dev.port p).dly) ∧
        (if f.dir then wf r 15 8 else wf r 7 0) = f.hop.toNat ∧ wf r 31 16 = f.seq.toNat)) ∧
      (let b := s.dev.passTo (l.yevTick y)
       s.dev.linkRuns = true → (popDue k l.yevDue).map Prod.fst = some y → b.linkRuns = true → popDue k b.link.yevDue = some (y, l') →
        b.link.yevTick y ≤ b.nowN → s.yields (.yardEvent k) (fun d => d.link.yevDue = l' ∧
          d.time = b.time ∧ (y.late = true → wb d.link.errf 8 = true) ∧
          (wb (b.lv (bLINK + 0xC)) 17 = true → d.intc.pend.getLsbD 162 = true))) ∧
      (s.dev.linkRuns = false → exec (.yardEvent k) s = .next s) ∧
      (s.dev.errandReady = true → be.errandReady = true → be.headFree ≤ be.nowN → (be.queC be.txq).en = true →
        (be.queC be.txq).words = w :: ws → be.queEcc be.txq = .good →
        (be.probeNow.quePop be.txq).1.bytesIn .link (bufAddr (h % 1024)) 10 = (d1, some hd) →
        d1.bytesIn .link (bufAddr (h % 1024) + 10) (min 112 ((hd.drop 8).headD 0).toNat) = (d2, some data) →
        s.yields .errandSend (fun d => (∃ y, d.link.flight = some y ∧ y.handle = h ∧ y.tag = (hd.drop 2).headD 0) ∧
          ∃ g, d.link.sentB = .errand g ∧ g.tag = (hd.drop 2).headD 0 ∧ g.dir = false ∧ g.crc = g.crcOf)) ∧
      (l.flight = some x →
        (up = true → (s.dev.port p).up = true → e.tag = x.tag →
          (s.dev.nowN ≤ x.at' + rtto → e.crc = e.crcOf → e.stat ≠ 0 → s.yields (.errandReturn p e) (fun d =>
            d.link.flight = none ∧ reports s.dev d (wd x.handle))) ∧
          (x.at' + rtto < s.dev.nowN → exec (.errandReturn p e) s = .next s)) ∧
        (s.dev.linkRuns = true → bt.linkRuns = true → bt.link.flight = some x → bt.rtto = rtto →
          (x.back = false → s.yields .errandReturnTimeout (fun d =>
            d.link.flight = none ∧ d.time = bt.time ∧ wb d.link.errf 10 = true ∧
            d.link.ecnt.get (fun _ => 0) 7 = satInc 16 (bt.link.ecnt.get (fun _ => 0) 7) ∧ reports bt d (wd (x.handle + 0x80000000)))) ∧
          (x.back = true → s.yields .errandReturnTimeout (fun d =>
            d.link.flight = none ∧ d.time = bt.time ∧ reports bt d (wd x.handle)))))) ∧
  (∀ (s : State) (p : Port) (s1 s2 : RcSet) (gap t : Nat),
      (s.dev.rst.phase = .run → s.dev.rcForMe s1 s2 gap = true → s.yields (.resetCommand p s1 s2 gap) (fun d =>
        d.rst.phase = .warm ∧ wb d.rst.cause 11 = true ∧ d.link.rcAt = some s.dev.nowN)) ∧
      (s.dev.rcForMe s1 s2 gap = false → s.yields (.resetCommand p s1 s2 gap) (fun d => d.rst = s.dev.rst)) ∧
      (let b := s.dev.passTo (t + 200000)
       s.dev.link.rcAt = some t → b.link.rcAt = some t → s.yields .resetCommandHoldEnd (fun d =>
        d.link.rcAt = none ∧ d.time = b.time)))

/-- R757 to R762: at the member it names, a REQ is stored under its tag or answered BUSY, with SHED_ERR.EMPTY where the shed has
no free buffer (R620); a COLLECT fetches an answer, or reports WAIT, NOTAG or SPACE, and in the tick of expiry stops the hold timer
(R82); a DROP releases the errand, whatever its LEN, and so does the end of LINK_HOLD, in the tick after its expiry (the model's reading, log 91);
a frame answered before is marked DUP, a REQ or COLLECT with LEN above 112 is refused. R131, R890: an answer that the link controller has no tag
to read is not ready (log 101), and a REQ for a shed in reset is stored once that serves again. -/
def Obligations.ErrandsOfAMember : Prop :=
  ∀ (s : State) (f : ErrFrame) (e : Errand) (tag : Byte) (d1 d2 : Device) (h v : List Byte),
    let b := s.dev.errandStart .la
    let l := b.link
    let named : Prop := s.dev.linkAlive = true ∧ s.dev.link.head = false ∧ s.dev.link.la.up = true ∧ l.head = false ∧
      l.lb.up = true ∧ l.lb.turned = false ∧ b.rst.unitBusy.getLsbD 9 = false ∧ b.rst.phase = .run ∧ f.dir = false ∧
      l.addr ≠ 0 ∧ f.addr = l.addr ∧ f.crc = f.crcOf
    let mine : Prop := named ∧ f.stat = 0 ∧ f.len.toNat ≤ 112
    let answers := fun (c : Instr) (st : Byte) (q : Device → Prop) => s.yields c (fun d =>
      (∃ g, d.link.sentB = .errand g ∧ g.stat = st ∧ g.tag = f.tag ∧ g.crc = g.crcOf) ∧ q d)
    (named → f.stat ≠ 0 →
      (f.kind = 1 → answers (.errandReq .la f) 6 (fun d => wb d.link.errf 7 = true)) ∧
      (f.kind = 2 → answers (.errandCollect .la f) 6 (fun d => wb d.link.errf 7 = true)) ∧
      (f.kind = 3 → answers (.errandDrop .la f) 6 (fun d => wb d.link.errf 7 = true))) ∧
    (named → f.stat = 0 → 112 < f.len.toNat →
      (f.kind = 1 → answers (.errandReq .la f) 10 (fun d => d.link.errands = l.errands)) ∧
      (f.kind = 2 → answers (.errandCollect .la f) 10 (fun d => d.link.errands = l.errands))) ∧
    (mine → f.kind = 1 → b.rst.unitBusy.getLsbD 3 = true → b.errandOf f.tag = none → l.errands.length < 4 → b.shed.free ≠ [] →
      answers (.errandReq .la f) 1 (fun d => d.link.errands = l.errands ∧ LinkWork.store f ∈ d.link.work)) ∧
    (mine → f.kind = 1 → b.rst.unitBusy.getLsbD 3 = false →
      (b.errandOf f.tag = some e → e.st ≠ .collected → answers (.errandReq .la f) 1 (fun d =>
        d.link.errands = l.errands)) ∧
      (b.errandOf f.tag = some e → e.st = .collected → (b.bufC e.buf).owner ≠ 7 → (b.bufC e.buf).gen = e.gen →
        answers (.errandReq .la f) 1 (fun d => ∃ x ∈ d.link.errands, x.tag = f.tag ∧ x.st = .stored)) ∧
      (b.errandOf f.tag = none → l.errands.length < 4 → b.shed.free ≠ [] →
        answers (.errandReq .la f) 1 (fun d => ∃ x ∈ d.link.errands, x.tag = f.tag ∧ x.st = .stored)) ∧
      (b.errandOf f.tag = none → 4 ≤ l.errands.length → answers (.errandReq .la f) 4 (fun d =>
        d.link.errands = l.errands ∧ d.link.ecnt.get (fun _ => 0) 7 = satInc 16 (l.ecnt.get (fun _ => 0) 7))) ∧
      (b.errandOf f.tag = none → l.errands.length < 4 → b.shed.free = [] → answers (.errandReq .la f) 4 (fun d =>
        d.link.errands = l.errands ∧ wb d.shed.err 3 = true))) ∧
    (mine → f.kind = 2 →
      (b.errandOf f.tag = none → answers (.errandCollect .la f) 5 (fun _ => True)) ∧
      (b.errandOf f.tag = some e → b.mustWait 5 = true → answers (.errandCollect .la f) 3 (fun _ => True)) ∧
      (b.errandOf f.tag = some e → e.st = .stored ∨ e.st = .forwarded ∨ b.workAt e = true →
        answers (.errandCollect .la f) 3 (fun d => d.link.errands = l.errands.map (fun x =>
          if x.tag = f.tag ∧ x.at' + b.holdTicks = b.nowN then { x with kept := true } else x))) ∧
      (b.errandOf f.tag = some e → e.st = .answered → b.workAt e = false → b.mustWait 5 = false → (b.holdStop f.tag).bytesIn .link (bufAddr e.buf) 10 = (d1, some h) →
        f.len < (h.drop 9).headD 0 → answers (.errandCollect .la f) 8 (fun d => d.link.errands = d1.link.errands)) ∧
      (b.errandOf f.tag = some e → e.st = .answered → b.workAt e = false → b.mustWait 5 = false → (b.holdStop f.tag).bytesIn .link (bufAddr e.buf) 10 = (d1, some h) →
        (h.drop 9).headD 0 ≤ f.len →
        d1.bytesIn .link (bufAddr e.buf + 10) ((h.drop 9).headD 0).toNat = (d2, some v) →
        d2.link = (b.holdStop f.tag).link → answers (.errandCollect .la f) 2 (fun d =>
          (∃ g, d.link.sentB = .errand g ∧ g.rlen = (h.drop 9).headD 0 ∧ g.code = (h.drop 7).headD 0) ∧
          ∀ x ∈ d.link.errands, x.tag = f.tag → x.st = .collected))) ∧
    (named → f.stat = 0 → f.kind = 3 →
      (b.errandOf f.tag = some e → answers (.errandDrop .la f) 9 (fun d => d.errandOf f.tag = none)) ∧
      (b.errandOf f.tag = none → answers (.errandDrop .la f) 5 (fun d => d.link.errands = l.errands))) ∧
    (let b := s.dev.passTo (e.at' + s.dev.holdTicks + 1)
     s.dev.linkRuns = true → s.dev.errandOf tag = some e → e.kept = false → b.linkRuns = true → b.errandOf tag = some e →
      b.holdTicks = s.dev.holdTicks → s.yields (.errandHoldExpiry tag) (fun d =>
        d.errandOf tag = none ∧ wb d.link.errf 9 = true ∧ d.time = b.time)) ∧
    (s.dev.errandOf tag = some e → e.kept = true → exec (.errandHoldExpiry tag) s = .next s)

/-! ### The object dictionary -/

/-- R776 to R790: the oldest stored errand is answered: an index or a subindex that is not served and an operation that is none
with their codes, an INFO request with the entry's description, another operation when its unit is not in reset; one for an
application index is forwarded to the queue of LINK_FWDQ, or answered when that is full; a forwarded errand is answered by OD_ANSWER
of its owner's handle, RANGE for one that is too long, or by the timeout, in the tick after its expiry (the model's reading, log 91); another
answer sets BADANS. R131: the engine waits for a tag before it reads an errand. -/
def Obligations.ErrandsAreServed : Prop :=
  ∀ (s : State) (who : Who) (v : Word) (e : Errand) (d1 : Device) (h : List Byte) (rows : List OdEnt) (en : OdEnt)
    (hnd : BitVec 16),
    let b := fun i => ((h.drop i).headD 0).toNat
    let ix := b 4 + 0x100 * b 5
    let q := d1.queC d1.fwdq
    let done := fun (d : Device) => ∀ x ∈ d.link.errands, x.tag = e.tag → x.st = .answered
    let code := fun (n : Byte) (d : Device) => done d ∧ (d.bytesIn .link (bufAddr e.buf + 7) 1).2 = some [n]
    let oldest := s.dev.link.errands.find? (fun e => decide (e.st = .stored))
    (oldest = none ∨ s.dev.blockBusy bOD = true ∨ s.dev.worksFor 7 = true → exec .errandServe s = .next s) ∧
    (oldest = some e → s.dev.blockBusy bOD = false → s.dev.worksFor 7 = false →
      (s.dev.workAt e = true → exec .errandServe s = .next s) ∧
      (s.dev.workAt e = false → s.dev.tagBars 7 = true → exec .errandServe s = .next (s.on (fun d => d.engWait 7)))) ∧
    (oldest = some e → s.dev.blockBusy bOD = false → s.dev.worksFor 7 = false → s.dev.workAt e = false → s.dev.tagBars 7 = false →
      s.dev.engOf 7 = .idle → s.dev.bytesIn .od (bufAddr e.buf) 10 = (d1, some h) →
      (isApp ix = true → wb (d1.lv bOD) 0 = false → s.yields .errandServe (code 0x10)) ∧
      (isApp ix = true → wb (d1.lv bOD) 0 = true → (d1.bufC e.buf).owner ≠ 7 → (d1.bufC e.buf).gen = e.gen →
        d1.rst.unitBusy.getLsbD 2 = false →
        (q.en = true → q.words.length < q.cap → s.yields .errandServe (fun d =>
          (d.queC d1.fwdq).words = q.words ++ [wd (d1.handleOf e.buf)] ∧ (d.bufC e.buf).owner = wf (d1.lv (aQueOwn d1.fwdq)) 1 0 ∧
          ∀ x ∈ d.link.errands, x.tag = e.tag → x.st = .forwarded ∧ x.fwdAt = d1.nowN)) ∧
        (q.en = false ∨ q.cap ≤ q.words.length → s.yields .errandServe (code 0x1A))) ∧
      (isApp ix = false →
        (odRows ix = none → s.yields .errandServe (code 0x10)) ∧
        (odRows ix = some rows → odSub rows (b 6) = none → s.yields .errandServe (code 0x11)) ∧
        (odRows ix = some rows → odSub rows (b 6) = some en →
          (b 7 = 3 → s.yields .errandServe (code 0)) ∧
          (b 7 = 0 ∨ 4 < b 7 → s.yields .errandServe (code 0x12)) ∧
          ((b 7 = 1 ∨ b 7 = 4) → en.cls = 4 → s.yields .errandServe (code 0x14)) ∧
          (b 7 = 1 ∨ b 7 = 2 ∨ b 7 = 4 → d1.blockBusy en.tgt.block = false → d1.tagBars 7 = false → s.yields .errandServe done) ∧
          (b 7 = 2 → d1.blockBusy en.tgt.block = false → d1.tagBars 7 = false → accessOf en.cls < 2 →
            s.yields .errandServe (code 0x13))))) ∧
    (s.dev.reaches who bOD = true →
      (s.dev.answerFor who (wf v 15 0) = none → exec (.odAnswer who v) s = s.wrote who (fun d =>
        ({ d with od := { d.od with stat := d.od.stat ||| 1 } }).hwFlag (bOD + 4) 1)) ∧
      (s.dev.answerFor who (wf v 15 0) = some e → s.dev.mustWait 7 = true → s.yields (.odAnswer who v) (fun d =>
        done d ∧ LinkWork.ans e.tag ∈ d.link.work)) ∧
      (s.dev.answerFor who (wf v 15 0) = some e → s.dev.mustWait 7 = false → s.dev.bytesIn .od (bufAddr e.buf) 10 = (d1, some h) →
        (b 9 ≤ 112 → s.yields (.odAnswer who v) done) ∧ (112 < b 9 → s.yields (.odAnswer who v) (code 0x16)))) ∧
    (let x := s.dev.passTo (e.fwdAt + wf (s.dev.lv (bOD + 8)) 23 0 + 1)
     s.dev.forwarded (hnd.toNat % 1024) = some e → (s.dev.bufC e.buf).gen = hnd.toNat / 0x1000 → x.forwardOf hnd = some e →
      x.lv (bOD + 8) = s.dev.lv (bOD + 8) → s.yields (.forwardTimeout hnd) (fun d => done d ∧ d.time = x.time))

/-! ### The configuration sets -/

/-- R798 to R801, R804, R805: ARM reads the swap point and starts the checks, a time that has passed is refused; CANCEL
and DISCARD; ARM and DISCARD outside IDLE set REARM; a write that is neither trusted supervisor code's nor the OD engine's
is SUB = TRUST; the checks end in READY or in a refusal with its reasons. Two clauses rest on the model's readings: ARM clears EXCH
(log 70), and who supervisor code is (log 99). -/
def Obligations.SwapCommands : Prop :=
  ∀ (s : State) (who : Who) (d1 d2 : Device) (codes : List Nat),
    let w := s.dev.swap
    let pt := s.dev.lv (bSYS + 0x104)
    let t : DWord := s.dev.lv (bSYS + 0x10C) ++ s.dev.lv (bSYS + 0x108)
    let nx := fun (x : Swap) => s.wrote who (fun d => { d with swap := x })
    let rearms := s.wrote who (fun d => ({ d with swap := { w with rearm := true } }).hwFlag (bSYS + 0x110) 0x40)
    (s.dev.reaches who bSYS = true → who = .od ∨ s.dev.codeReaches who bSYS = true →
      (w.st = .idle →
        (s.dev.swapPast (wf pt 1 0) t = false → exec (.swapArm who) s =
          nx { w with st := .check, mode := wf pt 1 0, stream := wf pt 5 4, at' := t, hit := false, exch := false }) ∧
        (s.dev.swapPast (wf pt 1 0) t = true → s.yields (.swapArm who) (fun d =>
          d.swap.st = .idle ∧ d.swap.result = 2 ∧ d.swap.reason = 1 ∧ d.intc.pend.getLsbD 168 = true)) ∧
        exec (.swapCancel who) s = s.wrote who id ∧
        s.yields (.swapDiscard who) (fun d => d.shadow = s.dev.active ∧ d.active = s.dev.active)) ∧
      (w.st ≠ .idle →
        exec (.swapArm who) s = rearms ∧ exec (.swapDiscard who) s = rearms ∧
        exec (.swapCancel who) s = nx { w with st := .idle, result := 3, hit := false })) ∧
    (s.dev.reaches who bSYS = true → who ≠ .od → s.dev.codeReaches who bSYS = false →
      exec (.swapArm who) s = s.denied who (bSYS + 0x100) 2 ∧ exec (.swapCancel who) s = s.denied who (bSYS + 0x100) 2 ∧
      exec (.swapDiscard who) s = s.denied who (bSYS + 0x100) 2) ∧
    (w.st = .check → s.dev.liveCodes = (d1, codes) → d1.swap = w →
      (s.dev.setConflict s.dev.shd = false → codes = [] → d1.checkEcc = (d2, false) → d2.swap = w →
        s.yields .setCheckDone (fun d => d.swap = { w with st := .ready, hit := false })) ∧
      (s.dev.setConflict s.dev.shd = false → codes = [] → d1.checkEcc = (d2, true) → d2.swap = w →
        s.yields .setCheckDone (fun d => d.swap.st = .idle ∧ d.swap.result = 2 ∧ d.swap.reason = 10 ∧
          wb d.swap.reasons 26 = true)) ∧
      (s.dev.setConflict s.dev.shd = true ∨ codes ≠ [] → s.yields .setCheckDone (fun d =>
        d.swap.st = .idle ∧ d.swap.result = 2 ∧ (s.dev.setConflict s.dev.shd = true → wb d.swap.reasons 20 = true) ∧
        (∀ k ∈ codes, wb d.swap.reasons (16 + k) = true) ∧ d.intc.pend.getLsbD 168 = true))) ∧
    (w.st ≠ .check → exec .setCheckDone s = .next s)

/-- R25, R796, R797, R802, R803: at the swap point of a READY swap, with MODE NOW, at TIME, at RING time with SYNC or as the head, or
after its yard event, every active copy takes its shadow value in one step, the generation moves on and source 167 is raised; when a
check fails there, nothing is taken; at TIME or RING time a swap whose checks still run is refused with reason 2, and one at RING time
without SYNC with reason 3; a swap that waits for its yard event goes on waiting. Shadow writes of the swap tick are applied after it.
R808, R810, R811: an exchange of programs moreover sets RST_ENTRY and the boot bank, writes the handover block with the state
of each core, and has each core that is not halted restart with the new ENTRY and STACK once it reaches its boundary. -/
def Obligations.SwapTakesEveryRegister : Prop :=
  ∀ (s : State) (entry stack : Word),
    let w := s.dev.swap
    let h := s.dev.here
    let u := s.dev.unwritten
    let b := s.dev.pass s.dev.swapPointTick
    let x := b.swap
    let comes : Prop := x.mode = 0 ∨ x.mode = 1 ∨ (x.mode = 2 ∧ (b.link.head = true ∨ b.link.sync = true)) ∨ (x.mode = 3 ∧ x.hit = true)
    let nb := wf (b.shd aSwBank) 0 0
    let refused := fun (why : Nat) => s.yields .setSwap (fun d =>
      d.active = b.active ∧ d.shadow = b.shadow ∧ d.swap.st = .idle ∧ d.swap.result = 2 ∧ wb d.swap.reasons (16 + why) = true)
    (h.undo ≠ [] → h.locks = 0 → w.st ≠ .idle → w.mode = 0 → u.swap.st = .ready → u.swapExch = false → u.liveCodes.2 = [] →
      s.yields .setSwap (fun d => ∀ a, d.act a = u.shd a ∧ d.shd a = s.dev.shd a)) ∧
    (w.st ≠ .idle → s.dev.swapGone = false → b.here.undo = [] → b.here.undoSt ≠ some .ready →
      (x.st = .ready → comes →
        (b.liveCodes.2 = [] → s.yields .setSwap (fun d =>
          (∀ a, d.act a = b.shd a) ∧ d.shadow = b.shadow ∧ d.swap.st = .idle ∧ d.swap.result = 1 ∧
          d.swap.gen = x.gen + 1 ∧ d.intc.pend.getLsbD 167 = true ∧ d.time = b.time)) ∧
        (b.liveCodes.2 ≠ [] → s.yields .setSwap (fun d =>
          d.active = b.active ∧ d.shadow = b.shadow ∧ d.swap.st = .idle ∧ d.swap.result = 2 ∧ d.swap.gen = x.gen)) ∧
        (b.liveCodes.2 = [] → b.swapExch = true → (b.bootHeader 15 nb).2 = some (entry, stack) → s.yields .setSwap (fun d =>
          d.lv aBootSel = wd nb ∧ ∀ c, c < 4 →
            let k := b.coreC c
            d.lv (aEntry c) = entry ∧
            (k.st = .running ∨ k.st = .asleep → (d.coreC c).hand = some (entry, stack) ∧ (d.coreC c).handed = k.halted ∧
              (d.coreC c).pc = k.pc) ∧
            (b.memIdle 0x1007FC00 = false → d.rdLe 0x1007FC00 4 = 0x00014858 ∧ d.rdLe 0x1007FC08 4 = wd b.nowN ∧
              d.rdLe 0x1007FC10 4 = (x.gen + 1).setWidth 32 ∧
              (k.st = .running ∨ k.st = .asleep → d.rdLe (0x1007FC20 + 0x20 * c) 4 = k.pc ∧
                d.rdLe (0x1007FC24 + 0x20 * c) 4 = k.status ∧
                d.rdLe (0x1007FC30 + 0x20 * c) 4 = if k.halted then 3 else if k.st = .running then 1 else 2))))) ∧
      (x.mode = 1 ∨ x.mode = 2 → x.st = .check → refused 2) ∧
      (x.mode = 2 → b.link.head = false → b.link.sync = false → refused 3)) ∧
    (w.st ≠ .idle → w.mode = 3 → w.hit = false → h.undo = [] → h.undoSt ≠ some .ready → exec .setSwap s = .next s)

/-! ### The debug port -/

/-- R822, R825 to R828, R830, R854: the codes of the TAP; its instructions are loaded; EXTEST, CLAMP and HIGHZ drive the pins and
bring FREEZE into force at the level full and are refused with BSREF below it; an access under DBGACC is answered OK, where
the level refuses it ERROR, and WAIT while the one before has not completed, in which case nothing else happens: the capture after
it shows WAIT. When an access has not completed the spec leaves open: a free value, in the tick of the access before (log 105). -/
def Obligations.TapInstructions : Prop :=
  ∀ (s : State) (cells : List (Nat × BitVec 3)) (wr : Bool) (a : BitVec 14) (v : Word),
    let g := s.dev.dbg
    let nx := fun (g : Dbg) => (.next (s.on (fun d => { d with dbg := g })) : Host.Outcome State Fault Refusal)
    let drives := fun (c : Instr) (code : BitVec 5) (l : Tab (BitVec 3)) =>
      (g.level = 2 → s.yields c (fun d => d.dbg.ir = code ∧ d.dbg.shown = some l ∧ d.dbg.inForce = true)) ∧
      (g.level ≠ 2 → exec c s = nx { g with ir := code, shown := none, bsref := true })
    let waits : Prop := g.accAt = some s.dev.nowN ∧ (g.waitAt = some s.dev.nowN ∨ Config.dbgBusy s.dev.free = true)
    exec .idcode s = nx { g with ir := 2, shown := none } ∧
    exec .dbgacc s = nx { g with ir := 8, shown := none } ∧
    exec .bypass s = nx { g with ir := 31, shown := none } ∧
    exec .tapReset s = nx { g with ir := 2, shown := none, bsref := false } ∧
    s.yields (.samplePreload cells) (fun d => d.dbg.ir = 1 ∧ d.dbg.shown = none ∧
      ∀ j, d.dbg.cells.get (fun _ => 0) j =
        match cells.reverse.find? (fun x => decide (x.1 = j)) with
        | some x => x.2
        | none => g.cells.get (fun _ => 0) j) ∧
    drives .extest 0 g.cells ∧ drives .clamp 3 g.cells ∧ drives .highz 4 [] ∧
    (∀ code : BitVec 5, tapIrOf code = if code = 0 then .extest else if code = 1 then .samplePreload
      else if code = 2 then .idcode else if code = 3 then .clamp else if code = 4 then .highz else if code = 8 then .dbgacc
      else .bypass) ∧
    (tapIrOf g.ir = .dbgacc → g.waitAt ≠ some s.dev.nowN → g.ack = 1 → s.dev.tapCapture = (1 : BitVec 16) ++ g.data) ∧
    (s.dev.powered = true → tapIrOf g.ir = .dbgacc →
      (waits → s.yields (.debugAccess wr a v) (fun d => d.dbg = { g with waitAt := some s.dev.nowN } ∧
        d.tapCapture = (2 : BitVec 16) ++ (0 : Word) ∧ d.core = s.dev.core ∧ d.rw = s.dev.rw)) ∧
      (¬ waits →
        s.yields (.debugAccess false 0 v) (fun d => d.dbg.ack = 1 ∧ d.dbg.data = s.dev.dbgStat ∧ d.core = s.dev.core) ∧
        (1 ≤ g.level → s.yields (.debugAccess true 0x20 v) (fun d =>
          d.dbg = { g with ack := 1, maddr := v, accAt := some s.dev.nowN })) ∧
        (g.level = 0 → 16 ≤ a.toNat → s.yields (.debugAccess wr a v) (fun d =>
          d.dbg = { g with ack := 3, accAt := some s.dev.nowN })))) ∧
    (tapIrOf g.ir ≠ .dbgacc → exec (.debugAccess wr a v) s = .next s)

/-- R831, R833, R835 to R837: CHECK is refused with its result in the closed mode, when locked, during the delay and in the
challenge mode without a challenge, else it runs; its success raises the level up to the maximum, its failure starts the
delay or locks; NEWCHAL and DROP. The delay is counted in ticks of the stable oscillator's nominal period, the model's choice
(log 21). -/
def Obligations.Authorisation : Prop :=
  ∀ (s : State) (lv : BitVec 2) (l t : Nat),
    let g := s.dev.dbg
    let m := s.dev.dbgMode
    let late : Prop := ∀ t', g.dlyEnd = some t' → t' ≤ s.dev.nowN
    (s.dev.powered = true →
      (g.check = none →
        (m = 3 → s.yields (.authCheck lv) (fun d => d.dbg = { g with ack := 1, res := 6 })) ∧
        (m ≠ 3 → g.locked = true → s.yields (.authCheck lv) (fun d => d.dbg = { g with ack := 1, res := 4 })) ∧
        (m ≠ 3 → g.locked = false → g.dlyEnd = some t → s.dev.nowN < t →
          s.yields (.authCheck lv) (fun d => d.dbg = { g with ack := 1, res := 3 })) ∧
        (m = 2 → g.locked = false → late → g.chv = false →
          s.yields (.authCheck lv) (fun d => d.dbg = { g with ack := 1, res := 5 })) ∧
        (m ≠ 3 → g.locked = false → late → m ≠ 2 ∨ g.chv = true →
          s.yields (.authCheck lv) (fun d => ∃ b, d.dbg = { g with ack := 1, check := some (lv.toNat, b) }))) ∧
      (m = 2 → s.yields .authNewchal (fun d => d.dbg.chv = true ∧ d.dbg.level = g.level ∧ d.dbg.check = g.check)) ∧
      (m ≠ 2 → s.yields .authNewchal (fun d => d.dbg = { g with ack := 1 })) ∧
      s.yields .authDrop (fun d =>
        d.dbg = { g with ack := 1, level := 0, shown := none, bsref := g.bsref || g.shown.isSome })) ∧
    (g.check = some (l, true) → s.dev.fuse.authBad = false → s.yields .authCheckDone (fun d =>
      d.dbg.level = min l s.dev.dbgMax ∧ d.dbg.fails = 0 ∧ d.dbg.res = 1 ∧ d.dbg.chv = false ∧ d.dbg.check = none)) ∧
    (g.check = some (l, false) → s.yields .authCheckDone (fun d =>
      d.dbg.level = g.level ∧ d.dbg.fails = g.fails + 1 ∧ d.dbg.res = 2 ∧ d.dbg.chv = false ∧ d.dbg.check = none ∧
      (8 ≤ g.fails + 1 → d.dbg.locked = true ∧ d.dbg.dlyEnd = none) ∧
      (g.fails + 1 < 8 → d.dbg.locked = false ∧ d.dbg.dlyEnd = some (s.dev.nowN + 2000000 * 2 ^ g.fails)))) ∧
    (g.check = some (l, true) → s.dev.fuse.authBad = true → s.yields .authCheckDone (fun d => d.dbg.level = 0)) ∧
    (let b := s.dev.passTo t
     g.dlyEnd = some t → b.dbg.dlyEnd = some t → s.yields .authDelayExpiry (fun d =>
      d.dbg = { b.dbg with dlyEnd := none } ∧ d.time = b.time))

/-- R830, R838, R840 to R842, R845, R849, R851, R855: at the level full the service tool halts, steps, resumes and resets cores,
resets the device, reads and writes the registers of a halted core, brings FREEZE into force and ends it; at another level
each of these is answered ERROR and changes nothing. A breakpoint halts the core it matches on;
when the core goes on at that address it does not halt there again (`bpSkip`; log 72). R452, R838: a core whose access a unit has
accepted halts after the instruction. -/
def Obligations.RunControl : Prop :=
  ∀ (s : State) (c : Fin 4) (v : Word) (wr : Bool) (b : Nat),
    let g := s.dev.dbg
    let k := s.dev.coreC c.val
    let sel := s.dev.cregSel c.val
    let core := fun (cmd : Instr) (k' : Core) => s.yields cmd (fun d => d.coreC c.val = k')
    (s.dev.powered = true → g.level = 2 →
      (k.st = .running → k.halted = false → k.repBusy = false → s.dev.accepted c.val = false → s.yields (.halt c) (fun d =>
        d.coreC c.val = { k with halted := true, stepping := false, haltReq := false, bpSkip := true } ∧
        (d.dbgC c.val).cause = if (s.dev.bpAt c.val).isSome then 3 else 1)) ∧
      (k.st = .running → k.halted = false → k.repBusy = true ∨ s.dev.accepted c.val = true → core (.halt c) { k with haltReq := true }) ∧
      (k.st = .asleep → k.halted = false → s.yields (.halt c) (fun d => d.coreC c.val =
        { k with st := .running, halted := true, stepping := false, haltReq := false, bpSkip := true } ∧
        (d.dbgC c.val).cause = if (s.dev.bpAt c.val).isSome then 3 else 1)) ∧
      (k.halted = true →
        core (.resume c) { k with halted := false } ∧
        core (.step c) { k with halted := false, stepping := true } ∧
        (sel < 0x20 → s.yields (.coreRegAccess c false v) (fun d => d.dbg.data = k.reg sel ∧ d.core = s.dev.core) ∧
          core (.coreRegAccess c true v) (k.put sel v)) ∧
        (sel = 0x30 → s.yields (.coreRegAccess c false v) (fun d => d.dbg.data = k.pc ∧ d.core = s.dev.core) ∧
          (wf v 1 0 = 0 → core (.coreRegAccess c true v)
            { k with pc := v, rep := none, bpSkip := k.bpSkip && decide (v = k.pc) }))) ∧
      (k.halted = false → s.yields (.coreRegAccess c wr v) (fun d => (d.dbgC c.val).rerr = true ∧ d.core = s.dev.core)) ∧
      (s.dev.resetsTaken = true → k.st ≠ .inReset → s.yields (.debugCoreReset c) (fun d =>
        (d.coreC c.val).st = .inReset ∧ wb d.rst.cause (16 + c.val) = true)) ∧
      (s.dev.rst.phase = .run → s.yields (.debugSystemReset 0xD5E1) (fun d =>
        d.rst.phase = .warm ∧ wb d.rst.cause 13 = true)) ∧
      (v ≠ 0xD5E1 → s.yields (.debugSystemReset v) (fun d => d.rst = s.dev.rst ∧ d.dbg.ack = 1)) ∧
      s.yields .freeze (fun d => d.dbg.frz = true ∧ d.dbg.inForce = true) ∧
      (g.shown = none → s.yields .unfreeze (fun d => d.dbg.frz = false ∧ d.dbg.inForce = false))) ∧
    (s.dev.powered = true → g.level ≠ 2 →
      ∀ cmd ∈ [Instr.halt c, .resume c, .step c, .debugCoreReset c, .debugSystemReset v, .coreRegAccess c wr v, .freeze,
          .unfreeze], exec cmd s = .next (s.on (fun d => { d with dbg := { d.dbg with ack := 3 } }))) ∧
    (k.live = true → s.dev.bpAt c.val = some b → s.yields (.breakpointHit c) (fun d =>
      (d.coreC c.val).halted = true ∧ (d.coreC c.val).pc = k.pc ∧ (d.dbgC c.val).cause = 3 ∧ (d.dbgC c.val).bp = b))

/-- R130, R131, R181, R846 to R848: a command of the memory window starts an access, which holds a tag or waits for one, unless
one is in progress, a write at the level observe ends with ERR 4, but for an operation of a core; a successful access leaves its data
and ERR 0, and with INC moves the address on; without a tag it waits. A register request at the cap of its initiator's tags waits; a
transaction that completes gives its tag to the oldest request that waits. The model's choices and readings: SIZE 3 is ignored
(log 24), BUS against ALIGN and one access in flight (log 46), a WRITE at observe ends with ERR 4 (log 38). -/
def Obligations.WindowAndTags : Prop :=
  ∀ (s : State) (size : BitVec 2) (inc wr : Bool) (a v w : Word) (d1 : Device) (i : Fin 9) (who : Who) (x : Wait)
      (l : List Wait) (n : Fin 32),
    let g := s.dev.dbg
    let d0 := s.dev.engBegin 8
    let nx := fun (g : Dbg) => (.next (s.on (fun d => { d with dbg := g })) : Host.Outcome State Fault Refusal)
    let starts := fun (wr : Bool) => (.next (s.on (fun d => ({ d with dbg :=
      { g with ack := 1, merr := 0, mbusy := some (wr, size.toNat, inc, g.maddr, g.mdata) } }).engWait 8)) :
        Host.Outcome State Fault Refusal)
    let overs := (.next (s.on (fun d => ({ d with dbg := { g with ack := 1, movr := true } }).hwFlag (bDBG + 0x8C) 0x100)) :
      Host.Outcome State Fault Refusal)
    let m : Nat := 2 ^ size.toNat
    let waiting := takeFirst (fun w => !w.tag && decide (whoIdx w.who = i.val)) s.dev.waits
    (s.dev.powered = true → g.level = 2 ∨ g.level = 1 →
      (g.mbusy = none → size ≠ 3 →
        exec (.debugMemRead size inc) s = starts false ∧
        (g.level = 2 → exec (.debugMemWrite size inc) s = starts true) ∧
        (g.level = 1 → exec (.debugMemWrite size inc) s =
          if coreOp true g.maddr.toNat then starts true else nx { g with ack := 1, merr := 4 })) ∧
      (g.mbusy = none → size = 3 →
        exec (.debugMemRead size inc) s = nx { g with ack := 1 } ∧ exec (.debugMemWrite size inc) s = nx { g with ack := 1 }) ∧
      (g.mbusy ≠ none → exec (.debugMemRead size inc) s = overs ∧ exec (.debugMemWrite size inc) s = overs)) ∧
    (s.dev.powered = true → g.level = 0 →
      exec (.debugMemRead size inc) s = nx { g with ack := 3 } ∧ exec (.debugMemWrite size inc) s = nx { g with ack := 3 }) ∧
    (g.mbusy = none → exec .debugMemComplete s = .next s) ∧
    (s.dev.resetsTaken = false → exec .debugMemComplete s = .next s) ∧
    (s.dev.resetsTaken = true → g.mbusy ≠ none → s.dev.tagBars 8 = true →
      exec .debugMemComplete s = .next (s.on (fun d => d.engWait 8))) ∧
    (s.dev.resetsTaken = true → g.mbusy = some (wr, size.toNat, inc, a, v) → s.dev.tagBars 8 = false →
      ((g.level = 0 ∨ (g.level = 1 ∧ (wr = true ∨ readUses a.toNat = true))) ∧ coreOp wr a.toNat = false →
        s.yields .debugMemComplete (fun d => d.dbg = { g with mbusy := none, merr := 4 } ∧ d.mem = s.dev.mem)) ∧
      (g.level = 2 ∨ (g.level = 1 ∧ wr = false ∧ readUses a.toNat = false) ∨ (g.level < 2 ∧ coreOp wr a.toNat = true) → d1.dbg = g →
        (wr = false → d0.busRead .debug a.toNat m = (d1, .ok w) → s.yields .debugMemComplete (fun d =>
          d.dbg = { g with mbusy := none, merr := 0, mdata := w, maddr := if inc then g.maddr + wd m else g.maddr })) ∧
        (wr = true → d0.busWrite .debug a.toNat m v.toNat = (d1, .ok w) → s.yields .debugMemComplete (fun d =>
          d.dbg = { g with mbusy := none, merr := 0, maddr := if inc then g.maddr + wd m else g.maddr })) ∧
        (∀ b ∈ [(Acc.bus 0, 1), (.bus 1, if a.toNat % m = 0 ∨ isRegSpace a.toNat = true then 1 else 5), (.bus 2, 2), (.bus 3, 1),
            (.dom 0, 3), (.dom 1, 3)],
          (wr = false → d0.busRead .debug a.toNat m = (d1, b.1) → s.yields .debugMemComplete (fun d =>
            d.dbg = { g with mbusy := none, merr := b.2 })) ∧
          (wr = true → d0.busWrite .debug a.toNat m v.toNat = (d1, b.1) → s.yields .debugMemComplete (fun d =>
            d.dbg = { g with mbusy := none, merr := b.2 }))))) ∧
    (waiting = some (x, l) → s.dev.tagsOf i.val < tagCap i.val → s.dev.underWay i.val = false →
      exec (.fabricTagFree i) s = .next (s.on (fun d => ({ d with waits := l }).grant x))) ∧
    (waiting.isSome = true → tagCap i.val ≤ s.dev.tagsOf i.val ∨ s.dev.underWay i.val = true →
      exec (.fabricTagFree i) s = .next s) ∧
    (waiting = none → s.dev.worksFor i.val = false ∨ s.dev.tagBars i.val = true → exec (.fabricTagFree i) s = .next s) ∧
    (s.dev.regsUp = true → who ≠ .debug → s.dev.ordered (whoIdx who) = false →
      s.dev.queued (whoIdx who) = true ∨ tagCap (whoIdx who) ≤ s.dev.tagsOf (whoIdx who) →
      exec (.softTrip who w) s = .next (s.on (fun d => { (d.countWait (whoIdx who)) with waits := d.waits ++
        [{ who := who, addr := bPWM + 0x10, put := some w, tag := false, req := s.dev.reqOf who }] }))) ∧
    (s.dev.regsUp = true → who ≠ .debug → s.dev.tagFreeFor who = true → s.dev.rst.unitBusy.getLsbD 7 = true →
      (s.dev.reqOf who).sup = true → (s.dev.reqOf who).trusted = true → exec (.dutyWrite who n w) s = .next (s.on (fun d =>
        { d with waits := d.waits ++ [{ who := who, addr := aPwm n 8, put := some w, tag := true, req := s.dev.reqOf who }] })))

/-! ### What every step keeps -/

/-- R274, R281: the state after reset has memory in its canonical form (the model's own form) and no channel that
drives both outputs of its pair high. -/
def Obligations.ResetIsSound : Prop := State.reset.dev.sound

/-- R274, R281: every command, from every state, keeps memory in its canonical form (the model's own form) and never
drives both outputs of a channel high. -/
def Obligations.StepsKeepSound : Prop :=
  ∀ (s s' : State), s.dev.sound → step s = .next s' → s'.dev.sound

/-! ### Evaluations of the loop engine -/

/-- R309 to R312, R318, R335, R338: a free lane starts the lowest QUEUED slot with the descriptor, the coefficient page and the
inputs as they stand, after CLRST with its state cleared; an input at VDDALO skips the evaluation where VLOSKIP asks for it; a
descriptor that fails its checks, or a word of it that is uncorrectable, faults the slot. Such an end is no completion (log 107),
and a start that meets an error comes a tick after the trigger (log 110). -/
def Obligations.LanesStartEvaluations : Prop :=
  ∀ (s : State) (n : Fin 32) (lane : Nat),
    let b := s.dev.pass s.dev.laneTick
    let c := b.slotC n
    let w := (List.range 16).map (fun i => b.desc n i)
    let pg := (List.range 64).map (fun i => b.act (aPage (wf (nth w 5) 20 16) i))
    let ins := (List.range (dNin w + 1)).map (fun i => b.slotInput n w i)
    let good := fun (a : Nat) => b.eccOf (a + 0x8000) = .good
    let vlo := ins.any (fun i => i.2)
    b.parked = false → b.frozen = false → b.freeLane = some lane →
    (List.range 32).find? (fun n => decide ((b.slotC n).st = .queued) && (b.slotC n).run.isNone) = some n.val →
    ((∀ i, i < 16 → good (aDesc n i)) → descBad w = false →
      (dLaw w = 1 → ∀ i, i < 64 → good (aPage (wf (nth w 5) 20 16) i)) →
      ((vlo = false ∨ wb (nth w 0) 18 = false → s.yields .laneStart (fun d =>
        (d.slotC n).st = .running ∧ (d.slotC n).lane = lane ∧ (d.slotC n).clr = false ∧
        (d.slotC n).law = (if c.clr then {} else c.law) ∧ (vlo = true → wb (d.slotC n).stat 5 = true) ∧
        ∃ y, (d.slotC n).run = some y ∧ y.desc = w ∧ y.m = ins.map (fun i => i.1) ∧ (dLaw w = 1 → y.page = pg) ∧
          y.r = sxI 16 (wf (b.lv (aLe n 1)) 15 0) ∧ y.lose = c.lose ∧ y.ovrd = b.slotOvrd n ∧
          y.bump = (c.bump && !c.clr) ∧ y.stop = false)) ∧
      (vlo = true → wb (nth w 0) 18 = true → s.yields .laneStart (fun d =>
        (d.slotC n).st = .idle ∧ (d.slotC n).run = none ∧ wb (d.slotC n).stat 5 = true)))) ∧
    ((∀ i, i < 16 → good (aDesc n i)) → descBad w = true → s.yields .laneStart (fun d =>
      (d.slotC n).st = .fault ∧ (d.slotC n).fcode = 2 ∧ (d.slotC n).run = none ∧ wb (d.slotC n).stat 4 = true)) ∧
    (∀ i, i < 16 → b.eccOf (aDesc n i + 0x8000) = .bad → s.yields .laneStart (fun d =>
      (d.slotC n).st = .fault ∧ (d.slotC n).fcode = 1 ∧ (d.slotC n).run = none ∧ wb (d.slotC n).stat 4 = true))

/-- R306, R321, R323, R324, R331 to R334: a completion frees the lane, sets DONE and its flag, leaves the new internal state of
the law, and forms the mirror record; a slot that is no member of an arena writes its duties through its map where it is
the writer, but not after the deadline with DLACT = 1; the deadline is counted and flagged; an error beyond the limit FE_TIME times in a row holds, parks
or trips the slot. A slot disabled meanwhile stays OFF and writes nothing (its supervision takes no action, log 79). R359, R360:
the results of the PID law. R325 to R329, R351: the completion of a member makes its arena select: the winner is the eligible
member with the lowest u0, of equals the lowest slot; every other eligible member loses; the winner's u0 goes through the map
that the evaluation read at its start (R339). A completion in the tick of its trigger comes a tick later (log 110). -/
def Obligations.EvaluationsComplete : Prop :=
  ∀ (s : State) (n : Fin 32) (x : LeRun) (ch tr ma : Nat),
    let b := s.dev.pass (s.dev.endTick n)
    let c := b.slotC n
    let w := x.desc
    let law := b.evaluate n x c none
    let dl := wf (nth w 5) 15 0
    let miss := decide (dl ≠ 0) && decide (dl < b.nowN - x.trigAt)
    let frozen := c.lose || b.slotOvrd n
    let fe := x.count c.fecnt frozen
    let hit := decide (wf (nth w 4) 23 16 ≠ 0) && !frozen && decide (wf (nth w 4) 23 16 ≤ fe)
    let act := wf (nth w 4) 25 24
    let done := fun (q : Device → Prop) => s.yields (.slotCompletion n) q
    let map := entries (nth w 2) (nth w 3)
    let out := fun (i : Nat) => match i with | 0 => law.u0 | 1 => law.u1 | _ => law.u2
    (c.run = some x → wb (nth w 0) 24 = false →
      (x.stop = false → done (fun d => (d.slotC n).run = none ∧ (d.slotC n).done = true ∧ wb (d.slotC n).stat 0 = true ∧
        (d.slotC n).law = law ∧ (miss = true → wb (d.slotC n).stat 2 = true ∧ (d.slotC n).cntDl = satInc 16 c.cntDl) ∧
        (miss = false → (d.slotC n).cntDl = c.cntDl) ∧ (hit = true → wb (d.slotC n).stat 3 = true))) ∧
      (x.stop = false → c.st = .running → b.lv (aLe n 7) = wd ma → ma < 0x100000000 →
        (0x10000000 ≤ ma → ma < 0x10080000 → ma % 8 = 0 → done (fun d => (d.slotC n).mirror = some (ma,
          wd (toBits 16 law.u0 + 0x10000 * toBits 16 law.u1),
          wd (toBits 16 law.u2 + 0x10000 * (b.nowN % 0x10000))))) ∧
        (ma ≠ 0 → ma < 0x10000000 ∨ 0x10080000 ≤ ma ∨ ma % 8 ≠ 0 → done (fun d =>
          (d.slotC n).mirror = c.mirror ∧ wb (d.slotC n).stat 8 = true))) ∧
      (x.stop = false → hit = true → c.st = .running →
        (act = 1 → done (fun d => (d.slotC n).st = .held)) ∧ (act = 2 → done (fun d => (d.slotC n).st = .parked)) ∧
        (act = 3 → done (fun d => (d.slotC n).st = .fault ∧ (d.slotC n).fcode = 3))) ∧
      (x.stop = false → hit = false →
        (miss = false ∨ wb (nth w 0) 25 = false → (map.map (fun e => e.1)).Nodup → done (fun d =>
          (∀ e ∈ map, (d.pwmC e.1).duty = if b.slotWrites n e.1 then
            dutyWord .loop (wd (0x80000000 + xform e.2.1 (out e.2.2))) else (b.pwmC e.1).duty) ∧
          ∀ j, (∀ e ∈ map, e.1 ≠ j) → (d.pwmC j).duty = (b.pwmC j).duty)) ∧
        (miss = true → wb (nth w 0) 25 = true → done (fun d => ∀ j, (d.pwmC j).duty = (b.pwmC j).duty))) ∧
      (x.stop = true → c.st = .off → done (fun d => (d.slotC n).st = .off ∧ (d.slotC n).run = none ∧
        ∀ j, (d.pwmC j).duty = (b.pwmC j).duty))) ∧
    (dLaw w = 0 → x.bump = false →
      let m1 := if 1 ≤ dNin w then at0 x.m 1 else 0
      let e := x.r - at0 x.m 0
      let y := if wb (nth w 12) 4 then -at0 x.m 0 else e
      let dx := if c.law.first then 0 else y - c.law.xprev
      let f := c.law.f + rnd ((wf (nth w 9) 30 16 : Int) * (dx - c.law.f)) 15
      let base := q312f (nth w 8) 0 * e + q312f (nth w 9) 0 * f + q312f (nth w 11) 0 * m1 + q15 (nth w 11) 16 * 4096
      let di := rnd (q312f (nth w 8) 16 * e) (wf (nth w 12) 3 0)
      let y0 := limY w (sat16 (rnd (base + c.law.i) 12))
      let stays : Prop := x.lose = true ∨ x.ovrd = true ∨ (y0 = dYmax w ∧ 0 < di) ∨ (y0 = dYmin w ∧ di < 0)
      law.f = f ∧ law.xprev = y ∧ law.first = false ∧ law.u0 = limY w (sat16 (rnd (base + law.i) 12)) ∧ law.u1 = 0 ∧ law.u2 = 0 ∧
      (stays → law.i = c.law.i) ∧ (¬ stays → law.i = pidClamp w (c.law.i + di))) ∧
    (∀ a, c.run = some x → wb (nth w 0) 24 = true → wf (nth w 0) 23 21 = a → b.arenaOf n = some a → x.stop = false → c.st = .running →
      hit = false → b.arenaOvrd a = false → miss = false ∨ wb (nth w 0) 25 = false → mapEntries x.map = [(ch, tr, 0)] →
      done (fun d => (d.slotC n).done = true ∧ ∃ j, d.le.win.get (fun _ => 0) a = j + 1 ∧ j ∈ d.members a ∧
        (d.slotC j).eligible = true ∧ (d.slotC j).lose = false ∧
        (∀ i ∈ d.members a, i ≠ j → (d.slotC i).eligible = true → (d.slotC i).lose = true ∧
          ((d.slotC j).law.u0 < (d.slotC i).law.u0 ∨ (d.slotC j).law.u0 = (d.slotC i).law.u0 ∧ j < i)) ∧
        (b.slotWrites j ch = true →
          (d.pwmC ch).duty = dutyWord .loop (wd (0x80000000 + xform tr (d.slotC j).law.u0)))))
end

