-- ==== Sys2Proof/Laws/Tab.lean ====
section
/-! SUPPORT. The laws of tables: what a read after a write gives, and that every operation keeps the canonical form. -/
namespace Sys2Proof.Machine

variable {α : Type}

/-! ### Reads after writes -/

theorem Tab.get_del_same (d : Nat → α) (t : Tab α) (k : Nat) : Tab.get d (t.del k) k = d k := by
  induction t with
  | nil => rfl
  | cons e t ih =>
    obtain ⟨j, v⟩ := e
    by_cases h : j = k
    · simp [Tab.del, h, ih]
    · simp [Tab.del, Tab.get, h, ih]

theorem Tab.get_del_ne (d : Nat → α) (t : Tab α) {k j : Nat} (h : j ≠ k) : Tab.get d (t.del k) j = Tab.get d t j := by
  induction t with
  | nil => rfl
  | cons e t ih =>
    obtain ⟨i, v⟩ := e
    by_cases hi : i = k
    · simp only [Tab.del, hi, if_true, ih, Tab.get]
      rw [if_neg (fun he => h he.symm)]
    · simp [Tab.del, Tab.get, hi, ih]

theorem Tab.get_ins_ne (d : Nat → α) (t : Tab α) {k j : Nat} (v : α) (h : j ≠ k) :
    Tab.get d (t.ins k v) j = Tab.get d t j := by
  induction t with
  | nil => simp [Tab.ins, Tab.get, Ne.symm h]
  | cons e t ih =>
    obtain ⟨i, w⟩ := e
    by_cases hi : k < i
    · simp [Tab.ins, Tab.get, hi, Ne.symm h]
    · simp [Tab.ins, Tab.get, hi, ih]

/-- A table that does not list `k`. -/
theorem Tab.get_ins_del (d : Nat → α) (t : Tab α) (k : Nat) (v : α) : Tab.get d ((t.del k).ins k v) k = v := by
  induction t with
  | nil => simp [Tab.ins, Tab.get, Tab.del]
  | cons e t ih =>
    obtain ⟨i, w⟩ := e
    by_cases hk : i = k
    · simpa [Tab.del, hk] using ih
    · by_cases hi : k < i
      · simp [Tab.del, Tab.ins, Tab.get, hk, hi]
      · simp [Tab.del, Tab.ins, Tab.get, hk, hi, ih]

theorem Tab.del_del (t : Tab α) (k : Nat) : (t.del k).del k = t.del k := by
  induction t with
  | nil => rfl
  | cons e t ih =>
    obtain ⟨i, w⟩ := e
    by_cases h : i = k
    · simp [Tab.del, h, ih]
    · simp [Tab.del, h, ih]

theorem Tab.del_ins (t : Tab α) (k : Nat) (v : α) : (t.ins k v).del k = t.del k := by
  induction t with
  | nil => simp [Tab.ins, Tab.del]
  | cons e t ih =>
    obtain ⟨i, w⟩ := e
    by_cases hi : k < i
    · simp [Tab.ins, Tab.del, hi]
    · by_cases hk : i = k
      · simp [Tab.ins, Tab.del, hk, ih]
      · simp [Tab.ins, Tab.del, hi, hk, ih]

variable [DecidableEq α]

@[simp] theorem Tab.get_set_same (d : Nat → α) (t : Tab α) (k : Nat) (v : α) : Tab.get d (Tab.set d t k v) k = v := by
  unfold Tab.set
  split
  next h => rw [Tab.get_del_same, h]
  next => exact Tab.get_ins_del d t k v

theorem Tab.get_set_ne (d : Nat → α) (t : Tab α) {k j : Nat} (v : α) (h : j ≠ k) :
    Tab.get d (Tab.set d t k v) j = Tab.get d t j := by
  unfold Tab.set
  split
  next => exact Tab.get_del_ne d t h
  next => rw [Tab.get_ins_ne d _ v h, Tab.get_del_ne d t h]

theorem Tab.get_set (d : Nat → α) (t : Tab α) (k j : Nat) (v : α) :
    Tab.get d (Tab.set d t k v) j = if j = k then v else Tab.get d t j := by
  by_cases h : j = k
  · simp [h]
  · simp [Tab.get_set_ne d t v h, h]

/-- The second of two writes to one key stands. -/
@[simp] theorem Tab.set_set (d : Nat → α) (t : Tab α) (k : Nat) (v w : α) :
    Tab.set d (Tab.set d t k v) k w = Tab.set d t k w := by
  have h : (Tab.set d t k v).del k = t.del k := by
    unfold Tab.set
    split
    · exact Tab.del_del t k
    · rw [Tab.del_ins, Tab.del_del]
  unfold Tab.set at *
  rw [h]

/-! ### The canonical form -/

theorem Tab.okFrom_del (d : Nat → α) (t : Tab α) (k : Nat) (lo : Option Nat) (h : t.okFrom d lo = true) :
    (t.del k).okFrom d lo = true := by
  induction t generalizing lo with
  | nil => rfl
  | cons e t ih =>
    obtain ⟨j, v⟩ := e
    simp only [Tab.okFrom, Bool.and_eq_true, decide_eq_true_eq] at h
    by_cases hj : j = k
    · simp only [Tab.del, hj, if_true]
      refine ih lo ?_
      cases lo with
      | none =>
        cases t with
        | nil => rfl
        | cons e t =>
          obtain ⟨i, w⟩ := e
          have := h.2
          simp only [Tab.okFrom, Bool.and_eq_true, decide_eq_true_eq] at this ⊢
          exact ⟨⟨by simp, this.1.2⟩, this.2⟩
      | some l =>
        cases t with
        | nil => rfl
        | cons e t =>
          obtain ⟨i, w⟩ := e
          have := h.2
          simp only [Tab.okFrom, Bool.and_eq_true, decide_eq_true_eq] at this h ⊢
          exact ⟨⟨by omega, this.1.2⟩, this.2⟩
    · simp only [Tab.del, hj, if_false, Tab.okFrom, Bool.and_eq_true, decide_eq_true_eq]
      exact ⟨h.1, ih (some j) h.2⟩

theorem Tab.okFrom_ins (d : Nat → α) (t : Tab α) (k : Nat) (v : α) (lo : Option Nat) (h : (t.del k).okFrom d lo = true)
    (hv : v ≠ d k) (hlo : ∀ l, lo = some l → l < k) : ((t.del k).ins k v).okFrom d lo = true := by
  induction t generalizing lo with
  | nil =>
    cases lo with
    | none => simp [Tab.del, Tab.ins, Tab.okFrom, hv]
    | some l => simp [Tab.del, Tab.ins, Tab.okFrom, hv, hlo l rfl]
  | cons e t ih =>
    obtain ⟨j, w⟩ := e
    by_cases hj : j = k
    · simp only [Tab.del, hj, if_true] at h ⊢
      exact ih lo h hlo
    · simp only [Tab.del, hj, if_false] at h ⊢
      simp only [Tab.okFrom, Bool.and_eq_true, decide_eq_true_eq] at h
      by_cases hk : k < j
      · simp only [Tab.ins, hk, if_true, Tab.okFrom, Bool.and_eq_true, decide_eq_true_eq]
        refine ⟨⟨?_, hv⟩, ⟨trivial, h.1.2⟩, h.2⟩
        cases lo with
        | none => rfl
        | some l => simpa using hlo l rfl
      · simp only [Tab.ins, hk, if_false, Tab.okFrom, Bool.and_eq_true, decide_eq_true_eq]
        refine ⟨h.1, ih (some j) h.2 ?_⟩
        intro l hl
        injection hl with hl
        omega

/-- A write keeps the canonical form. -/
theorem Tab.ok_set (d : Nat → α) (t : Tab α) (k : Nat) (v : α) (h : Tab.ok d t = true) :
    Tab.ok d (Tab.set d t k v) = true := by
  unfold Tab.set Tab.ok at *
  split
  · exact Tab.okFrom_del d t k none h
  next hv => exact Tab.okFrom_ins d t k v none (Tab.okFrom_del d t k none h) hv (by simp)

theorem Tab.okFrom_mono (d : Nat → α) (t : Tab α) {lo lo' : Option Nat} (h : t.okFrom d lo = true)
    (hl : ∀ l, lo' = some l → ∃ m, lo = some m ∧ l ≤ m) : t.okFrom d lo' = true := by
  cases t with
  | nil => rfl
  | cons e t =>
    obtain ⟨j, v⟩ := e
    simp only [Tab.okFrom, Bool.and_eq_true, decide_eq_true_eq] at h ⊢
    refine ⟨⟨?_, h.1.2⟩, h.2⟩
    cases lo' with
    | none => rfl
    | some l =>
      obtain ⟨m, rfl, hm⟩ := hl l rfl
      have := h.1.1
      simp only [decide_eq_true_eq] at this ⊢
      omega

theorem Tab.okFrom_keep (d : Nat → α) (p : Nat → Bool) (t : Tab α) (lo : Option Nat) (h : t.okFrom d lo = true) :
    (Tab.keep p t).okFrom d lo = true := by
  induction t generalizing lo with
  | nil => rfl
  | cons e t ih =>
    obtain ⟨j, v⟩ := e
    simp only [Tab.okFrom, Bool.and_eq_true, decide_eq_true_eq] at h
    by_cases hp : p j = true
    · simp only [Tab.keep, hp, if_true, Tab.okFrom, Bool.and_eq_true, decide_eq_true_eq]
      exact ⟨h.1, ih (some j) h.2⟩
    · simp only [Tab.keep, hp, Bool.false_eq_true, if_false]
      refine ih lo (Tab.okFrom_mono d t h.2 ?_)
      intro l hl
      subst hl
      have := h.1.1
      simp only [decide_eq_true_eq] at this
      exact ⟨j, rfl, by omega⟩

/-- Keeping some entries keeps the canonical form. -/
theorem Tab.ok_keep (d : Nat → α) (p : Nat → Bool) (t : Tab α) (h : Tab.ok d t = true) :
    Tab.ok d (Tab.keep p t) = true := Tab.okFrom_keep d p t none h

end Sys2Proof.Machine
end

