-- ==== Sys2Proof/Laws/State.lean ====
section
/-! SUPPORT. What each update of the state leaves as it is, one lemma for each field, and what a read after an update
gives. -/
namespace Sys2Proof.Machine

/-! ### `Device.setSns` -/

@[simp] theorem Device.setSns_time (d : Device) (n : Nat) (c : SnsCh) : (d.setSns n c).time = d.time := rfl
@[simp] theorem Device.setSns_rtc (d : Device) (n : Nat) (c : SnsCh) : (d.setSns n c).rtc = d.rtc := rfl
@[simp] theorem Device.setSns_pwr (d : Device) (n : Nat) (c : SnsCh) : (d.setSns n c).pwr = d.pwr := rfl
@[simp] theorem Device.setSns_rst (d : Device) (n : Nat) (c : SnsCh) : (d.setSns n c).rst = d.rst := rfl
@[simp] theorem Device.setSns_owl (d : Device) (n : Nat) (c : SnsCh) : (d.setSns n c).owl = d.owl := rfl
@[simp] theorem Device.setSns_trk (d : Device) (n : Nat) (c : SnsCh) : (d.setSns n c).trk = d.trk := rfl
@[simp] theorem Device.setSns_pwm (d : Device) (n : Nat) (c : SnsCh) : (d.setSns n c).pwm = d.pwm := rfl
@[simp] theorem Device.setSns_le (d : Device) (n : Nat) (c : SnsCh) : (d.setSns n c).le = d.le := rfl
@[simp] theorem Device.setSns_evr (d : Device) (n : Nat) (c : SnsCh) : (d.setSns n c).evr = d.evr := rfl
@[simp] theorem Device.setSns_intc (d : Device) (n : Nat) (c : SnsCh) : (d.setSns n c).intc = d.intc := rfl
@[simp] theorem Device.setSns_core (d : Device) (n : Nat) (c : SnsCh) : (d.setSns n c).core = d.core := rfl
@[simp] theorem Device.setSns_mem (d : Device) (n : Nat) (c : SnsCh) : (d.setSns n c).mem = d.mem := rfl
@[simp] theorem Device.setSns_flash (d : Device) (n : Nat) (c : SnsCh) : (d.setSns n c).flash = d.flash := rfl
@[simp] theorem Device.setSns_fuse (d : Device) (n : Nat) (c : SnsCh) : (d.setSns n c).fuse = d.fuse := rfl
@[simp] theorem Device.setSns_que (d : Device) (n : Nat) (c : SnsCh) : (d.setSns n c).que = d.que := rfl
@[simp] theorem Device.setSns_lock (d : Device) (n : Nat) (c : SnsCh) : (d.setSns n c).lock = d.lock := rfl
@[simp] theorem Device.setSns_shed (d : Device) (n : Nat) (c : SnsCh) : (d.setSns n c).shed = d.shed := rfl
@[simp] theorem Device.setSns_dma (d : Device) (n : Nat) (c : SnsCh) : (d.setSns n c).dma = d.dma := rfl
@[simp] theorem Device.setSns_link (d : Device) (n : Nat) (c : SnsCh) : (d.setSns n c).link = d.link := rfl
@[simp] theorem Device.setSns_od (d : Device) (n : Nat) (c : SnsCh) : (d.setSns n c).od = d.od := rfl
@[simp] theorem Device.setSns_swap (d : Device) (n : Nat) (c : SnsCh) : (d.setSns n c).swap = d.swap := rfl
@[simp] theorem Device.setSns_dbg (d : Device) (n : Nat) (c : SnsCh) : (d.setSns n c).dbg = d.dbg := rfl
@[simp] theorem Device.setSns_sys (d : Device) (n : Nat) (c : SnsCh) : (d.setSns n c).sys = d.sys := rfl
@[simp] theorem Device.setSns_waits (d : Device) (n : Nat) (c : SnsCh) : (d.setSns n c).waits = d.waits := rfl
@[simp] theorem Device.setSns_fabEng (d : Device) (n : Nat) (c : SnsCh) : (d.setSns n c).fabEng = d.fabEng := rfl
@[simp] theorem Device.setSns_fabWaitCnt (d : Device) (n : Nat) (c : SnsCh) : (d.setSns n c).fabWaitCnt = d.fabWaitCnt := rfl
@[simp] theorem Device.setSns_rw (d : Device) (n : Nat) (c : SnsCh) : (d.setSns n c).rw = d.rw := rfl
@[simp] theorem Device.setSns_shadow (d : Device) (n : Nat) (c : SnsCh) : (d.setSns n c).shadow = d.shadow := rfl
@[simp] theorem Device.setSns_active (d : Device) (n : Nat) (c : SnsCh) : (d.setSns n c).active = d.active := rfl
@[simp] theorem Device.setSns_spent (d : Device) (n : Nat) (c : SnsCh) : (d.setSns n c).spent = d.spent := rfl
@[simp] theorem Device.setSns_rdata (d : Device) (n : Nat) (c : SnsCh) : (d.setSns n c).rdata = d.rdata := rfl
@[simp] theorem Device.setSns_resp (d : Device) (n : Nat) (c : SnsCh) : (d.setSns n c).resp = d.resp := rfl
@[simp] theorem Device.setSns_same (d : Device) (n : Nat) (c : SnsCh) : (d.setSns n c).same = d.same := rfl
@[simp] theorem Device.setSns_free (d : Device) (n : Nat) (c : SnsCh) : (d.setSns n c).free = d.free := rfl

/-! ### `Device.setTrk` -/

@[simp] theorem Device.setTrk_time (d : Device) (n : Nat) (c : TrkCh) : (d.setTrk n c).time = d.time := rfl
@[simp] theorem Device.setTrk_rtc (d : Device) (n : Nat) (c : TrkCh) : (d.setTrk n c).rtc = d.rtc := rfl
@[simp] theorem Device.setTrk_pwr (d : Device) (n : Nat) (c : TrkCh) : (d.setTrk n c).pwr = d.pwr := rfl
@[simp] theorem Device.setTrk_rst (d : Device) (n : Nat) (c : TrkCh) : (d.setTrk n c).rst = d.rst := rfl
@[simp] theorem Device.setTrk_owl (d : Device) (n : Nat) (c : TrkCh) : (d.setTrk n c).owl = d.owl := rfl
@[simp] theorem Device.setTrk_sns (d : Device) (n : Nat) (c : TrkCh) : (d.setTrk n c).sns = d.sns := rfl
@[simp] theorem Device.setTrk_pwm (d : Device) (n : Nat) (c : TrkCh) : (d.setTrk n c).pwm = d.pwm := rfl
@[simp] theorem Device.setTrk_le (d : Device) (n : Nat) (c : TrkCh) : (d.setTrk n c).le = d.le := rfl
@[simp] theorem Device.setTrk_evr (d : Device) (n : Nat) (c : TrkCh) : (d.setTrk n c).evr = d.evr := rfl
@[simp] theorem Device.setTrk_intc (d : Device) (n : Nat) (c : TrkCh) : (d.setTrk n c).intc = d.intc := rfl
@[simp] theorem Device.setTrk_core (d : Device) (n : Nat) (c : TrkCh) : (d.setTrk n c).core = d.core := rfl
@[simp] theorem Device.setTrk_mem (d : Device) (n : Nat) (c : TrkCh) : (d.setTrk n c).mem = d.mem := rfl
@[simp] theorem Device.setTrk_flash (d : Device) (n : Nat) (c : TrkCh) : (d.setTrk n c).flash = d.flash := rfl
@[simp] theorem Device.setTrk_fuse (d : Device) (n : Nat) (c : TrkCh) : (d.setTrk n c).fuse = d.fuse := rfl
@[simp] theorem Device.setTrk_que (d : Device) (n : Nat) (c : TrkCh) : (d.setTrk n c).que = d.que := rfl
@[simp] theorem Device.setTrk_lock (d : Device) (n : Nat) (c : TrkCh) : (d.setTrk n c).lock = d.lock := rfl
@[simp] theorem Device.setTrk_shed (d : Device) (n : Nat) (c : TrkCh) : (d.setTrk n c).shed = d.shed := rfl
@[simp] theorem Device.setTrk_dma (d : Device) (n : Nat) (c : TrkCh) : (d.setTrk n c).dma = d.dma := rfl
@[simp] theorem Device.setTrk_link (d : Device) (n : Nat) (c : TrkCh) : (d.setTrk n c).link = d.link := rfl
@[simp] theorem Device.setTrk_od (d : Device) (n : Nat) (c : TrkCh) : (d.setTrk n c).od = d.od := rfl
@[simp] theorem Device.setTrk_swap (d : Device) (n : Nat) (c : TrkCh) : (d.setTrk n c).swap = d.swap := rfl
@[simp] theorem Device.setTrk_dbg (d : Device) (n : Nat) (c : TrkCh) : (d.setTrk n c).dbg = d.dbg := rfl
@[simp] theorem Device.setTrk_sys (d : Device) (n : Nat) (c : TrkCh) : (d.setTrk n c).sys = d.sys := rfl
@[simp] theorem Device.setTrk_waits (d : Device) (n : Nat) (c : TrkCh) : (d.setTrk n c).waits = d.waits := rfl
@[simp] theorem Device.setTrk_fabEng (d : Device) (n : Nat) (c : TrkCh) : (d.setTrk n c).fabEng = d.fabEng := rfl
@[simp] theorem Device.setTrk_fabWaitCnt (d : Device) (n : Nat) (c : TrkCh) : (d.setTrk n c).fabWaitCnt = d.fabWaitCnt := rfl
@[simp] theorem Device.setTrk_rw (d : Device) (n : Nat) (c : TrkCh) : (d.setTrk n c).rw = d.rw := rfl
@[simp] theorem Device.setTrk_shadow (d : Device) (n : Nat) (c : TrkCh) : (d.setTrk n c).shadow = d.shadow := rfl
@[simp] theorem Device.setTrk_active (d : Device) (n : Nat) (c : TrkCh) : (d.setTrk n c).active = d.active := rfl
@[simp] theorem Device.setTrk_spent (d : Device) (n : Nat) (c : TrkCh) : (d.setTrk n c).spent = d.spent := rfl
@[simp] theorem Device.setTrk_rdata (d : Device) (n : Nat) (c : TrkCh) : (d.setTrk n c).rdata = d.rdata := rfl
@[simp] theorem Device.setTrk_resp (d : Device) (n : Nat) (c : TrkCh) : (d.setTrk n c).resp = d.resp := rfl
@[simp] theorem Device.setTrk_same (d : Device) (n : Nat) (c : TrkCh) : (d.setTrk n c).same = d.same := rfl
@[simp] theorem Device.setTrk_free (d : Device) (n : Nat) (c : TrkCh) : (d.setTrk n c).free = d.free := rfl

/-! ### `Device.setPwm` -/

@[simp] theorem Device.setPwm_time (d : Device) (n : Nat) (c : PwmCh) : (d.setPwm n c).time = d.time := rfl
@[simp] theorem Device.setPwm_rtc (d : Device) (n : Nat) (c : PwmCh) : (d.setPwm n c).rtc = d.rtc := rfl
@[simp] theorem Device.setPwm_pwr (d : Device) (n : Nat) (c : PwmCh) : (d.setPwm n c).pwr = d.pwr := rfl
@[simp] theorem Device.setPwm_rst (d : Device) (n : Nat) (c : PwmCh) : (d.setPwm n c).rst = d.rst := rfl
@[simp] theorem Device.setPwm_owl (d : Device) (n : Nat) (c : PwmCh) : (d.setPwm n c).owl = d.owl := rfl
@[simp] theorem Device.setPwm_sns (d : Device) (n : Nat) (c : PwmCh) : (d.setPwm n c).sns = d.sns := rfl
@[simp] theorem Device.setPwm_trk (d : Device) (n : Nat) (c : PwmCh) : (d.setPwm n c).trk = d.trk := rfl
@[simp] theorem Device.setPwm_le (d : Device) (n : Nat) (c : PwmCh) : (d.setPwm n c).le = d.le := rfl
@[simp] theorem Device.setPwm_evr (d : Device) (n : Nat) (c : PwmCh) : (d.setPwm n c).evr = d.evr := rfl
@[simp] theorem Device.setPwm_intc (d : Device) (n : Nat) (c : PwmCh) : (d.setPwm n c).intc = d.intc := rfl
@[simp] theorem Device.setPwm_core (d : Device) (n : Nat) (c : PwmCh) : (d.setPwm n c).core = d.core := rfl
@[simp] theorem Device.setPwm_mem (d : Device) (n : Nat) (c : PwmCh) : (d.setPwm n c).mem = d.mem := rfl
@[simp] theorem Device.setPwm_flash (d : Device) (n : Nat) (c : PwmCh) : (d.setPwm n c).flash = d.flash := rfl
@[simp] theorem Device.setPwm_fuse (d : Device) (n : Nat) (c : PwmCh) : (d.setPwm n c).fuse = d.fuse := rfl
@[simp] theorem Device.setPwm_que (d : Device) (n : Nat) (c : PwmCh) : (d.setPwm n c).que = d.que := rfl
@[simp] theorem Device.setPwm_lock (d : Device) (n : Nat) (c : PwmCh) : (d.setPwm n c).lock = d.lock := rfl
@[simp] theorem Device.setPwm_shed (d : Device) (n : Nat) (c : PwmCh) : (d.setPwm n c).shed = d.shed := rfl
@[simp] theorem Device.setPwm_dma (d : Device) (n : Nat) (c : PwmCh) : (d.setPwm n c).dma = d.dma := rfl
@[simp] theorem Device.setPwm_link (d : Device) (n : Nat) (c : PwmCh) : (d.setPwm n c).link = d.link := rfl
@[simp] theorem Device.setPwm_od (d : Device) (n : Nat) (c : PwmCh) : (d.setPwm n c).od = d.od := rfl
@[simp] theorem Device.setPwm_swap (d : Device) (n : Nat) (c : PwmCh) : (d.setPwm n c).swap = d.swap := rfl
@[simp] theorem Device.setPwm_dbg (d : Device) (n : Nat) (c : PwmCh) : (d.setPwm n c).dbg = d.dbg := rfl
@[simp] theorem Device.setPwm_sys (d : Device) (n : Nat) (c : PwmCh) : (d.setPwm n c).sys = d.sys := rfl
@[simp] theorem Device.setPwm_waits (d : Device) (n : Nat) (c : PwmCh) : (d.setPwm n c).waits = d.waits := rfl
@[simp] theorem Device.setPwm_fabEng (d : Device) (n : Nat) (c : PwmCh) : (d.setPwm n c).fabEng = d.fabEng := rfl
@[simp] theorem Device.setPwm_fabWaitCnt (d : Device) (n : Nat) (c : PwmCh) : (d.setPwm n c).fabWaitCnt = d.fabWaitCnt := rfl
@[simp] theorem Device.setPwm_rw (d : Device) (n : Nat) (c : PwmCh) : (d.setPwm n c).rw = d.rw := rfl
@[simp] theorem Device.setPwm_shadow (d : Device) (n : Nat) (c : PwmCh) : (d.setPwm n c).shadow = d.shadow := rfl
@[simp] theorem Device.setPwm_active (d : Device) (n : Nat) (c : PwmCh) : (d.setPwm n c).active = d.active := rfl
@[simp] theorem Device.setPwm_spent (d : Device) (n : Nat) (c : PwmCh) : (d.setPwm n c).spent = d.spent := rfl
@[simp] theorem Device.setPwm_rdata (d : Device) (n : Nat) (c : PwmCh) : (d.setPwm n c).rdata = d.rdata := rfl
@[simp] theorem Device.setPwm_resp (d : Device) (n : Nat) (c : PwmCh) : (d.setPwm n c).resp = d.resp := rfl
@[simp] theorem Device.setPwm_same (d : Device) (n : Nat) (c : PwmCh) : (d.setPwm n c).same = d.same := rfl
@[simp] theorem Device.setPwm_free (d : Device) (n : Nat) (c : PwmCh) : (d.setPwm n c).free = d.free := rfl

/-! ### `Device.setSlot` -/

@[simp] theorem Device.setSlot_time (d : Device) (n : Nat) (c : LeSlot) : (d.setSlot n c).time = d.time := rfl
@[simp] theorem Device.setSlot_rtc (d : Device) (n : Nat) (c : LeSlot) : (d.setSlot n c).rtc = d.rtc := rfl
@[simp] theorem Device.setSlot_pwr (d : Device) (n : Nat) (c : LeSlot) : (d.setSlot n c).pwr = d.pwr := rfl
@[simp] theorem Device.setSlot_rst (d : Device) (n : Nat) (c : LeSlot) : (d.setSlot n c).rst = d.rst := rfl
@[simp] theorem Device.setSlot_owl (d : Device) (n : Nat) (c : LeSlot) : (d.setSlot n c).owl = d.owl := rfl
@[simp] theorem Device.setSlot_sns (d : Device) (n : Nat) (c : LeSlot) : (d.setSlot n c).sns = d.sns := rfl
@[simp] theorem Device.setSlot_trk (d : Device) (n : Nat) (c : LeSlot) : (d.setSlot n c).trk = d.trk := rfl
@[simp] theorem Device.setSlot_pwm (d : Device) (n : Nat) (c : LeSlot) : (d.setSlot n c).pwm = d.pwm := rfl
@[simp] theorem Device.setSlot_evr (d : Device) (n : Nat) (c : LeSlot) : (d.setSlot n c).evr = d.evr := rfl
@[simp] theorem Device.setSlot_intc (d : Device) (n : Nat) (c : LeSlot) : (d.setSlot n c).intc = d.intc := rfl
@[simp] theorem Device.setSlot_core (d : Device) (n : Nat) (c : LeSlot) : (d.setSlot n c).core = d.core := rfl
@[simp] theorem Device.setSlot_mem (d : Device) (n : Nat) (c : LeSlot) : (d.setSlot n c).mem = d.mem := rfl
@[simp] theorem Device.setSlot_flash (d : Device) (n : Nat) (c : LeSlot) : (d.setSlot n c).flash = d.flash := rfl
@[simp] theorem Device.setSlot_fuse (d : Device) (n : Nat) (c : LeSlot) : (d.setSlot n c).fuse = d.fuse := rfl
@[simp] theorem Device.setSlot_que (d : Device) (n : Nat) (c : LeSlot) : (d.setSlot n c).que = d.que := rfl
@[simp] theorem Device.setSlot_lock (d : Device) (n : Nat) (c : LeSlot) : (d.setSlot n c).lock = d.lock := rfl
@[simp] theorem Device.setSlot_shed (d : Device) (n : Nat) (c : LeSlot) : (d.setSlot n c).shed = d.shed := rfl
@[simp] theorem Device.setSlot_dma (d : Device) (n : Nat) (c : LeSlot) : (d.setSlot n c).dma = d.dma := rfl
@[simp] theorem Device.setSlot_link (d : Device) (n : Nat) (c : LeSlot) : (d.setSlot n c).link = d.link := rfl
@[simp] theorem Device.setSlot_od (d : Device) (n : Nat) (c : LeSlot) : (d.setSlot n c).od = d.od := rfl
@[simp] theorem Device.setSlot_swap (d : Device) (n : Nat) (c : LeSlot) : (d.setSlot n c).swap = d.swap := rfl
@[simp] theorem Device.setSlot_dbg (d : Device) (n : Nat) (c : LeSlot) : (d.setSlot n c).dbg = d.dbg := rfl
@[simp] theorem Device.setSlot_sys (d : Device) (n : Nat) (c : LeSlot) : (d.setSlot n c).sys = d.sys := rfl
@[simp] theorem Device.setSlot_waits (d : Device) (n : Nat) (c : LeSlot) : (d.setSlot n c).waits = d.waits := rfl
@[simp] theorem Device.setSlot_fabEng (d : Device) (n : Nat) (c : LeSlot) : (d.setSlot n c).fabEng = d.fabEng := rfl
@[simp] theorem Device.setSlot_fabWaitCnt (d : Device) (n : Nat) (c : LeSlot) : (d.setSlot n c).fabWaitCnt = d.fabWaitCnt := rfl
@[simp] theorem Device.setSlot_rw (d : Device) (n : Nat) (c : LeSlot) : (d.setSlot n c).rw = d.rw := rfl
@[simp] theorem Device.setSlot_shadow (d : Device) (n : Nat) (c : LeSlot) : (d.setSlot n c).shadow = d.shadow := rfl
@[simp] theorem Device.setSlot_active (d : Device) (n : Nat) (c : LeSlot) : (d.setSlot n c).active = d.active := rfl
@[simp] theorem Device.setSlot_spent (d : Device) (n : Nat) (c : LeSlot) : (d.setSlot n c).spent = d.spent := rfl
@[simp] theorem Device.setSlot_rdata (d : Device) (n : Nat) (c : LeSlot) : (d.setSlot n c).rdata = d.rdata := rfl
@[simp] theorem Device.setSlot_resp (d : Device) (n : Nat) (c : LeSlot) : (d.setSlot n c).resp = d.resp := rfl
@[simp] theorem Device.setSlot_same (d : Device) (n : Nat) (c : LeSlot) : (d.setSlot n c).same = d.same := rfl
@[simp] theorem Device.setSlot_free (d : Device) (n : Nat) (c : LeSlot) : (d.setSlot n c).free = d.free := rfl

/-! ### `Device.setCore` -/

@[simp] theorem Device.setCore_time (d : Device) (c : Nat) (k : Core) : (d.setCore c k).time = d.time := rfl
@[simp] theorem Device.setCore_rtc (d : Device) (c : Nat) (k : Core) : (d.setCore c k).rtc = d.rtc := rfl
@[simp] theorem Device.setCore_pwr (d : Device) (c : Nat) (k : Core) : (d.setCore c k).pwr = d.pwr := rfl
@[simp] theorem Device.setCore_rst (d : Device) (c : Nat) (k : Core) : (d.setCore c k).rst = d.rst := rfl
@[simp] theorem Device.setCore_owl (d : Device) (c : Nat) (k : Core) : (d.setCore c k).owl = d.owl := rfl
@[simp] theorem Device.setCore_sns (d : Device) (c : Nat) (k : Core) : (d.setCore c k).sns = d.sns := rfl
@[simp] theorem Device.setCore_trk (d : Device) (c : Nat) (k : Core) : (d.setCore c k).trk = d.trk := rfl
@[simp] theorem Device.setCore_pwm (d : Device) (c : Nat) (k : Core) : (d.setCore c k).pwm = d.pwm := rfl
@[simp] theorem Device.setCore_le (d : Device) (c : Nat) (k : Core) : (d.setCore c k).le = d.le := rfl
@[simp] theorem Device.setCore_evr (d : Device) (c : Nat) (k : Core) : (d.setCore c k).evr = d.evr := rfl
@[simp] theorem Device.setCore_intc (d : Device) (c : Nat) (k : Core) : (d.setCore c k).intc = d.intc := rfl
@[simp] theorem Device.setCore_mem (d : Device) (c : Nat) (k : Core) : (d.setCore c k).mem = d.mem := rfl
@[simp] theorem Device.setCore_flash (d : Device) (c : Nat) (k : Core) : (d.setCore c k).flash = d.flash := rfl
@[simp] theorem Device.setCore_fuse (d : Device) (c : Nat) (k : Core) : (d.setCore c k).fuse = d.fuse := rfl
@[simp] theorem Device.setCore_que (d : Device) (c : Nat) (k : Core) : (d.setCore c k).que = d.que := rfl
@[simp] theorem Device.setCore_lock (d : Device) (c : Nat) (k : Core) : (d.setCore c k).lock = d.lock := rfl
@[simp] theorem Device.setCore_shed (d : Device) (c : Nat) (k : Core) : (d.setCore c k).shed = d.shed := rfl
@[simp] theorem Device.setCore_dma (d : Device) (c : Nat) (k : Core) : (d.setCore c k).dma = d.dma := rfl
@[simp] theorem Device.setCore_link (d : Device) (c : Nat) (k : Core) : (d.setCore c k).link = d.link := rfl
@[simp] theorem Device.setCore_od (d : Device) (c : Nat) (k : Core) : (d.setCore c k).od = d.od := rfl
@[simp] theorem Device.setCore_swap (d : Device) (c : Nat) (k : Core) : (d.setCore c k).swap = d.swap := rfl
@[simp] theorem Device.setCore_dbg (d : Device) (c : Nat) (k : Core) : (d.setCore c k).dbg = d.dbg := rfl
@[simp] theorem Device.setCore_sys (d : Device) (c : Nat) (k : Core) : (d.setCore c k).sys = d.sys := rfl
@[simp] theorem Device.setCore_waits (d : Device) (c : Nat) (k : Core) : (d.setCore c k).waits = d.waits := rfl
@[simp] theorem Device.setCore_fabEng (d : Device) (c : Nat) (k : Core) : (d.setCore c k).fabEng = d.fabEng := rfl
@[simp] theorem Device.setCore_fabWaitCnt (d : Device) (c : Nat) (k : Core) : (d.setCore c k).fabWaitCnt = d.fabWaitCnt := rfl
@[simp] theorem Device.setCore_rw (d : Device) (c : Nat) (k : Core) : (d.setCore c k).rw = d.rw := rfl
@[simp] theorem Device.setCore_shadow (d : Device) (c : Nat) (k : Core) : (d.setCore c k).shadow = d.shadow := rfl
@[simp] theorem Device.setCore_active (d : Device) (c : Nat) (k : Core) : (d.setCore c k).active = d.active := rfl
@[simp] theorem Device.setCore_spent (d : Device) (c : Nat) (k : Core) : (d.setCore c k).spent = d.spent := rfl
@[simp] theorem Device.setCore_rdata (d : Device) (c : Nat) (k : Core) : (d.setCore c k).rdata = d.rdata := rfl
@[simp] theorem Device.setCore_resp (d : Device) (c : Nat) (k : Core) : (d.setCore c k).resp = d.resp := rfl
@[simp] theorem Device.setCore_same (d : Device) (c : Nat) (k : Core) : (d.setCore c k).same = d.same := rfl
@[simp] theorem Device.setCore_free (d : Device) (c : Nat) (k : Core) : (d.setCore c k).free = d.free := rfl

/-! ### `Device.setQue` -/

@[simp] theorem Device.setQue_time (d : Device) (q : Nat) (k : Que) : (d.setQue q k).time = d.time := rfl
@[simp] theorem Device.setQue_rtc (d : Device) (q : Nat) (k : Que) : (d.setQue q k).rtc = d.rtc := rfl
@[simp] theorem Device.setQue_pwr (d : Device) (q : Nat) (k : Que) : (d.setQue q k).pwr = d.pwr := rfl
@[simp] theorem Device.setQue_rst (d : Device) (q : Nat) (k : Que) : (d.setQue q k).rst = d.rst := rfl
@[simp] theorem Device.setQue_owl (d : Device) (q : Nat) (k : Que) : (d.setQue q k).owl = d.owl := rfl
@[simp] theorem Device.setQue_sns (d : Device) (q : Nat) (k : Que) : (d.setQue q k).sns = d.sns := rfl
@[simp] theorem Device.setQue_trk (d : Device) (q : Nat) (k : Que) : (d.setQue q k).trk = d.trk := rfl
@[simp] theorem Device.setQue_pwm (d : Device) (q : Nat) (k : Que) : (d.setQue q k).pwm = d.pwm := rfl
@[simp] theorem Device.setQue_le (d : Device) (q : Nat) (k : Que) : (d.setQue q k).le = d.le := rfl
@[simp] theorem Device.setQue_evr (d : Device) (q : Nat) (k : Que) : (d.setQue q k).evr = d.evr := rfl
@[simp] theorem Device.setQue_intc (d : Device) (q : Nat) (k : Que) : (d.setQue q k).intc = d.intc := rfl
@[simp] theorem Device.setQue_core (d : Device) (q : Nat) (k : Que) : (d.setQue q k).core = d.core := rfl
@[simp] theorem Device.setQue_mem (d : Device) (q : Nat) (k : Que) : (d.setQue q k).mem = d.mem := rfl
@[simp] theorem Device.setQue_flash (d : Device) (q : Nat) (k : Que) : (d.setQue q k).flash = d.flash := rfl
@[simp] theorem Device.setQue_fuse (d : Device) (q : Nat) (k : Que) : (d.setQue q k).fuse = d.fuse := rfl
@[simp] theorem Device.setQue_lock (d : Device) (q : Nat) (k : Que) : (d.setQue q k).lock = d.lock := rfl
@[simp] theorem Device.setQue_shed (d : Device) (q : Nat) (k : Que) : (d.setQue q k).shed = d.shed := rfl
@[simp] theorem Device.setQue_dma (d : Device) (q : Nat) (k : Que) : (d.setQue q k).dma = d.dma := rfl
@[simp] theorem Device.setQue_link (d : Device) (q : Nat) (k : Que) : (d.setQue q k).link = d.link := rfl
@[simp] theorem Device.setQue_od (d : Device) (q : Nat) (k : Que) : (d.setQue q k).od = d.od := rfl
@[simp] theorem Device.setQue_swap (d : Device) (q : Nat) (k : Que) : (d.setQue q k).swap = d.swap := rfl
@[simp] theorem Device.setQue_dbg (d : Device) (q : Nat) (k : Que) : (d.setQue q k).dbg = d.dbg := rfl
@[simp] theorem Device.setQue_sys (d : Device) (q : Nat) (k : Que) : (d.setQue q k).sys = d.sys := rfl
@[simp] theorem Device.setQue_waits (d : Device) (q : Nat) (k : Que) : (d.setQue q k).waits = d.waits := rfl
@[simp] theorem Device.setQue_fabEng (d : Device) (q : Nat) (k : Que) : (d.setQue q k).fabEng = d.fabEng := rfl
@[simp] theorem Device.setQue_fabWaitCnt (d : Device) (q : Nat) (k : Que) : (d.setQue q k).fabWaitCnt = d.fabWaitCnt := rfl
@[simp] theorem Device.setQue_rw (d : Device) (q : Nat) (k : Que) : (d.setQue q k).rw = d.rw := rfl
@[simp] theorem Device.setQue_shadow (d : Device) (q : Nat) (k : Que) : (d.setQue q k).shadow = d.shadow := rfl
@[simp] theorem Device.setQue_active (d : Device) (q : Nat) (k : Que) : (d.setQue q k).active = d.active := rfl
@[simp] theorem Device.setQue_spent (d : Device) (q : Nat) (k : Que) : (d.setQue q k).spent = d.spent := rfl
@[simp] theorem Device.setQue_rdata (d : Device) (q : Nat) (k : Que) : (d.setQue q k).rdata = d.rdata := rfl
@[simp] theorem Device.setQue_resp (d : Device) (q : Nat) (k : Que) : (d.setQue q k).resp = d.resp := rfl
@[simp] theorem Device.setQue_same (d : Device) (q : Nat) (k : Que) : (d.setQue q k).same = d.same := rfl
@[simp] theorem Device.setQue_free (d : Device) (q : Nat) (k : Que) : (d.setQue q k).free = d.free := rfl

/-! ### `Device.setLock` -/

@[simp] theorem Device.setLock_time (d : Device) (n : Nat) (k : Lock) : (d.setLock n k).time = d.time := rfl
@[simp] theorem Device.setLock_rtc (d : Device) (n : Nat) (k : Lock) : (d.setLock n k).rtc = d.rtc := rfl
@[simp] theorem Device.setLock_pwr (d : Device) (n : Nat) (k : Lock) : (d.setLock n k).pwr = d.pwr := rfl
@[simp] theorem Device.setLock_rst (d : Device) (n : Nat) (k : Lock) : (d.setLock n k).rst = d.rst := rfl
@[simp] theorem Device.setLock_owl (d : Device) (n : Nat) (k : Lock) : (d.setLock n k).owl = d.owl := rfl
@[simp] theorem Device.setLock_sns (d : Device) (n : Nat) (k : Lock) : (d.setLock n k).sns = d.sns := rfl
@[simp] theorem Device.setLock_trk (d : Device) (n : Nat) (k : Lock) : (d.setLock n k).trk = d.trk := rfl
@[simp] theorem Device.setLock_pwm (d : Device) (n : Nat) (k : Lock) : (d.setLock n k).pwm = d.pwm := rfl
@[simp] theorem Device.setLock_le (d : Device) (n : Nat) (k : Lock) : (d.setLock n k).le = d.le := rfl
@[simp] theorem Device.setLock_evr (d : Device) (n : Nat) (k : Lock) : (d.setLock n k).evr = d.evr := rfl
@[simp] theorem Device.setLock_intc (d : Device) (n : Nat) (k : Lock) : (d.setLock n k).intc = d.intc := rfl
@[simp] theorem Device.setLock_core (d : Device) (n : Nat) (k : Lock) : (d.setLock n k).core = d.core := rfl
@[simp] theorem Device.setLock_mem (d : Device) (n : Nat) (k : Lock) : (d.setLock n k).mem = d.mem := rfl
@[simp] theorem Device.setLock_flash (d : Device) (n : Nat) (k : Lock) : (d.setLock n k).flash = d.flash := rfl
@[simp] theorem Device.setLock_fuse (d : Device) (n : Nat) (k : Lock) : (d.setLock n k).fuse = d.fuse := rfl
@[simp] theorem Device.setLock_que (d : Device) (n : Nat) (k : Lock) : (d.setLock n k).que = d.que := rfl
@[simp] theorem Device.setLock_shed (d : Device) (n : Nat) (k : Lock) : (d.setLock n k).shed = d.shed := rfl
@[simp] theorem Device.setLock_dma (d : Device) (n : Nat) (k : Lock) : (d.setLock n k).dma = d.dma := rfl
@[simp] theorem Device.setLock_link (d : Device) (n : Nat) (k : Lock) : (d.setLock n k).link = d.link := rfl
@[simp] theorem Device.setLock_od (d : Device) (n : Nat) (k : Lock) : (d.setLock n k).od = d.od := rfl
@[simp] theorem Device.setLock_swap (d : Device) (n : Nat) (k : Lock) : (d.setLock n k).swap = d.swap := rfl
@[simp] theorem Device.setLock_dbg (d : Device) (n : Nat) (k : Lock) : (d.setLock n k).dbg = d.dbg := rfl
@[simp] theorem Device.setLock_sys (d : Device) (n : Nat) (k : Lock) : (d.setLock n k).sys = d.sys := rfl
@[simp] theorem Device.setLock_waits (d : Device) (n : Nat) (k : Lock) : (d.setLock n k).waits = d.waits := rfl
@[simp] theorem Device.setLock_fabEng (d : Device) (n : Nat) (k : Lock) : (d.setLock n k).fabEng = d.fabEng := rfl
@[simp] theorem Device.setLock_fabWaitCnt (d : Device) (n : Nat) (k : Lock) : (d.setLock n k).fabWaitCnt = d.fabWaitCnt := rfl
@[simp] theorem Device.setLock_rw (d : Device) (n : Nat) (k : Lock) : (d.setLock n k).rw = d.rw := rfl
@[simp] theorem Device.setLock_shadow (d : Device) (n : Nat) (k : Lock) : (d.setLock n k).shadow = d.shadow := rfl
@[simp] theorem Device.setLock_active (d : Device) (n : Nat) (k : Lock) : (d.setLock n k).active = d.active := rfl
@[simp] theorem Device.setLock_spent (d : Device) (n : Nat) (k : Lock) : (d.setLock n k).spent = d.spent := rfl
@[simp] theorem Device.setLock_rdata (d : Device) (n : Nat) (k : Lock) : (d.setLock n k).rdata = d.rdata := rfl
@[simp] theorem Device.setLock_resp (d : Device) (n : Nat) (k : Lock) : (d.setLock n k).resp = d.resp := rfl
@[simp] theorem Device.setLock_same (d : Device) (n : Nat) (k : Lock) : (d.setLock n k).same = d.same := rfl
@[simp] theorem Device.setLock_free (d : Device) (n : Nat) (k : Lock) : (d.setLock n k).free = d.free := rfl

/-! ### `Device.setBuf` -/

@[simp] theorem Device.setBuf_time (d : Device) (i : Nat) (b : Buf) : (d.setBuf i b).time = d.time := rfl
@[simp] theorem Device.setBuf_rtc (d : Device) (i : Nat) (b : Buf) : (d.setBuf i b).rtc = d.rtc := rfl
@[simp] theorem Device.setBuf_pwr (d : Device) (i : Nat) (b : Buf) : (d.setBuf i b).pwr = d.pwr := rfl
@[simp] theorem Device.setBuf_rst (d : Device) (i : Nat) (b : Buf) : (d.setBuf i b).rst = d.rst := rfl
@[simp] theorem Device.setBuf_owl (d : Device) (i : Nat) (b : Buf) : (d.setBuf i b).owl = d.owl := rfl
@[simp] theorem Device.setBuf_sns (d : Device) (i : Nat) (b : Buf) : (d.setBuf i b).sns = d.sns := rfl
@[simp] theorem Device.setBuf_trk (d : Device) (i : Nat) (b : Buf) : (d.setBuf i b).trk = d.trk := rfl
@[simp] theorem Device.setBuf_pwm (d : Device) (i : Nat) (b : Buf) : (d.setBuf i b).pwm = d.pwm := rfl
@[simp] theorem Device.setBuf_le (d : Device) (i : Nat) (b : Buf) : (d.setBuf i b).le = d.le := rfl
@[simp] theorem Device.setBuf_evr (d : Device) (i : Nat) (b : Buf) : (d.setBuf i b).evr = d.evr := rfl
@[simp] theorem Device.setBuf_intc (d : Device) (i : Nat) (b : Buf) : (d.setBuf i b).intc = d.intc := rfl
@[simp] theorem Device.setBuf_core (d : Device) (i : Nat) (b : Buf) : (d.setBuf i b).core = d.core := rfl
@[simp] theorem Device.setBuf_mem (d : Device) (i : Nat) (b : Buf) : (d.setBuf i b).mem = d.mem := rfl
@[simp] theorem Device.setBuf_flash (d : Device) (i : Nat) (b : Buf) : (d.setBuf i b).flash = d.flash := rfl
@[simp] theorem Device.setBuf_fuse (d : Device) (i : Nat) (b : Buf) : (d.setBuf i b).fuse = d.fuse := rfl
@[simp] theorem Device.setBuf_que (d : Device) (i : Nat) (b : Buf) : (d.setBuf i b).que = d.que := rfl
@[simp] theorem Device.setBuf_lock (d : Device) (i : Nat) (b : Buf) : (d.setBuf i b).lock = d.lock := rfl
@[simp] theorem Device.setBuf_dma (d : Device) (i : Nat) (b : Buf) : (d.setBuf i b).dma = d.dma := rfl
@[simp] theorem Device.setBuf_link (d : Device) (i : Nat) (b : Buf) : (d.setBuf i b).link = d.link := rfl
@[simp] theorem Device.setBuf_od (d : Device) (i : Nat) (b : Buf) : (d.setBuf i b).od = d.od := rfl
@[simp] theorem Device.setBuf_swap (d : Device) (i : Nat) (b : Buf) : (d.setBuf i b).swap = d.swap := rfl
@[simp] theorem Device.setBuf_dbg (d : Device) (i : Nat) (b : Buf) : (d.setBuf i b).dbg = d.dbg := rfl
@[simp] theorem Device.setBuf_sys (d : Device) (i : Nat) (b : Buf) : (d.setBuf i b).sys = d.sys := rfl
@[simp] theorem Device.setBuf_waits (d : Device) (i : Nat) (b : Buf) : (d.setBuf i b).waits = d.waits := rfl
@[simp] theorem Device.setBuf_fabEng (d : Device) (i : Nat) (b : Buf) : (d.setBuf i b).fabEng = d.fabEng := rfl
@[simp] theorem Device.setBuf_fabWaitCnt (d : Device) (i : Nat) (b : Buf) : (d.setBuf i b).fabWaitCnt = d.fabWaitCnt := rfl
@[simp] theorem Device.setBuf_rw (d : Device) (i : Nat) (b : Buf) : (d.setBuf i b).rw = d.rw := rfl
@[simp] theorem Device.setBuf_shadow (d : Device) (i : Nat) (b : Buf) : (d.setBuf i b).shadow = d.shadow := rfl
@[simp] theorem Device.setBuf_active (d : Device) (i : Nat) (b : Buf) : (d.setBuf i b).active = d.active := rfl
@[simp] theorem Device.setBuf_spent (d : Device) (i : Nat) (b : Buf) : (d.setBuf i b).spent = d.spent := rfl
@[simp] theorem Device.setBuf_rdata (d : Device) (i : Nat) (b : Buf) : (d.setBuf i b).rdata = d.rdata := rfl
@[simp] theorem Device.setBuf_resp (d : Device) (i : Nat) (b : Buf) : (d.setBuf i b).resp = d.resp := rfl
@[simp] theorem Device.setBuf_same (d : Device) (i : Nat) (b : Buf) : (d.setBuf i b).same = d.same := rfl
@[simp] theorem Device.setBuf_free (d : Device) (i : Nat) (b : Buf) : (d.setBuf i b).free = d.free := rfl

/-! ### `Device.setDma` -/

@[simp] theorem Device.setDma_time (d : Device) (k : Nat) (c : DmaCh) : (d.setDma k c).time = d.time := rfl
@[simp] theorem Device.setDma_rtc (d : Device) (k : Nat) (c : DmaCh) : (d.setDma k c).rtc = d.rtc := rfl
@[simp] theorem Device.setDma_pwr (d : Device) (k : Nat) (c : DmaCh) : (d.setDma k c).pwr = d.pwr := rfl
@[simp] theorem Device.setDma_rst (d : Device) (k : Nat) (c : DmaCh) : (d.setDma k c).rst = d.rst := rfl
@[simp] theorem Device.setDma_owl (d : Device) (k : Nat) (c : DmaCh) : (d.setDma k c).owl = d.owl := rfl
@[simp] theorem Device.setDma_sns (d : Device) (k : Nat) (c : DmaCh) : (d.setDma k c).sns = d.sns := rfl
@[simp] theorem Device.setDma_trk (d : Device) (k : Nat) (c : DmaCh) : (d.setDma k c).trk = d.trk := rfl
@[simp] theorem Device.setDma_pwm (d : Device) (k : Nat) (c : DmaCh) : (d.setDma k c).pwm = d.pwm := rfl
@[simp] theorem Device.setDma_le (d : Device) (k : Nat) (c : DmaCh) : (d.setDma k c).le = d.le := rfl
@[simp] theorem Device.setDma_evr (d : Device) (k : Nat) (c : DmaCh) : (d.setDma k c).evr = d.evr := rfl
@[simp] theorem Device.setDma_intc (d : Device) (k : Nat) (c : DmaCh) : (d.setDma k c).intc = d.intc := rfl
@[simp] theorem Device.setDma_core (d : Device) (k : Nat) (c : DmaCh) : (d.setDma k c).core = d.core := rfl
@[simp] theorem Device.setDma_mem (d : Device) (k : Nat) (c : DmaCh) : (d.setDma k c).mem = d.mem := rfl
@[simp] theorem Device.setDma_flash (d : Device) (k : Nat) (c : DmaCh) : (d.setDma k c).flash = d.flash := rfl
@[simp] theorem Device.setDma_fuse (d : Device) (k : Nat) (c : DmaCh) : (d.setDma k c).fuse = d.fuse := rfl
@[simp] theorem Device.setDma_que (d : Device) (k : Nat) (c : DmaCh) : (d.setDma k c).que = d.que := rfl
@[simp] theorem Device.setDma_lock (d : Device) (k : Nat) (c : DmaCh) : (d.setDma k c).lock = d.lock := rfl
@[simp] theorem Device.setDma_shed (d : Device) (k : Nat) (c : DmaCh) : (d.setDma k c).shed = d.shed := rfl
@[simp] theorem Device.setDma_link (d : Device) (k : Nat) (c : DmaCh) : (d.setDma k c).link = d.link := rfl
@[simp] theorem Device.setDma_od (d : Device) (k : Nat) (c : DmaCh) : (d.setDma k c).od = d.od := rfl
@[simp] theorem Device.setDma_swap (d : Device) (k : Nat) (c : DmaCh) : (d.setDma k c).swap = d.swap := rfl
@[simp] theorem Device.setDma_dbg (d : Device) (k : Nat) (c : DmaCh) : (d.setDma k c).dbg = d.dbg := rfl
@[simp] theorem Device.setDma_sys (d : Device) (k : Nat) (c : DmaCh) : (d.setDma k c).sys = d.sys := rfl
@[simp] theorem Device.setDma_waits (d : Device) (k : Nat) (c : DmaCh) : (d.setDma k c).waits = d.waits := rfl
@[simp] theorem Device.setDma_fabEng (d : Device) (k : Nat) (c : DmaCh) : (d.setDma k c).fabEng = d.fabEng := rfl
@[simp] theorem Device.setDma_fabWaitCnt (d : Device) (k : Nat) (c : DmaCh) : (d.setDma k c).fabWaitCnt = d.fabWaitCnt := rfl
@[simp] theorem Device.setDma_rw (d : Device) (k : Nat) (c : DmaCh) : (d.setDma k c).rw = d.rw := rfl
@[simp] theorem Device.setDma_shadow (d : Device) (k : Nat) (c : DmaCh) : (d.setDma k c).shadow = d.shadow := rfl
@[simp] theorem Device.setDma_active (d : Device) (k : Nat) (c : DmaCh) : (d.setDma k c).active = d.active := rfl
@[simp] theorem Device.setDma_spent (d : Device) (k : Nat) (c : DmaCh) : (d.setDma k c).spent = d.spent := rfl
@[simp] theorem Device.setDma_rdata (d : Device) (k : Nat) (c : DmaCh) : (d.setDma k c).rdata = d.rdata := rfl
@[simp] theorem Device.setDma_resp (d : Device) (k : Nat) (c : DmaCh) : (d.setDma k c).resp = d.resp := rfl
@[simp] theorem Device.setDma_same (d : Device) (k : Nat) (c : DmaCh) : (d.setDma k c).same = d.same := rfl
@[simp] theorem Device.setDma_free (d : Device) (k : Nat) (c : DmaCh) : (d.setDma k c).free = d.free := rfl

/-! ### `Device.setCmp` -/

@[simp] theorem Device.setCmp_rtc (d : Device) (k : Nat) (c : Cmp) : (d.setCmp k c).rtc = d.rtc := rfl
@[simp] theorem Device.setCmp_pwr (d : Device) (k : Nat) (c : Cmp) : (d.setCmp k c).pwr = d.pwr := rfl
@[simp] theorem Device.setCmp_rst (d : Device) (k : Nat) (c : Cmp) : (d.setCmp k c).rst = d.rst := rfl
@[simp] theorem Device.setCmp_owl (d : Device) (k : Nat) (c : Cmp) : (d.setCmp k c).owl = d.owl := rfl
@[simp] theorem Device.setCmp_sns (d : Device) (k : Nat) (c : Cmp) : (d.setCmp k c).sns = d.sns := rfl
@[simp] theorem Device.setCmp_trk (d : Device) (k : Nat) (c : Cmp) : (d.setCmp k c).trk = d.trk := rfl
@[simp] theorem Device.setCmp_pwm (d : Device) (k : Nat) (c : Cmp) : (d.setCmp k c).pwm = d.pwm := rfl
@[simp] theorem Device.setCmp_le (d : Device) (k : Nat) (c : Cmp) : (d.setCmp k c).le = d.le := rfl
@[simp] theorem Device.setCmp_evr (d : Device) (k : Nat) (c : Cmp) : (d.setCmp k c).evr = d.evr := rfl
@[simp] theorem Device.setCmp_intc (d : Device) (k : Nat) (c : Cmp) : (d.setCmp k c).intc = d.intc := rfl
@[simp] theorem Device.setCmp_core (d : Device) (k : Nat) (c : Cmp) : (d.setCmp k c).core = d.core := rfl
@[simp] theorem Device.setCmp_mem (d : Device) (k : Nat) (c : Cmp) : (d.setCmp k c).mem = d.mem := rfl
@[simp] theorem Device.setCmp_flash (d : Device) (k : Nat) (c : Cmp) : (d.setCmp k c).flash = d.flash := rfl
@[simp] theorem Device.setCmp_fuse (d : Device) (k : Nat) (c : Cmp) : (d.setCmp k c).fuse = d.fuse := rfl
@[simp] theorem Device.setCmp_que (d : Device) (k : Nat) (c : Cmp) : (d.setCmp k c).que = d.que := rfl
@[simp] theorem Device.setCmp_lock (d : Device) (k : Nat) (c : Cmp) : (d.setCmp k c).lock = d.lock := rfl
@[simp] theorem Device.setCmp_shed (d : Device) (k : Nat) (c : Cmp) : (d.setCmp k c).shed = d.shed := rfl
@[simp] theorem Device.setCmp_dma (d : Device) (k : Nat) (c : Cmp) : (d.setCmp k c).dma = d.dma := rfl
@[simp] theorem Device.setCmp_link (d : Device) (k : Nat) (c : Cmp) : (d.setCmp k c).link = d.link := rfl
@[simp] theorem Device.setCmp_od (d : Device) (k : Nat) (c : Cmp) : (d.setCmp k c).od = d.od := rfl
@[simp] theorem Device.setCmp_swap (d : Device) (k : Nat) (c : Cmp) : (d.setCmp k c).swap = d.swap := rfl
@[simp] theorem Device.setCmp_dbg (d : Device) (k : Nat) (c : Cmp) : (d.setCmp k c).dbg = d.dbg := rfl
@[simp] theorem Device.setCmp_sys (d : Device) (k : Nat) (c : Cmp) : (d.setCmp k c).sys = d.sys := rfl
@[simp] theorem Device.setCmp_waits (d : Device) (k : Nat) (c : Cmp) : (d.setCmp k c).waits = d.waits := rfl
@[simp] theorem Device.setCmp_fabEng (d : Device) (k : Nat) (c : Cmp) : (d.setCmp k c).fabEng = d.fabEng := rfl
@[simp] theorem Device.setCmp_fabWaitCnt (d : Device) (k : Nat) (c : Cmp) : (d.setCmp k c).fabWaitCnt = d.fabWaitCnt := rfl
@[simp] theorem Device.setCmp_rw (d : Device) (k : Nat) (c : Cmp) : (d.setCmp k c).rw = d.rw := rfl
@[simp] theorem Device.setCmp_shadow (d : Device) (k : Nat) (c : Cmp) : (d.setCmp k c).shadow = d.shadow := rfl
@[simp] theorem Device.setCmp_active (d : Device) (k : Nat) (c : Cmp) : (d.setCmp k c).active = d.active := rfl
@[simp] theorem Device.setCmp_spent (d : Device) (k : Nat) (c : Cmp) : (d.setCmp k c).spent = d.spent := rfl
@[simp] theorem Device.setCmp_rdata (d : Device) (k : Nat) (c : Cmp) : (d.setCmp k c).rdata = d.rdata := rfl
@[simp] theorem Device.setCmp_resp (d : Device) (k : Nat) (c : Cmp) : (d.setCmp k c).resp = d.resp := rfl
@[simp] theorem Device.setCmp_same (d : Device) (k : Nat) (c : Cmp) : (d.setCmp k c).same = d.same := rfl
@[simp] theorem Device.setCmp_free (d : Device) (k : Nat) (c : Cmp) : (d.setCmp k c).free = d.free := rfl

/-! ### `Device.setDbgC` -/

@[simp] theorem Device.setDbgC_time (d : Device) (c : Nat) (k : DbgCore) : (d.setDbgC c k).time = d.time := rfl
@[simp] theorem Device.setDbgC_rtc (d : Device) (c : Nat) (k : DbgCore) : (d.setDbgC c k).rtc = d.rtc := rfl
@[simp] theorem Device.setDbgC_pwr (d : Device) (c : Nat) (k : DbgCore) : (d.setDbgC c k).pwr = d.pwr := rfl
@[simp] theorem Device.setDbgC_rst (d : Device) (c : Nat) (k : DbgCore) : (d.setDbgC c k).rst = d.rst := rfl
@[simp] theorem Device.setDbgC_owl (d : Device) (c : Nat) (k : DbgCore) : (d.setDbgC c k).owl = d.owl := rfl
@[simp] theorem Device.setDbgC_sns (d : Device) (c : Nat) (k : DbgCore) : (d.setDbgC c k).sns = d.sns := rfl
@[simp] theorem Device.setDbgC_trk (d : Device) (c : Nat) (k : DbgCore) : (d.setDbgC c k).trk = d.trk := rfl
@[simp] theorem Device.setDbgC_pwm (d : Device) (c : Nat) (k : DbgCore) : (d.setDbgC c k).pwm = d.pwm := rfl
@[simp] theorem Device.setDbgC_le (d : Device) (c : Nat) (k : DbgCore) : (d.setDbgC c k).le = d.le := rfl
@[simp] theorem Device.setDbgC_evr (d : Device) (c : Nat) (k : DbgCore) : (d.setDbgC c k).evr = d.evr := rfl
@[simp] theorem Device.setDbgC_intc (d : Device) (c : Nat) (k : DbgCore) : (d.setDbgC c k).intc = d.intc := rfl
@[simp] theorem Device.setDbgC_core (d : Device) (c : Nat) (k : DbgCore) : (d.setDbgC c k).core = d.core := rfl
@[simp] theorem Device.setDbgC_mem (d : Device) (c : Nat) (k : DbgCore) : (d.setDbgC c k).mem = d.mem := rfl
@[simp] theorem Device.setDbgC_flash (d : Device) (c : Nat) (k : DbgCore) : (d.setDbgC c k).flash = d.flash := rfl
@[simp] theorem Device.setDbgC_fuse (d : Device) (c : Nat) (k : DbgCore) : (d.setDbgC c k).fuse = d.fuse := rfl
@[simp] theorem Device.setDbgC_que (d : Device) (c : Nat) (k : DbgCore) : (d.setDbgC c k).que = d.que := rfl
@[simp] theorem Device.setDbgC_lock (d : Device) (c : Nat) (k : DbgCore) : (d.setDbgC c k).lock = d.lock := rfl
@[simp] theorem Device.setDbgC_shed (d : Device) (c : Nat) (k : DbgCore) : (d.setDbgC c k).shed = d.shed := rfl
@[simp] theorem Device.setDbgC_dma (d : Device) (c : Nat) (k : DbgCore) : (d.setDbgC c k).dma = d.dma := rfl
@[simp] theorem Device.setDbgC_link (d : Device) (c : Nat) (k : DbgCore) : (d.setDbgC c k).link = d.link := rfl
@[simp] theorem Device.setDbgC_od (d : Device) (c : Nat) (k : DbgCore) : (d.setDbgC c k).od = d.od := rfl
@[simp] theorem Device.setDbgC_swap (d : Device) (c : Nat) (k : DbgCore) : (d.setDbgC c k).swap = d.swap := rfl
@[simp] theorem Device.setDbgC_sys (d : Device) (c : Nat) (k : DbgCore) : (d.setDbgC c k).sys = d.sys := rfl
@[simp] theorem Device.setDbgC_waits (d : Device) (c : Nat) (k : DbgCore) : (d.setDbgC c k).waits = d.waits := rfl
@[simp] theorem Device.setDbgC_fabEng (d : Device) (c : Nat) (k : DbgCore) : (d.setDbgC c k).fabEng = d.fabEng := rfl
@[simp] theorem Device.setDbgC_fabWaitCnt (d : Device) (c : Nat) (k : DbgCore) : (d.setDbgC c k).fabWaitCnt = d.fabWaitCnt := rfl
@[simp] theorem Device.setDbgC_rw (d : Device) (c : Nat) (k : DbgCore) : (d.setDbgC c k).rw = d.rw := rfl
@[simp] theorem Device.setDbgC_shadow (d : Device) (c : Nat) (k : DbgCore) : (d.setDbgC c k).shadow = d.shadow := rfl
@[simp] theorem Device.setDbgC_active (d : Device) (c : Nat) (k : DbgCore) : (d.setDbgC c k).active = d.active := rfl
@[simp] theorem Device.setDbgC_spent (d : Device) (c : Nat) (k : DbgCore) : (d.setDbgC c k).spent = d.spent := rfl
@[simp] theorem Device.setDbgC_rdata (d : Device) (c : Nat) (k : DbgCore) : (d.setDbgC c k).rdata = d.rdata := rfl
@[simp] theorem Device.setDbgC_resp (d : Device) (c : Nat) (k : DbgCore) : (d.setDbgC c k).resp = d.resp := rfl
@[simp] theorem Device.setDbgC_same (d : Device) (c : Nat) (k : DbgCore) : (d.setDbgC c k).same = d.same := rfl
@[simp] theorem Device.setDbgC_free (d : Device) (c : Nat) (k : DbgCore) : (d.setDbgC c k).free = d.free := rfl

/-! ### `Device.setLv` -/

@[simp] theorem Device.setLv_time (d : Device) (a : Nat) (v : Word) : (d.setLv a v).time = d.time := rfl
@[simp] theorem Device.setLv_rtc (d : Device) (a : Nat) (v : Word) : (d.setLv a v).rtc = d.rtc := rfl
@[simp] theorem Device.setLv_pwr (d : Device) (a : Nat) (v : Word) : (d.setLv a v).pwr = d.pwr := rfl
@[simp] theorem Device.setLv_rst (d : Device) (a : Nat) (v : Word) : (d.setLv a v).rst = d.rst := rfl
@[simp] theorem Device.setLv_owl (d : Device) (a : Nat) (v : Word) : (d.setLv a v).owl = d.owl := rfl
@[simp] theorem Device.setLv_sns (d : Device) (a : Nat) (v : Word) : (d.setLv a v).sns = d.sns := rfl
@[simp] theorem Device.setLv_trk (d : Device) (a : Nat) (v : Word) : (d.setLv a v).trk = d.trk := rfl
@[simp] theorem Device.setLv_pwm (d : Device) (a : Nat) (v : Word) : (d.setLv a v).pwm = d.pwm := rfl
@[simp] theorem Device.setLv_le (d : Device) (a : Nat) (v : Word) : (d.setLv a v).le = d.le := rfl
@[simp] theorem Device.setLv_evr (d : Device) (a : Nat) (v : Word) : (d.setLv a v).evr = d.evr := rfl
@[simp] theorem Device.setLv_intc (d : Device) (a : Nat) (v : Word) : (d.setLv a v).intc = d.intc := rfl
@[simp] theorem Device.setLv_core (d : Device) (a : Nat) (v : Word) : (d.setLv a v).core = d.core := rfl
@[simp] theorem Device.setLv_mem (d : Device) (a : Nat) (v : Word) : (d.setLv a v).mem = d.mem := rfl
@[simp] theorem Device.setLv_flash (d : Device) (a : Nat) (v : Word) : (d.setLv a v).flash = d.flash := rfl
@[simp] theorem Device.setLv_fuse (d : Device) (a : Nat) (v : Word) : (d.setLv a v).fuse = d.fuse := rfl
@[simp] theorem Device.setLv_que (d : Device) (a : Nat) (v : Word) : (d.setLv a v).que = d.que := rfl
@[simp] theorem Device.setLv_lock (d : Device) (a : Nat) (v : Word) : (d.setLv a v).lock = d.lock := rfl
@[simp] theorem Device.setLv_shed (d : Device) (a : Nat) (v : Word) : (d.setLv a v).shed = d.shed := rfl
@[simp] theorem Device.setLv_dma (d : Device) (a : Nat) (v : Word) : (d.setLv a v).dma = d.dma := rfl
@[simp] theorem Device.setLv_link (d : Device) (a : Nat) (v : Word) : (d.setLv a v).link = d.link := rfl
@[simp] theorem Device.setLv_od (d : Device) (a : Nat) (v : Word) : (d.setLv a v).od = d.od := rfl
@[simp] theorem Device.setLv_swap (d : Device) (a : Nat) (v : Word) : (d.setLv a v).swap = d.swap := rfl
@[simp] theorem Device.setLv_dbg (d : Device) (a : Nat) (v : Word) : (d.setLv a v).dbg = d.dbg := rfl
@[simp] theorem Device.setLv_sys (d : Device) (a : Nat) (v : Word) : (d.setLv a v).sys = d.sys := rfl
@[simp] theorem Device.setLv_waits (d : Device) (a : Nat) (v : Word) : (d.setLv a v).waits = d.waits := rfl
@[simp] theorem Device.setLv_fabEng (d : Device) (a : Nat) (v : Word) : (d.setLv a v).fabEng = d.fabEng := rfl
@[simp] theorem Device.setLv_fabWaitCnt (d : Device) (a : Nat) (v : Word) : (d.setLv a v).fabWaitCnt = d.fabWaitCnt := rfl
@[simp] theorem Device.setLv_shadow (d : Device) (a : Nat) (v : Word) : (d.setLv a v).shadow = d.shadow := rfl
@[simp] theorem Device.setLv_active (d : Device) (a : Nat) (v : Word) : (d.setLv a v).active = d.active := rfl
@[simp] theorem Device.setLv_spent (d : Device) (a : Nat) (v : Word) : (d.setLv a v).spent = d.spent := rfl
@[simp] theorem Device.setLv_rdata (d : Device) (a : Nat) (v : Word) : (d.setLv a v).rdata = d.rdata := rfl
@[simp] theorem Device.setLv_resp (d : Device) (a : Nat) (v : Word) : (d.setLv a v).resp = d.resp := rfl
@[simp] theorem Device.setLv_same (d : Device) (a : Nat) (v : Word) : (d.setLv a v).same = d.same := rfl
@[simp] theorem Device.setLv_free (d : Device) (a : Nat) (v : Word) : (d.setLv a v).free = d.free := rfl

/-! ### `Device.setEcc` -/

@[simp] theorem Device.setEcc_time (d : Device) (a : Nat) (e : Ecc) : (d.setEcc a e).time = d.time := rfl
@[simp] theorem Device.setEcc_rtc (d : Device) (a : Nat) (e : Ecc) : (d.setEcc a e).rtc = d.rtc := rfl
@[simp] theorem Device.setEcc_pwr (d : Device) (a : Nat) (e : Ecc) : (d.setEcc a e).pwr = d.pwr := rfl
@[simp] theorem Device.setEcc_rst (d : Device) (a : Nat) (e : Ecc) : (d.setEcc a e).rst = d.rst := rfl
@[simp] theorem Device.setEcc_owl (d : Device) (a : Nat) (e : Ecc) : (d.setEcc a e).owl = d.owl := rfl
@[simp] theorem Device.setEcc_sns (d : Device) (a : Nat) (e : Ecc) : (d.setEcc a e).sns = d.sns := rfl
@[simp] theorem Device.setEcc_trk (d : Device) (a : Nat) (e : Ecc) : (d.setEcc a e).trk = d.trk := rfl
@[simp] theorem Device.setEcc_pwm (d : Device) (a : Nat) (e : Ecc) : (d.setEcc a e).pwm = d.pwm := rfl
@[simp] theorem Device.setEcc_le (d : Device) (a : Nat) (e : Ecc) : (d.setEcc a e).le = d.le := rfl
@[simp] theorem Device.setEcc_evr (d : Device) (a : Nat) (e : Ecc) : (d.setEcc a e).evr = d.evr := rfl
@[simp] theorem Device.setEcc_intc (d : Device) (a : Nat) (e : Ecc) : (d.setEcc a e).intc = d.intc := rfl
@[simp] theorem Device.setEcc_core (d : Device) (a : Nat) (e : Ecc) : (d.setEcc a e).core = d.core := rfl
@[simp] theorem Device.setEcc_flash (d : Device) (a : Nat) (e : Ecc) : (d.setEcc a e).flash = d.flash := rfl
@[simp] theorem Device.setEcc_fuse (d : Device) (a : Nat) (e : Ecc) : (d.setEcc a e).fuse = d.fuse := rfl
@[simp] theorem Device.setEcc_que (d : Device) (a : Nat) (e : Ecc) : (d.setEcc a e).que = d.que := rfl
@[simp] theorem Device.setEcc_lock (d : Device) (a : Nat) (e : Ecc) : (d.setEcc a e).lock = d.lock := rfl
@[simp] theorem Device.setEcc_shed (d : Device) (a : Nat) (e : Ecc) : (d.setEcc a e).shed = d.shed := rfl
@[simp] theorem Device.setEcc_dma (d : Device) (a : Nat) (e : Ecc) : (d.setEcc a e).dma = d.dma := rfl
@[simp] theorem Device.setEcc_link (d : Device) (a : Nat) (e : Ecc) : (d.setEcc a e).link = d.link := rfl
@[simp] theorem Device.setEcc_od (d : Device) (a : Nat) (e : Ecc) : (d.setEcc a e).od = d.od := rfl
@[simp] theorem Device.setEcc_swap (d : Device) (a : Nat) (e : Ecc) : (d.setEcc a e).swap = d.swap := rfl
@[simp] theorem Device.setEcc_dbg (d : Device) (a : Nat) (e : Ecc) : (d.setEcc a e).dbg = d.dbg := rfl
@[simp] theorem Device.setEcc_sys (d : Device) (a : Nat) (e : Ecc) : (d.setEcc a e).sys = d.sys := rfl
@[simp] theorem Device.setEcc_waits (d : Device) (a : Nat) (e : Ecc) : (d.setEcc a e).waits = d.waits := rfl
@[simp] theorem Device.setEcc_fabEng (d : Device) (a : Nat) (e : Ecc) : (d.setEcc a e).fabEng = d.fabEng := rfl
@[simp] theorem Device.setEcc_fabWaitCnt (d : Device) (a : Nat) (e : Ecc) : (d.setEcc a e).fabWaitCnt = d.fabWaitCnt := rfl
@[simp] theorem Device.setEcc_rw (d : Device) (a : Nat) (e : Ecc) : (d.setEcc a e).rw = d.rw := rfl
@[simp] theorem Device.setEcc_shadow (d : Device) (a : Nat) (e : Ecc) : (d.setEcc a e).shadow = d.shadow := rfl
@[simp] theorem Device.setEcc_active (d : Device) (a : Nat) (e : Ecc) : (d.setEcc a e).active = d.active := rfl
@[simp] theorem Device.setEcc_spent (d : Device) (a : Nat) (e : Ecc) : (d.setEcc a e).spent = d.spent := rfl
@[simp] theorem Device.setEcc_rdata (d : Device) (a : Nat) (e : Ecc) : (d.setEcc a e).rdata = d.rdata := rfl
@[simp] theorem Device.setEcc_resp (d : Device) (a : Nat) (e : Ecc) : (d.setEcc a e).resp = d.resp := rfl
@[simp] theorem Device.setEcc_same (d : Device) (a : Nat) (e : Ecc) : (d.setEcc a e).same = d.same := rfl
@[simp] theorem Device.setEcc_free (d : Device) (a : Nat) (e : Ecc) : (d.setEcc a e).free = d.free := rfl

/-! ### `Device.wrByte` -/

@[simp] theorem Device.wrByte_time (d : Device) (a : Nat) (b : Byte) : (d.wrByte a b).time = d.time := rfl
@[simp] theorem Device.wrByte_rtc (d : Device) (a : Nat) (b : Byte) : (d.wrByte a b).rtc = d.rtc := rfl
@[simp] theorem Device.wrByte_pwr (d : Device) (a : Nat) (b : Byte) : (d.wrByte a b).pwr = d.pwr := rfl
@[simp] theorem Device.wrByte_rst (d : Device) (a : Nat) (b : Byte) : (d.wrByte a b).rst = d.rst := rfl
@[simp] theorem Device.wrByte_owl (d : Device) (a : Nat) (b : Byte) : (d.wrByte a b).owl = d.owl := rfl
@[simp] theorem Device.wrByte_sns (d : Device) (a : Nat) (b : Byte) : (d.wrByte a b).sns = d.sns := rfl
@[simp] theorem Device.wrByte_trk (d : Device) (a : Nat) (b : Byte) : (d.wrByte a b).trk = d.trk := rfl
@[simp] theorem Device.wrByte_pwm (d : Device) (a : Nat) (b : Byte) : (d.wrByte a b).pwm = d.pwm := rfl
@[simp] theorem Device.wrByte_le (d : Device) (a : Nat) (b : Byte) : (d.wrByte a b).le = d.le := rfl
@[simp] theorem Device.wrByte_evr (d : Device) (a : Nat) (b : Byte) : (d.wrByte a b).evr = d.evr := rfl
@[simp] theorem Device.wrByte_intc (d : Device) (a : Nat) (b : Byte) : (d.wrByte a b).intc = d.intc := rfl
@[simp] theorem Device.wrByte_core (d : Device) (a : Nat) (b : Byte) : (d.wrByte a b).core = d.core := rfl
@[simp] theorem Device.wrByte_flash (d : Device) (a : Nat) (b : Byte) : (d.wrByte a b).flash = d.flash := rfl
@[simp] theorem Device.wrByte_fuse (d : Device) (a : Nat) (b : Byte) : (d.wrByte a b).fuse = d.fuse := rfl
@[simp] theorem Device.wrByte_que (d : Device) (a : Nat) (b : Byte) : (d.wrByte a b).que = d.que := rfl
@[simp] theorem Device.wrByte_lock (d : Device) (a : Nat) (b : Byte) : (d.wrByte a b).lock = d.lock := rfl
@[simp] theorem Device.wrByte_shed (d : Device) (a : Nat) (b : Byte) : (d.wrByte a b).shed = d.shed := rfl
@[simp] theorem Device.wrByte_dma (d : Device) (a : Nat) (b : Byte) : (d.wrByte a b).dma = d.dma := rfl
@[simp] theorem Device.wrByte_link (d : Device) (a : Nat) (b : Byte) : (d.wrByte a b).link = d.link := rfl
@[simp] theorem Device.wrByte_od (d : Device) (a : Nat) (b : Byte) : (d.wrByte a b).od = d.od := rfl
@[simp] theorem Device.wrByte_swap (d : Device) (a : Nat) (b : Byte) : (d.wrByte a b).swap = d.swap := rfl
@[simp] theorem Device.wrByte_dbg (d : Device) (a : Nat) (b : Byte) : (d.wrByte a b).dbg = d.dbg := rfl
@[simp] theorem Device.wrByte_sys (d : Device) (a : Nat) (b : Byte) : (d.wrByte a b).sys = d.sys := rfl
@[simp] theorem Device.wrByte_waits (d : Device) (a : Nat) (b : Byte) : (d.wrByte a b).waits = d.waits := rfl
@[simp] theorem Device.wrByte_fabEng (d : Device) (a : Nat) (b : Byte) : (d.wrByte a b).fabEng = d.fabEng := rfl
@[simp] theorem Device.wrByte_fabWaitCnt (d : Device) (a : Nat) (b : Byte) : (d.wrByte a b).fabWaitCnt = d.fabWaitCnt := rfl
@[simp] theorem Device.wrByte_rw (d : Device) (a : Nat) (b : Byte) : (d.wrByte a b).rw = d.rw := rfl
@[simp] theorem Device.wrByte_shadow (d : Device) (a : Nat) (b : Byte) : (d.wrByte a b).shadow = d.shadow := rfl
@[simp] theorem Device.wrByte_active (d : Device) (a : Nat) (b : Byte) : (d.wrByte a b).active = d.active := rfl
@[simp] theorem Device.wrByte_spent (d : Device) (a : Nat) (b : Byte) : (d.wrByte a b).spent = d.spent := rfl
@[simp] theorem Device.wrByte_rdata (d : Device) (a : Nat) (b : Byte) : (d.wrByte a b).rdata = d.rdata := rfl
@[simp] theorem Device.wrByte_resp (d : Device) (a : Nat) (b : Byte) : (d.wrByte a b).resp = d.resp := rfl
@[simp] theorem Device.wrByte_same (d : Device) (a : Nat) (b : Byte) : (d.wrByte a b).same = d.same := rfl
@[simp] theorem Device.wrByte_free (d : Device) (a : Nat) (b : Byte) : (d.wrByte a b).free = d.free := rfl

/-! ### `Device.setPend` -/

@[simp] theorem Device.setPend_time (d : Device) (n : Nat) (b : Bool) : (d.setPend n b).time = d.time := rfl
@[simp] theorem Device.setPend_rtc (d : Device) (n : Nat) (b : Bool) : (d.setPend n b).rtc = d.rtc := rfl
@[simp] theorem Device.setPend_pwr (d : Device) (n : Nat) (b : Bool) : (d.setPend n b).pwr = d.pwr := rfl
@[simp] theorem Device.setPend_rst (d : Device) (n : Nat) (b : Bool) : (d.setPend n b).rst = d.rst := rfl
@[simp] theorem Device.setPend_owl (d : Device) (n : Nat) (b : Bool) : (d.setPend n b).owl = d.owl := rfl
@[simp] theorem Device.setPend_sns (d : Device) (n : Nat) (b : Bool) : (d.setPend n b).sns = d.sns := rfl
@[simp] theorem Device.setPend_trk (d : Device) (n : Nat) (b : Bool) : (d.setPend n b).trk = d.trk := rfl
@[simp] theorem Device.setPend_pwm (d : Device) (n : Nat) (b : Bool) : (d.setPend n b).pwm = d.pwm := rfl
@[simp] theorem Device.setPend_le (d : Device) (n : Nat) (b : Bool) : (d.setPend n b).le = d.le := rfl
@[simp] theorem Device.setPend_evr (d : Device) (n : Nat) (b : Bool) : (d.setPend n b).evr = d.evr := rfl
@[simp] theorem Device.setPend_core (d : Device) (n : Nat) (b : Bool) : (d.setPend n b).core = d.core := rfl
@[simp] theorem Device.setPend_mem (d : Device) (n : Nat) (b : Bool) : (d.setPend n b).mem = d.mem := rfl
@[simp] theorem Device.setPend_flash (d : Device) (n : Nat) (b : Bool) : (d.setPend n b).flash = d.flash := rfl
@[simp] theorem Device.setPend_fuse (d : Device) (n : Nat) (b : Bool) : (d.setPend n b).fuse = d.fuse := rfl
@[simp] theorem Device.setPend_que (d : Device) (n : Nat) (b : Bool) : (d.setPend n b).que = d.que := rfl
@[simp] theorem Device.setPend_lock (d : Device) (n : Nat) (b : Bool) : (d.setPend n b).lock = d.lock := rfl
@[simp] theorem Device.setPend_shed (d : Device) (n : Nat) (b : Bool) : (d.setPend n b).shed = d.shed := rfl
@[simp] theorem Device.setPend_dma (d : Device) (n : Nat) (b : Bool) : (d.setPend n b).dma = d.dma := rfl
@[simp] theorem Device.setPend_link (d : Device) (n : Nat) (b : Bool) : (d.setPend n b).link = d.link := rfl
@[simp] theorem Device.setPend_od (d : Device) (n : Nat) (b : Bool) : (d.setPend n b).od = d.od := rfl
@[simp] theorem Device.setPend_swap (d : Device) (n : Nat) (b : Bool) : (d.setPend n b).swap = d.swap := rfl
@[simp] theorem Device.setPend_dbg (d : Device) (n : Nat) (b : Bool) : (d.setPend n b).dbg = d.dbg := rfl
@[simp] theorem Device.setPend_sys (d : Device) (n : Nat) (b : Bool) : (d.setPend n b).sys = d.sys := rfl
@[simp] theorem Device.setPend_waits (d : Device) (n : Nat) (b : Bool) : (d.setPend n b).waits = d.waits := rfl
@[simp] theorem Device.setPend_fabEng (d : Device) (n : Nat) (b : Bool) : (d.setPend n b).fabEng = d.fabEng := rfl
@[simp] theorem Device.setPend_fabWaitCnt (d : Device) (n : Nat) (b : Bool) : (d.setPend n b).fabWaitCnt = d.fabWaitCnt := rfl
@[simp] theorem Device.setPend_rw (d : Device) (n : Nat) (b : Bool) : (d.setPend n b).rw = d.rw := rfl
@[simp] theorem Device.setPend_shadow (d : Device) (n : Nat) (b : Bool) : (d.setPend n b).shadow = d.shadow := rfl
@[simp] theorem Device.setPend_active (d : Device) (n : Nat) (b : Bool) : (d.setPend n b).active = d.active := rfl
@[simp] theorem Device.setPend_spent (d : Device) (n : Nat) (b : Bool) : (d.setPend n b).spent = d.spent := rfl
@[simp] theorem Device.setPend_rdata (d : Device) (n : Nat) (b : Bool) : (d.setPend n b).rdata = d.rdata := rfl
@[simp] theorem Device.setPend_resp (d : Device) (n : Nat) (b : Bool) : (d.setPend n b).resp = d.resp := rfl
@[simp] theorem Device.setPend_same (d : Device) (n : Nat) (b : Bool) : (d.setPend n b).same = d.same := rfl
@[simp] theorem Device.setPend_free (d : Device) (n : Nat) (b : Bool) : (d.setPend n b).free = d.free := rfl

/-! ### `Device.setEng` -/

@[simp] theorem Device.setEng_time (d : Device) (i : Nat) (e : Eng) : (d.setEng i e).time = d.time := rfl
@[simp] theorem Device.setEng_rtc (d : Device) (i : Nat) (e : Eng) : (d.setEng i e).rtc = d.rtc := rfl
@[simp] theorem Device.setEng_pwr (d : Device) (i : Nat) (e : Eng) : (d.setEng i e).pwr = d.pwr := rfl
@[simp] theorem Device.setEng_rst (d : Device) (i : Nat) (e : Eng) : (d.setEng i e).rst = d.rst := rfl
@[simp] theorem Device.setEng_owl (d : Device) (i : Nat) (e : Eng) : (d.setEng i e).owl = d.owl := rfl
@[simp] theorem Device.setEng_trk (d : Device) (i : Nat) (e : Eng) : (d.setEng i e).trk = d.trk := rfl
@[simp] theorem Device.setEng_pwm (d : Device) (i : Nat) (e : Eng) : (d.setEng i e).pwm = d.pwm := rfl
@[simp] theorem Device.setEng_le (d : Device) (i : Nat) (e : Eng) : (d.setEng i e).le = d.le := rfl
@[simp] theorem Device.setEng_evr (d : Device) (i : Nat) (e : Eng) : (d.setEng i e).evr = d.evr := rfl
@[simp] theorem Device.setEng_intc (d : Device) (i : Nat) (e : Eng) : (d.setEng i e).intc = d.intc := rfl
@[simp] theorem Device.setEng_core (d : Device) (i : Nat) (e : Eng) : (d.setEng i e).core = d.core := rfl
@[simp] theorem Device.setEng_mem (d : Device) (i : Nat) (e : Eng) : (d.setEng i e).mem = d.mem := rfl
@[simp] theorem Device.setEng_flash (d : Device) (i : Nat) (e : Eng) : (d.setEng i e).flash = d.flash := rfl
@[simp] theorem Device.setEng_fuse (d : Device) (i : Nat) (e : Eng) : (d.setEng i e).fuse = d.fuse := rfl
@[simp] theorem Device.setEng_que (d : Device) (i : Nat) (e : Eng) : (d.setEng i e).que = d.que := rfl
@[simp] theorem Device.setEng_lock (d : Device) (i : Nat) (e : Eng) : (d.setEng i e).lock = d.lock := rfl
@[simp] theorem Device.setEng_shed (d : Device) (i : Nat) (e : Eng) : (d.setEng i e).shed = d.shed := rfl
@[simp] theorem Device.setEng_dma (d : Device) (i : Nat) (e : Eng) : (d.setEng i e).dma = d.dma := rfl
@[simp] theorem Device.setEng_link (d : Device) (i : Nat) (e : Eng) : (d.setEng i e).link = d.link := rfl
@[simp] theorem Device.setEng_od (d : Device) (i : Nat) (e : Eng) : (d.setEng i e).od = d.od := rfl
@[simp] theorem Device.setEng_swap (d : Device) (i : Nat) (e : Eng) : (d.setEng i e).swap = d.swap := rfl
@[simp] theorem Device.setEng_dbg (d : Device) (i : Nat) (e : Eng) : (d.setEng i e).dbg = d.dbg := rfl
@[simp] theorem Device.setEng_sys (d : Device) (i : Nat) (e : Eng) : (d.setEng i e).sys = d.sys := rfl
@[simp] theorem Device.setEng_waits (d : Device) (i : Nat) (e : Eng) : (d.setEng i e).waits = d.waits := rfl
@[simp] theorem Device.setEng_fabWaitCnt (d : Device) (i : Nat) (e : Eng) : (d.setEng i e).fabWaitCnt = d.fabWaitCnt := rfl
@[simp] theorem Device.setEng_rw (d : Device) (i : Nat) (e : Eng) : (d.setEng i e).rw = d.rw := rfl
@[simp] theorem Device.setEng_shadow (d : Device) (i : Nat) (e : Eng) : (d.setEng i e).shadow = d.shadow := rfl
@[simp] theorem Device.setEng_active (d : Device) (i : Nat) (e : Eng) : (d.setEng i e).active = d.active := rfl
@[simp] theorem Device.setEng_spent (d : Device) (i : Nat) (e : Eng) : (d.setEng i e).spent = d.spent := rfl
@[simp] theorem Device.setEng_rdata (d : Device) (i : Nat) (e : Eng) : (d.setEng i e).rdata = d.rdata := rfl
@[simp] theorem Device.setEng_resp (d : Device) (i : Nat) (e : Eng) : (d.setEng i e).resp = d.resp := rfl
@[simp] theorem Device.setEng_same (d : Device) (i : Nat) (e : Eng) : (d.setEng i e).same = d.same := rfl
@[simp] theorem Device.setEng_free (d : Device) (i : Nat) (e : Eng) : (d.setEng i e).free = d.free := rfl
@[simp] theorem Device.setEng_sns (d : Device) (i : Nat) (e : Eng) : (d.setEng i e).sns = d.sns := rfl

/-! ### `Device.setHdue` -/

@[simp] theorem Device.setHdue_time (d : Device) (k : Nat) (t : Option Nat) : (d.setHdue k t).time = d.time := rfl
@[simp] theorem Device.setHdue_rtc (d : Device) (k : Nat) (t : Option Nat) : (d.setHdue k t).rtc = d.rtc := rfl
@[simp] theorem Device.setHdue_pwr (d : Device) (k : Nat) (t : Option Nat) : (d.setHdue k t).pwr = d.pwr := rfl
@[simp] theorem Device.setHdue_rst (d : Device) (k : Nat) (t : Option Nat) : (d.setHdue k t).rst = d.rst := rfl
@[simp] theorem Device.setHdue_owl (d : Device) (k : Nat) (t : Option Nat) : (d.setHdue k t).owl = d.owl := rfl
@[simp] theorem Device.setHdue_trk (d : Device) (k : Nat) (t : Option Nat) : (d.setHdue k t).trk = d.trk := rfl
@[simp] theorem Device.setHdue_pwm (d : Device) (k : Nat) (t : Option Nat) : (d.setHdue k t).pwm = d.pwm := rfl
@[simp] theorem Device.setHdue_le (d : Device) (k : Nat) (t : Option Nat) : (d.setHdue k t).le = d.le := rfl
@[simp] theorem Device.setHdue_evr (d : Device) (k : Nat) (t : Option Nat) : (d.setHdue k t).evr = d.evr := rfl
@[simp] theorem Device.setHdue_intc (d : Device) (k : Nat) (t : Option Nat) : (d.setHdue k t).intc = d.intc := rfl
@[simp] theorem Device.setHdue_core (d : Device) (k : Nat) (t : Option Nat) : (d.setHdue k t).core = d.core := rfl
@[simp] theorem Device.setHdue_mem (d : Device) (k : Nat) (t : Option Nat) : (d.setHdue k t).mem = d.mem := rfl
@[simp] theorem Device.setHdue_flash (d : Device) (k : Nat) (t : Option Nat) : (d.setHdue k t).flash = d.flash := rfl
@[simp] theorem Device.setHdue_fuse (d : Device) (k : Nat) (t : Option Nat) : (d.setHdue k t).fuse = d.fuse := rfl
@[simp] theorem Device.setHdue_que (d : Device) (k : Nat) (t : Option Nat) : (d.setHdue k t).que = d.que := rfl
@[simp] theorem Device.setHdue_lock (d : Device) (k : Nat) (t : Option Nat) : (d.setHdue k t).lock = d.lock := rfl
@[simp] theorem Device.setHdue_shed (d : Device) (k : Nat) (t : Option Nat) : (d.setHdue k t).shed = d.shed := rfl
@[simp] theorem Device.setHdue_dma (d : Device) (k : Nat) (t : Option Nat) : (d.setHdue k t).dma = d.dma := rfl
@[simp] theorem Device.setHdue_od (d : Device) (k : Nat) (t : Option Nat) : (d.setHdue k t).od = d.od := rfl
@[simp] theorem Device.setHdue_swap (d : Device) (k : Nat) (t : Option Nat) : (d.setHdue k t).swap = d.swap := rfl
@[simp] theorem Device.setHdue_dbg (d : Device) (k : Nat) (t : Option Nat) : (d.setHdue k t).dbg = d.dbg := rfl
@[simp] theorem Device.setHdue_sys (d : Device) (k : Nat) (t : Option Nat) : (d.setHdue k t).sys = d.sys := rfl
@[simp] theorem Device.setHdue_waits (d : Device) (k : Nat) (t : Option Nat) : (d.setHdue k t).waits = d.waits := rfl
@[simp] theorem Device.setHdue_fabEng (d : Device) (k : Nat) (t : Option Nat) : (d.setHdue k t).fabEng = d.fabEng := rfl
@[simp] theorem Device.setHdue_fabWaitCnt (d : Device) (k : Nat) (t : Option Nat) : (d.setHdue k t).fabWaitCnt = d.fabWaitCnt := rfl
@[simp] theorem Device.setHdue_rw (d : Device) (k : Nat) (t : Option Nat) : (d.setHdue k t).rw = d.rw := rfl
@[simp] theorem Device.setHdue_shadow (d : Device) (k : Nat) (t : Option Nat) : (d.setHdue k t).shadow = d.shadow := rfl
@[simp] theorem Device.setHdue_active (d : Device) (k : Nat) (t : Option Nat) : (d.setHdue k t).active = d.active := rfl
@[simp] theorem Device.setHdue_spent (d : Device) (k : Nat) (t : Option Nat) : (d.setHdue k t).spent = d.spent := rfl
@[simp] theorem Device.setHdue_rdata (d : Device) (k : Nat) (t : Option Nat) : (d.setHdue k t).rdata = d.rdata := rfl
@[simp] theorem Device.setHdue_resp (d : Device) (k : Nat) (t : Option Nat) : (d.setHdue k t).resp = d.resp := rfl
@[simp] theorem Device.setHdue_same (d : Device) (k : Nat) (t : Option Nat) : (d.setHdue k t).same = d.same := rfl
@[simp] theorem Device.setHdue_free (d : Device) (k : Nat) (t : Option Nat) : (d.setHdue k t).free = d.free := rfl
@[simp] theorem Device.setHdue_sns (d : Device) (k : Nat) (t : Option Nat) : (d.setHdue k t).sns = d.sns := rfl

/-! ### `Device.setErrand` -/

@[simp] theorem Device.setErrand_time (d : Device) (tag : Byte) (f : Errand → Errand) : (d.setErrand tag f).time = d.time := rfl
@[simp] theorem Device.setErrand_rtc (d : Device) (tag : Byte) (f : Errand → Errand) : (d.setErrand tag f).rtc = d.rtc := rfl
@[simp] theorem Device.setErrand_pwr (d : Device) (tag : Byte) (f : Errand → Errand) : (d.setErrand tag f).pwr = d.pwr := rfl
@[simp] theorem Device.setErrand_rst (d : Device) (tag : Byte) (f : Errand → Errand) : (d.setErrand tag f).rst = d.rst := rfl
@[simp] theorem Device.setErrand_owl (d : Device) (tag : Byte) (f : Errand → Errand) : (d.setErrand tag f).owl = d.owl := rfl
@[simp] theorem Device.setErrand_trk (d : Device) (tag : Byte) (f : Errand → Errand) : (d.setErrand tag f).trk = d.trk := rfl
@[simp] theorem Device.setErrand_pwm (d : Device) (tag : Byte) (f : Errand → Errand) : (d.setErrand tag f).pwm = d.pwm := rfl
@[simp] theorem Device.setErrand_le (d : Device) (tag : Byte) (f : Errand → Errand) : (d.setErrand tag f).le = d.le := rfl
@[simp] theorem Device.setErrand_evr (d : Device) (tag : Byte) (f : Errand → Errand) : (d.setErrand tag f).evr = d.evr := rfl
@[simp] theorem Device.setErrand_intc (d : Device) (tag : Byte) (f : Errand → Errand) : (d.setErrand tag f).intc = d.intc := rfl
@[simp] theorem Device.setErrand_core (d : Device) (tag : Byte) (f : Errand → Errand) : (d.setErrand tag f).core = d.core := rfl
@[simp] theorem Device.setErrand_mem (d : Device) (tag : Byte) (f : Errand → Errand) : (d.setErrand tag f).mem = d.mem := rfl
@[simp] theorem Device.setErrand_flash (d : Device) (tag : Byte) (f : Errand → Errand) : (d.setErrand tag f).flash = d.flash := rfl
@[simp] theorem Device.setErrand_fuse (d : Device) (tag : Byte) (f : Errand → Errand) : (d.setErrand tag f).fuse = d.fuse := rfl
@[simp] theorem Device.setErrand_que (d : Device) (tag : Byte) (f : Errand → Errand) : (d.setErrand tag f).que = d.que := rfl
@[simp] theorem Device.setErrand_lock (d : Device) (tag : Byte) (f : Errand → Errand) : (d.setErrand tag f).lock = d.lock := rfl
@[simp] theorem Device.setErrand_shed (d : Device) (tag : Byte) (f : Errand → Errand) : (d.setErrand tag f).shed = d.shed := rfl
@[simp] theorem Device.setErrand_dma (d : Device) (tag : Byte) (f : Errand → Errand) : (d.setErrand tag f).dma = d.dma := rfl
@[simp] theorem Device.setErrand_od (d : Device) (tag : Byte) (f : Errand → Errand) : (d.setErrand tag f).od = d.od := rfl
@[simp] theorem Device.setErrand_swap (d : Device) (tag : Byte) (f : Errand → Errand) : (d.setErrand tag f).swap = d.swap := rfl
@[simp] theorem Device.setErrand_dbg (d : Device) (tag : Byte) (f : Errand → Errand) : (d.setErrand tag f).dbg = d.dbg := rfl
@[simp] theorem Device.setErrand_sys (d : Device) (tag : Byte) (f : Errand → Errand) : (d.setErrand tag f).sys = d.sys := rfl
@[simp] theorem Device.setErrand_waits (d : Device) (tag : Byte) (f : Errand → Errand) : (d.setErrand tag f).waits = d.waits := rfl
@[simp] theorem Device.setErrand_fabEng (d : Device) (tag : Byte) (f : Errand → Errand) : (d.setErrand tag f).fabEng = d.fabEng := rfl
@[simp] theorem Device.setErrand_fabWaitCnt (d : Device) (tag : Byte) (f : Errand → Errand) : (d.setErrand tag f).fabWaitCnt = d.fabWaitCnt := rfl
@[simp] theorem Device.setErrand_rw (d : Device) (tag : Byte) (f : Errand → Errand) : (d.setErrand tag f).rw = d.rw := rfl
@[simp] theorem Device.setErrand_shadow (d : Device) (tag : Byte) (f : Errand → Errand) : (d.setErrand tag f).shadow = d.shadow := rfl
@[simp] theorem Device.setErrand_active (d : Device) (tag : Byte) (f : Errand → Errand) : (d.setErrand tag f).active = d.active := rfl
@[simp] theorem Device.setErrand_spent (d : Device) (tag : Byte) (f : Errand → Errand) : (d.setErrand tag f).spent = d.spent := rfl
@[simp] theorem Device.setErrand_rdata (d : Device) (tag : Byte) (f : Errand → Errand) : (d.setErrand tag f).rdata = d.rdata := rfl
@[simp] theorem Device.setErrand_resp (d : Device) (tag : Byte) (f : Errand → Errand) : (d.setErrand tag f).resp = d.resp := rfl
@[simp] theorem Device.setErrand_same (d : Device) (tag : Byte) (f : Errand → Errand) : (d.setErrand tag f).same = d.same := rfl
@[simp] theorem Device.setErrand_free (d : Device) (tag : Byte) (f : Errand → Errand) : (d.setErrand tag f).free = d.free := rfl
@[simp] theorem Device.setErrand_sns (d : Device) (tag : Byte) (f : Errand → Errand) : (d.setErrand tag f).sns = d.sns := rfl

/-! ### `Device.setLevel` -/

@[simp] theorem Device.setLevel_time (d : Device) (lv : Nat) : (d.setLevel lv).time = d.time := rfl
@[simp] theorem Device.setLevel_rtc (d : Device) (lv : Nat) : (d.setLevel lv).rtc = d.rtc := rfl
@[simp] theorem Device.setLevel_pwr (d : Device) (lv : Nat) : (d.setLevel lv).pwr = d.pwr := rfl
@[simp] theorem Device.setLevel_rst (d : Device) (lv : Nat) : (d.setLevel lv).rst = d.rst := rfl
@[simp] theorem Device.setLevel_owl (d : Device) (lv : Nat) : (d.setLevel lv).owl = d.owl := rfl
@[simp] theorem Device.setLevel_trk (d : Device) (lv : Nat) : (d.setLevel lv).trk = d.trk := rfl
@[simp] theorem Device.setLevel_pwm (d : Device) (lv : Nat) : (d.setLevel lv).pwm = d.pwm := rfl
@[simp] theorem Device.setLevel_le (d : Device) (lv : Nat) : (d.setLevel lv).le = d.le := rfl
@[simp] theorem Device.setLevel_evr (d : Device) (lv : Nat) : (d.setLevel lv).evr = d.evr := rfl
@[simp] theorem Device.setLevel_intc (d : Device) (lv : Nat) : (d.setLevel lv).intc = d.intc := rfl
@[simp] theorem Device.setLevel_core (d : Device) (lv : Nat) : (d.setLevel lv).core = d.core := rfl
@[simp] theorem Device.setLevel_mem (d : Device) (lv : Nat) : (d.setLevel lv).mem = d.mem := rfl
@[simp] theorem Device.setLevel_flash (d : Device) (lv : Nat) : (d.setLevel lv).flash = d.flash := rfl
@[simp] theorem Device.setLevel_fuse (d : Device) (lv : Nat) : (d.setLevel lv).fuse = d.fuse := rfl
@[simp] theorem Device.setLevel_que (d : Device) (lv : Nat) : (d.setLevel lv).que = d.que := rfl
@[simp] theorem Device.setLevel_lock (d : Device) (lv : Nat) : (d.setLevel lv).lock = d.lock := rfl
@[simp] theorem Device.setLevel_shed (d : Device) (lv : Nat) : (d.setLevel lv).shed = d.shed := rfl
@[simp] theorem Device.setLevel_dma (d : Device) (lv : Nat) : (d.setLevel lv).dma = d.dma := rfl
@[simp] theorem Device.setLevel_link (d : Device) (lv : Nat) : (d.setLevel lv).link = d.link := rfl
@[simp] theorem Device.setLevel_od (d : Device) (lv : Nat) : (d.setLevel lv).od = d.od := rfl
@[simp] theorem Device.setLevel_swap (d : Device) (lv : Nat) : (d.setLevel lv).swap = d.swap := rfl
@[simp] theorem Device.setLevel_sys (d : Device) (lv : Nat) : (d.setLevel lv).sys = d.sys := rfl
@[simp] theorem Device.setLevel_waits (d : Device) (lv : Nat) : (d.setLevel lv).waits = d.waits := rfl
@[simp] theorem Device.setLevel_fabEng (d : Device) (lv : Nat) : (d.setLevel lv).fabEng = d.fabEng := rfl
@[simp] theorem Device.setLevel_fabWaitCnt (d : Device) (lv : Nat) : (d.setLevel lv).fabWaitCnt = d.fabWaitCnt := rfl
@[simp] theorem Device.setLevel_rw (d : Device) (lv : Nat) : (d.setLevel lv).rw = d.rw := rfl
@[simp] theorem Device.setLevel_shadow (d : Device) (lv : Nat) : (d.setLevel lv).shadow = d.shadow := rfl
@[simp] theorem Device.setLevel_active (d : Device) (lv : Nat) : (d.setLevel lv).active = d.active := rfl
@[simp] theorem Device.setLevel_spent (d : Device) (lv : Nat) : (d.setLevel lv).spent = d.spent := rfl
@[simp] theorem Device.setLevel_rdata (d : Device) (lv : Nat) : (d.setLevel lv).rdata = d.rdata := rfl
@[simp] theorem Device.setLevel_resp (d : Device) (lv : Nat) : (d.setLevel lv).resp = d.resp := rfl
@[simp] theorem Device.setLevel_same (d : Device) (lv : Nat) : (d.setLevel lv).same = d.same := rfl
@[simp] theorem Device.setLevel_free (d : Device) (lv : Nat) : (d.setLevel lv).free = d.free := rfl
@[simp] theorem Device.setLevel_sns (d : Device) (lv : Nat) : (d.setLevel lv).sns = d.sns := rfl

/-! ### Notes of the tick, free values, answers, time, interrupt requests -/

@[simp] theorem Device.note_time (d : Device) (f : Same → Same) : (d.note f).time = d.time := rfl
@[simp] theorem Device.note_rtc (d : Device) (f : Same → Same) : (d.note f).rtc = d.rtc := rfl
@[simp] theorem Device.note_pwr (d : Device) (f : Same → Same) : (d.note f).pwr = d.pwr := rfl
@[simp] theorem Device.note_rst (d : Device) (f : Same → Same) : (d.note f).rst = d.rst := rfl
@[simp] theorem Device.note_owl (d : Device) (f : Same → Same) : (d.note f).owl = d.owl := rfl
@[simp] theorem Device.note_sns (d : Device) (f : Same → Same) : (d.note f).sns = d.sns := rfl
@[simp] theorem Device.note_trk (d : Device) (f : Same → Same) : (d.note f).trk = d.trk := rfl
@[simp] theorem Device.note_pwm (d : Device) (f : Same → Same) : (d.note f).pwm = d.pwm := rfl
@[simp] theorem Device.note_le (d : Device) (f : Same → Same) : (d.note f).le = d.le := rfl
@[simp] theorem Device.note_evr (d : Device) (f : Same → Same) : (d.note f).evr = d.evr := rfl
@[simp] theorem Device.note_intc (d : Device) (f : Same → Same) : (d.note f).intc = d.intc := rfl
@[simp] theorem Device.note_core (d : Device) (f : Same → Same) : (d.note f).core = d.core := rfl
@[simp] theorem Device.note_mem (d : Device) (f : Same → Same) : (d.note f).mem = d.mem := rfl
@[simp] theorem Device.note_flash (d : Device) (f : Same → Same) : (d.note f).flash = d.flash := rfl
@[simp] theorem Device.note_fuse (d : Device) (f : Same → Same) : (d.note f).fuse = d.fuse := rfl
@[simp] theorem Device.note_que (d : Device) (f : Same → Same) : (d.note f).que = d.que := rfl
@[simp] theorem Device.note_lock (d : Device) (f : Same → Same) : (d.note f).lock = d.lock := rfl
@[simp] theorem Device.note_shed (d : Device) (f : Same → Same) : (d.note f).shed = d.shed := rfl
@[simp] theorem Device.note_dma (d : Device) (f : Same → Same) : (d.note f).dma = d.dma := rfl
@[simp] theorem Device.note_link (d : Device) (f : Same → Same) : (d.note f).link = d.link := rfl
@[simp] theorem Device.note_od (d : Device) (f : Same → Same) : (d.note f).od = d.od := rfl
@[simp] theorem Device.note_swap (d : Device) (f : Same → Same) : (d.note f).swap = d.swap := rfl
@[simp] theorem Device.note_dbg (d : Device) (f : Same → Same) : (d.note f).dbg = d.dbg := rfl
@[simp] theorem Device.note_sys (d : Device) (f : Same → Same) : (d.note f).sys = d.sys := rfl
@[simp] theorem Device.note_waits (d : Device) (f : Same → Same) : (d.note f).waits = d.waits := rfl
@[simp] theorem Device.note_fabEng (d : Device) (f : Same → Same) : (d.note f).fabEng = d.fabEng := rfl
@[simp] theorem Device.note_fabWaitCnt (d : Device) (f : Same → Same) : (d.note f).fabWaitCnt = d.fabWaitCnt := rfl
@[simp] theorem Device.note_rw (d : Device) (f : Same → Same) : (d.note f).rw = d.rw := rfl
@[simp] theorem Device.note_shadow (d : Device) (f : Same → Same) : (d.note f).shadow = d.shadow := rfl
@[simp] theorem Device.note_active (d : Device) (f : Same → Same) : (d.note f).active = d.active := rfl
@[simp] theorem Device.note_spent (d : Device) (f : Same → Same) : (d.note f).spent = d.spent := rfl
@[simp] theorem Device.note_rdata (d : Device) (f : Same → Same) : (d.note f).rdata = d.rdata := rfl
@[simp] theorem Device.note_resp (d : Device) (f : Same → Same) : (d.note f).resp = d.resp := rfl
@[simp] theorem Device.note_free (d : Device) (f : Same → Same) : (d.note f).free = d.free := rfl

@[simp] theorem Device.hwFlag_time (d : Device) (a : Nat) (b : Word) : (d.hwFlag a b).time = d.time := rfl
@[simp] theorem Device.hwFlag_rtc (d : Device) (a : Nat) (b : Word) : (d.hwFlag a b).rtc = d.rtc := rfl
@[simp] theorem Device.hwFlag_pwr (d : Device) (a : Nat) (b : Word) : (d.hwFlag a b).pwr = d.pwr := rfl
@[simp] theorem Device.hwFlag_rst (d : Device) (a : Nat) (b : Word) : (d.hwFlag a b).rst = d.rst := rfl
@[simp] theorem Device.hwFlag_owl (d : Device) (a : Nat) (b : Word) : (d.hwFlag a b).owl = d.owl := rfl
@[simp] theorem Device.hwFlag_sns (d : Device) (a : Nat) (b : Word) : (d.hwFlag a b).sns = d.sns := rfl
@[simp] theorem Device.hwFlag_trk (d : Device) (a : Nat) (b : Word) : (d.hwFlag a b).trk = d.trk := rfl
@[simp] theorem Device.hwFlag_pwm (d : Device) (a : Nat) (b : Word) : (d.hwFlag a b).pwm = d.pwm := rfl
@[simp] theorem Device.hwFlag_le (d : Device) (a : Nat) (b : Word) : (d.hwFlag a b).le = d.le := rfl
@[simp] theorem Device.hwFlag_evr (d : Device) (a : Nat) (b : Word) : (d.hwFlag a b).evr = d.evr := rfl
@[simp] theorem Device.hwFlag_intc (d : Device) (a : Nat) (b : Word) : (d.hwFlag a b).intc = d.intc := rfl
@[simp] theorem Device.hwFlag_core (d : Device) (a : Nat) (b : Word) : (d.hwFlag a b).core = d.core := rfl
@[simp] theorem Device.hwFlag_mem (d : Device) (a : Nat) (b : Word) : (d.hwFlag a b).mem = d.mem := rfl
@[simp] theorem Device.hwFlag_flash (d : Device) (a : Nat) (b : Word) : (d.hwFlag a b).flash = d.flash := rfl
@[simp] theorem Device.hwFlag_fuse (d : Device) (a : Nat) (b : Word) : (d.hwFlag a b).fuse = d.fuse := rfl
@[simp] theorem Device.hwFlag_que (d : Device) (a : Nat) (b : Word) : (d.hwFlag a b).que = d.que := rfl
@[simp] theorem Device.hwFlag_lock (d : Device) (a : Nat) (b : Word) : (d.hwFlag a b).lock = d.lock := rfl
@[simp] theorem Device.hwFlag_shed (d : Device) (a : Nat) (b : Word) : (d.hwFlag a b).shed = d.shed := rfl
@[simp] theorem Device.hwFlag_dma (d : Device) (a : Nat) (b : Word) : (d.hwFlag a b).dma = d.dma := rfl
@[simp] theorem Device.hwFlag_link (d : Device) (a : Nat) (b : Word) : (d.hwFlag a b).link = d.link := rfl
@[simp] theorem Device.hwFlag_od (d : Device) (a : Nat) (b : Word) : (d.hwFlag a b).od = d.od := rfl
@[simp] theorem Device.hwFlag_swap (d : Device) (a : Nat) (b : Word) : (d.hwFlag a b).swap = d.swap := rfl
@[simp] theorem Device.hwFlag_dbg (d : Device) (a : Nat) (b : Word) : (d.hwFlag a b).dbg = d.dbg := rfl
@[simp] theorem Device.hwFlag_sys (d : Device) (a : Nat) (b : Word) : (d.hwFlag a b).sys = d.sys := rfl
@[simp] theorem Device.hwFlag_waits (d : Device) (a : Nat) (b : Word) : (d.hwFlag a b).waits = d.waits := rfl
@[simp] theorem Device.hwFlag_fabEng (d : Device) (a : Nat) (b : Word) : (d.hwFlag a b).fabEng = d.fabEng := rfl
@[simp] theorem Device.hwFlag_fabWaitCnt (d : Device) (a : Nat) (b : Word) : (d.hwFlag a b).fabWaitCnt = d.fabWaitCnt := rfl
@[simp] theorem Device.hwFlag_rw (d : Device) (a : Nat) (b : Word) : (d.hwFlag a b).rw = d.rw := rfl
@[simp] theorem Device.hwFlag_shadow (d : Device) (a : Nat) (b : Word) : (d.hwFlag a b).shadow = d.shadow := rfl
@[simp] theorem Device.hwFlag_active (d : Device) (a : Nat) (b : Word) : (d.hwFlag a b).active = d.active := rfl
@[simp] theorem Device.hwFlag_spent (d : Device) (a : Nat) (b : Word) : (d.hwFlag a b).spent = d.spent := rfl
@[simp] theorem Device.hwFlag_rdata (d : Device) (a : Nat) (b : Word) : (d.hwFlag a b).rdata = d.rdata := rfl
@[simp] theorem Device.hwFlag_resp (d : Device) (a : Nat) (b : Word) : (d.hwFlag a b).resp = d.resp := rfl
@[simp] theorem Device.hwFlag_free (d : Device) (a : Nat) (b : Word) : (d.hwFlag a b).free = d.free := rfl

@[simp] theorem Device.fresh_time (d : Device) : (d.fresh).time = d.time := rfl
@[simp] theorem Device.fresh_rtc (d : Device) : (d.fresh).rtc = d.rtc := rfl
@[simp] theorem Device.fresh_pwr (d : Device) : (d.fresh).pwr = d.pwr := rfl
@[simp] theorem Device.fresh_rst (d : Device) : (d.fresh).rst = d.rst := rfl
@[simp] theorem Device.fresh_owl (d : Device) : (d.fresh).owl = d.owl := rfl
@[simp] theorem Device.fresh_sns (d : Device) : (d.fresh).sns = d.sns := rfl
@[simp] theorem Device.fresh_trk (d : Device) : (d.fresh).trk = d.trk := rfl
@[simp] theorem Device.fresh_pwm (d : Device) : (d.fresh).pwm = d.pwm := rfl
@[simp] theorem Device.fresh_le (d : Device) : (d.fresh).le = d.le := rfl
@[simp] theorem Device.fresh_evr (d : Device) : (d.fresh).evr = d.evr := rfl
@[simp] theorem Device.fresh_intc (d : Device) : (d.fresh).intc = d.intc := rfl
@[simp] theorem Device.fresh_core (d : Device) : (d.fresh).core = d.core := rfl
@[simp] theorem Device.fresh_mem (d : Device) : (d.fresh).mem = d.mem := rfl
@[simp] theorem Device.fresh_flash (d : Device) : (d.fresh).flash = d.flash := rfl
@[simp] theorem Device.fresh_fuse (d : Device) : (d.fresh).fuse = d.fuse := rfl
@[simp] theorem Device.fresh_que (d : Device) : (d.fresh).que = d.que := rfl
@[simp] theorem Device.fresh_lock (d : Device) : (d.fresh).lock = d.lock := rfl
@[simp] theorem Device.fresh_shed (d : Device) : (d.fresh).shed = d.shed := rfl
@[simp] theorem Device.fresh_dma (d : Device) : (d.fresh).dma = d.dma := rfl
@[simp] theorem Device.fresh_link (d : Device) : (d.fresh).link = d.link := rfl
@[simp] theorem Device.fresh_od (d : Device) : (d.fresh).od = d.od := rfl
@[simp] theorem Device.fresh_swap (d : Device) : (d.fresh).swap = d.swap := rfl
@[simp] theorem Device.fresh_dbg (d : Device) : (d.fresh).dbg = d.dbg := rfl
@[simp] theorem Device.fresh_sys (d : Device) : (d.fresh).sys = d.sys := rfl
@[simp] theorem Device.fresh_waits (d : Device) : (d.fresh).waits = d.waits := rfl
@[simp] theorem Device.fresh_fabEng (d : Device) : (d.fresh).fabEng = d.fabEng := rfl
@[simp] theorem Device.fresh_fabWaitCnt (d : Device) : (d.fresh).fabWaitCnt = d.fabWaitCnt := rfl
@[simp] theorem Device.fresh_rw (d : Device) : (d.fresh).rw = d.rw := rfl
@[simp] theorem Device.fresh_shadow (d : Device) : (d.fresh).shadow = d.shadow := rfl
@[simp] theorem Device.fresh_active (d : Device) : (d.fresh).active = d.active := rfl
@[simp] theorem Device.fresh_spent (d : Device) : (d.fresh).spent = d.spent := rfl
@[simp] theorem Device.fresh_rdata (d : Device) : (d.fresh).rdata = d.rdata := rfl
@[simp] theorem Device.fresh_resp (d : Device) : (d.fresh).resp = d.resp := rfl
@[simp] theorem Device.fresh_same (d : Device) : (d.fresh).same = d.same := rfl

@[simp] theorem Device.answer_time (d : Device) (who : Who) (v : Word) (r : Resp) : (d.answer who v r).time = d.time := rfl
@[simp] theorem Device.answer_rtc (d : Device) (who : Who) (v : Word) (r : Resp) : (d.answer who v r).rtc = d.rtc := rfl
@[simp] theorem Device.answer_pwr (d : Device) (who : Who) (v : Word) (r : Resp) : (d.answer who v r).pwr = d.pwr := rfl
@[simp] theorem Device.answer_rst (d : Device) (who : Who) (v : Word) (r : Resp) : (d.answer who v r).rst = d.rst := rfl
@[simp] theorem Device.answer_owl (d : Device) (who : Who) (v : Word) (r : Resp) : (d.answer who v r).owl = d.owl := rfl
@[simp] theorem Device.answer_sns (d : Device) (who : Who) (v : Word) (r : Resp) : (d.answer who v r).sns = d.sns := rfl
@[simp] theorem Device.answer_trk (d : Device) (who : Who) (v : Word) (r : Resp) : (d.answer who v r).trk = d.trk := rfl
@[simp] theorem Device.answer_pwm (d : Device) (who : Who) (v : Word) (r : Resp) : (d.answer who v r).pwm = d.pwm := rfl
@[simp] theorem Device.answer_le (d : Device) (who : Who) (v : Word) (r : Resp) : (d.answer who v r).le = d.le := rfl
@[simp] theorem Device.answer_evr (d : Device) (who : Who) (v : Word) (r : Resp) : (d.answer who v r).evr = d.evr := rfl
@[simp] theorem Device.answer_intc (d : Device) (who : Who) (v : Word) (r : Resp) : (d.answer who v r).intc = d.intc := rfl
@[simp] theorem Device.answer_core (d : Device) (who : Who) (v : Word) (r : Resp) : (d.answer who v r).core = d.core := rfl
@[simp] theorem Device.answer_mem (d : Device) (who : Who) (v : Word) (r : Resp) : (d.answer who v r).mem = d.mem := rfl
@[simp] theorem Device.answer_flash (d : Device) (who : Who) (v : Word) (r : Resp) : (d.answer who v r).flash = d.flash := rfl
@[simp] theorem Device.answer_fuse (d : Device) (who : Who) (v : Word) (r : Resp) : (d.answer who v r).fuse = d.fuse := rfl
@[simp] theorem Device.answer_que (d : Device) (who : Who) (v : Word) (r : Resp) : (d.answer who v r).que = d.que := rfl
@[simp] theorem Device.answer_lock (d : Device) (who : Who) (v : Word) (r : Resp) : (d.answer who v r).lock = d.lock := rfl
@[simp] theorem Device.answer_shed (d : Device) (who : Who) (v : Word) (r : Resp) : (d.answer who v r).shed = d.shed := rfl
@[simp] theorem Device.answer_dma (d : Device) (who : Who) (v : Word) (r : Resp) : (d.answer who v r).dma = d.dma := rfl
@[simp] theorem Device.answer_link (d : Device) (who : Who) (v : Word) (r : Resp) : (d.answer who v r).link = d.link := rfl
@[simp] theorem Device.answer_od (d : Device) (who : Who) (v : Word) (r : Resp) : (d.answer who v r).od = d.od := rfl
@[simp] theorem Device.answer_swap (d : Device) (who : Who) (v : Word) (r : Resp) : (d.answer who v r).swap = d.swap := rfl
@[simp] theorem Device.answer_dbg (d : Device) (who : Who) (v : Word) (r : Resp) : (d.answer who v r).dbg = d.dbg := rfl
@[simp] theorem Device.answer_sys (d : Device) (who : Who) (v : Word) (r : Resp) : (d.answer who v r).sys = d.sys := rfl
@[simp] theorem Device.answer_waits (d : Device) (who : Who) (v : Word) (r : Resp) : (d.answer who v r).waits = d.waits := rfl
@[simp] theorem Device.answer_fabEng (d : Device) (who : Who) (v : Word) (r : Resp) : (d.answer who v r).fabEng = d.fabEng := rfl
@[simp] theorem Device.answer_fabWaitCnt (d : Device) (who : Who) (v : Word) (r : Resp) : (d.answer who v r).fabWaitCnt = d.fabWaitCnt := rfl
@[simp] theorem Device.answer_rw (d : Device) (who : Who) (v : Word) (r : Resp) : (d.answer who v r).rw = d.rw := rfl
@[simp] theorem Device.answer_shadow (d : Device) (who : Who) (v : Word) (r : Resp) : (d.answer who v r).shadow = d.shadow := rfl
@[simp] theorem Device.answer_active (d : Device) (who : Who) (v : Word) (r : Resp) : (d.answer who v r).active = d.active := rfl
@[simp] theorem Device.answer_spent (d : Device) (who : Who) (v : Word) (r : Resp) : (d.answer who v r).spent = d.spent := rfl
@[simp] theorem Device.answer_same (d : Device) (who : Who) (v : Word) (r : Resp) : (d.answer who v r).same = d.same := rfl
@[simp] theorem Device.answer_free (d : Device) (who : Who) (v : Word) (r : Resp) : (d.answer who v r).free = d.free := rfl

/-- Time does not move to a tick that does not lie ahead. -/
theorem Device.advTo_here {d : Device} {t : Nat} (h : t ≤ d.nowN) : d.advTo t = d := by
  unfold Device.advTo; exact if_neg (by omega)

@[simp] theorem Device.advTo_rtc (d : Device) (t : Nat) : (d.advTo t).rtc = d.rtc := by
  unfold Device.advTo; split <;> rfl
@[simp] theorem Device.advTo_pwr (d : Device) (t : Nat) : (d.advTo t).pwr = d.pwr := by
  unfold Device.advTo; split <;> rfl
@[simp] theorem Device.advTo_rst (d : Device) (t : Nat) : (d.advTo t).rst = d.rst := by
  unfold Device.advTo; split <;> rfl
@[simp] theorem Device.advTo_owl (d : Device) (t : Nat) : (d.advTo t).owl = d.owl := by
  unfold Device.advTo; split <;> rfl
@[simp] theorem Device.advTo_sns (d : Device) (t : Nat) : (d.advTo t).sns = d.sns := by
  unfold Device.advTo; split <;> rfl
@[simp] theorem Device.advTo_trk (d : Device) (t : Nat) : (d.advTo t).trk = d.trk := by
  unfold Device.advTo; split <;> rfl
@[simp] theorem Device.advTo_pwm (d : Device) (t : Nat) : (d.advTo t).pwm = d.pwm := by
  unfold Device.advTo; split <;> rfl
@[simp] theorem Device.advTo_le (d : Device) (t : Nat) : (d.advTo t).le = d.le := by
  unfold Device.advTo; split <;> rfl
@[simp] theorem Device.advTo_evr (d : Device) (t : Nat) : (d.advTo t).evr = d.evr := by
  unfold Device.advTo; split <;> rfl
@[simp] theorem Device.advTo_intc (d : Device) (t : Nat) : (d.advTo t).intc = d.intc := by
  unfold Device.advTo; split <;> rfl
@[simp] theorem Device.advTo_core (d : Device) (t : Nat) : (d.advTo t).core = d.core := by
  unfold Device.advTo; split <;> rfl
@[simp] theorem Device.advTo_mem (d : Device) (t : Nat) : (d.advTo t).mem = d.mem := by
  unfold Device.advTo; split <;> rfl
@[simp] theorem Device.advTo_flash (d : Device) (t : Nat) : (d.advTo t).flash = d.flash := by
  unfold Device.advTo; split <;> rfl
@[simp] theorem Device.advTo_fuse (d : Device) (t : Nat) : (d.advTo t).fuse = d.fuse := by
  unfold Device.advTo; split <;> rfl
@[simp] theorem Device.advTo_que (d : Device) (t : Nat) : (d.advTo t).que = d.que := by
  unfold Device.advTo; split <;> rfl
@[simp] theorem Device.advTo_lock (d : Device) (t : Nat) : (d.advTo t).lock = d.lock := by
  unfold Device.advTo; split <;> rfl
@[simp] theorem Device.advTo_shed (d : Device) (t : Nat) : (d.advTo t).shed = d.shed := by
  unfold Device.advTo; split <;> rfl
@[simp] theorem Device.advTo_dma (d : Device) (t : Nat) : (d.advTo t).dma = d.dma := by
  unfold Device.advTo; split <;> rfl
@[simp] theorem Device.advTo_link (d : Device) (t : Nat) : (d.advTo t).link = d.link := by
  unfold Device.advTo; split <;> rfl
@[simp] theorem Device.advTo_od (d : Device) (t : Nat) : (d.advTo t).od = d.od := by
  unfold Device.advTo; split <;> rfl
@[simp] theorem Device.advTo_swap (d : Device) (t : Nat) : (d.advTo t).swap = d.swap := by
  unfold Device.advTo; split <;> rfl
@[simp] theorem Device.advTo_dbg (d : Device) (t : Nat) : (d.advTo t).dbg = d.dbg := by
  unfold Device.advTo; split <;> rfl
@[simp] theorem Device.advTo_sys (d : Device) (t : Nat) : (d.advTo t).sys = d.sys := by
  unfold Device.advTo; split <;> rfl
@[simp] theorem Device.advTo_waits (d : Device) (t : Nat) : (d.advTo t).waits = d.waits := by
  unfold Device.advTo; split <;> rfl
@[simp] theorem Device.advTo_fabEng (d : Device) (t : Nat) : (d.advTo t).fabEng = d.fabEng := by
  unfold Device.advTo; split <;> rfl
@[simp] theorem Device.advTo_fabWaitCnt (d : Device) (t : Nat) : (d.advTo t).fabWaitCnt = d.fabWaitCnt := by
  unfold Device.advTo; split <;> rfl
@[simp] theorem Device.advTo_rw (d : Device) (t : Nat) : (d.advTo t).rw = d.rw := by
  unfold Device.advTo; split <;> rfl
@[simp] theorem Device.advTo_shadow (d : Device) (t : Nat) : (d.advTo t).shadow = d.shadow := by
  unfold Device.advTo; split <;> rfl
@[simp] theorem Device.advTo_active (d : Device) (t : Nat) : (d.advTo t).active = d.active := by
  unfold Device.advTo; split <;> rfl
@[simp] theorem Device.advTo_spent (d : Device) (t : Nat) : (d.advTo t).spent = d.spent := by
  unfold Device.advTo; split <;> rfl
@[simp] theorem Device.advTo_rdata (d : Device) (t : Nat) : (d.advTo t).rdata = d.rdata := by
  unfold Device.advTo; split <;> rfl
@[simp] theorem Device.advTo_resp (d : Device) (t : Nat) : (d.advTo t).resp = d.resp := by
  unfold Device.advTo; split <;> rfl
@[simp] theorem Device.advTo_same (d : Device) (t : Nat) : (d.advTo t).same = d.same := by
  unfold Device.advTo; split <;> rfl
@[simp] theorem Device.advTo_free (d : Device) (t : Nat) : (d.advTo t).free = d.free := by
  unfold Device.advTo; split <;> rfl

@[simp] theorem Device.raiseIrq_time (d : Device) (s : Nat) : (d.raiseIrq s).time = d.time := by
  unfold Device.raiseIrq; split <;> rfl
@[simp] theorem Device.raiseIrq_rtc (d : Device) (s : Nat) : (d.raiseIrq s).rtc = d.rtc := by
  unfold Device.raiseIrq; split <;> rfl
@[simp] theorem Device.raiseIrq_pwr (d : Device) (s : Nat) : (d.raiseIrq s).pwr = d.pwr := by
  unfold Device.raiseIrq; split <;> rfl
@[simp] theorem Device.raiseIrq_rst (d : Device) (s : Nat) : (d.raiseIrq s).rst = d.rst := by
  unfold Device.raiseIrq; split <;> rfl
@[simp] theorem Device.raiseIrq_owl (d : Device) (s : Nat) : (d.raiseIrq s).owl = d.owl := by
  unfold Device.raiseIrq; split <;> rfl
@[simp] theorem Device.raiseIrq_sns (d : Device) (s : Nat) : (d.raiseIrq s).sns = d.sns := by
  unfold Device.raiseIrq; split <;> rfl
@[simp] theorem Device.raiseIrq_trk (d : Device) (s : Nat) : (d.raiseIrq s).trk = d.trk := by
  unfold Device.raiseIrq; split <;> rfl
@[simp] theorem Device.raiseIrq_pwm (d : Device) (s : Nat) : (d.raiseIrq s).pwm = d.pwm := by
  unfold Device.raiseIrq; split <;> rfl
@[simp] theorem Device.raiseIrq_le (d : Device) (s : Nat) : (d.raiseIrq s).le = d.le := by
  unfold Device.raiseIrq; split <;> rfl
@[simp] theorem Device.raiseIrq_evr (d : Device) (s : Nat) : (d.raiseIrq s).evr = d.evr := by
  unfold Device.raiseIrq; split <;> rfl
@[simp] theorem Device.raiseIrq_core (d : Device) (s : Nat) : (d.raiseIrq s).core = d.core := by
  unfold Device.raiseIrq; split <;> rfl
@[simp] theorem Device.raiseIrq_mem (d : Device) (s : Nat) : (d.raiseIrq s).mem = d.mem := by
  unfold Device.raiseIrq; split <;> rfl
@[simp] theorem Device.raiseIrq_flash (d : Device) (s : Nat) : (d.raiseIrq s).flash = d.flash := by
  unfold Device.raiseIrq; split <;> rfl
@[simp] theorem Device.raiseIrq_fuse (d : Device) (s : Nat) : (d.raiseIrq s).fuse = d.fuse := by
  unfold Device.raiseIrq; split <;> rfl
@[simp] theorem Device.raiseIrq_que (d : Device) (s : Nat) : (d.raiseIrq s).que = d.que := by
  unfold Device.raiseIrq; split <;> rfl
@[simp] theorem Device.raiseIrq_lock (d : Device) (s : Nat) : (d.raiseIrq s).lock = d.lock := by
  unfold Device.raiseIrq; split <;> rfl
@[simp] theorem Device.raiseIrq_shed (d : Device) (s : Nat) : (d.raiseIrq s).shed = d.shed := by
  unfold Device.raiseIrq; split <;> rfl
@[simp] theorem Device.raiseIrq_dma (d : Device) (s : Nat) : (d.raiseIrq s).dma = d.dma := by
  unfold Device.raiseIrq; split <;> rfl
@[simp] theorem Device.raiseIrq_link (d : Device) (s : Nat) : (d.raiseIrq s).link = d.link := by
  unfold Device.raiseIrq; split <;> rfl
@[simp] theorem Device.raiseIrq_od (d : Device) (s : Nat) : (d.raiseIrq s).od = d.od := by
  unfold Device.raiseIrq; split <;> rfl
@[simp] theorem Device.raiseIrq_swap (d : Device) (s : Nat) : (d.raiseIrq s).swap = d.swap := by
  unfold Device.raiseIrq; split <;> rfl
@[simp] theorem Device.raiseIrq_dbg (d : Device) (s : Nat) : (d.raiseIrq s).dbg = d.dbg := by
  unfold Device.raiseIrq; split <;> rfl
@[simp] theorem Device.raiseIrq_sys (d : Device) (s : Nat) : (d.raiseIrq s).sys = d.sys := by
  unfold Device.raiseIrq; split <;> rfl
@[simp] theorem Device.raiseIrq_waits (d : Device) (s : Nat) : (d.raiseIrq s).waits = d.waits := by
  unfold Device.raiseIrq; split <;> rfl
@[simp] theorem Device.raiseIrq_fabEng (d : Device) (s : Nat) : (d.raiseIrq s).fabEng = d.fabEng := by
  unfold Device.raiseIrq; split <;> rfl
@[simp] theorem Device.raiseIrq_fabWaitCnt (d : Device) (s : Nat) : (d.raiseIrq s).fabWaitCnt = d.fabWaitCnt := by
  unfold Device.raiseIrq; split <;> rfl
@[simp] theorem Device.raiseIrq_rw (d : Device) (s : Nat) : (d.raiseIrq s).rw = d.rw := by
  unfold Device.raiseIrq; split <;> rfl
@[simp] theorem Device.raiseIrq_shadow (d : Device) (s : Nat) : (d.raiseIrq s).shadow = d.shadow := by
  unfold Device.raiseIrq; split <;> rfl
@[simp] theorem Device.raiseIrq_active (d : Device) (s : Nat) : (d.raiseIrq s).active = d.active := by
  unfold Device.raiseIrq; split <;> rfl
@[simp] theorem Device.raiseIrq_spent (d : Device) (s : Nat) : (d.raiseIrq s).spent = d.spent := by
  unfold Device.raiseIrq; split <;> rfl
@[simp] theorem Device.raiseIrq_rdata (d : Device) (s : Nat) : (d.raiseIrq s).rdata = d.rdata := by
  unfold Device.raiseIrq; split <;> rfl
@[simp] theorem Device.raiseIrq_resp (d : Device) (s : Nat) : (d.raiseIrq s).resp = d.resp := by
  unfold Device.raiseIrq; split <;> rfl
@[simp] theorem Device.raiseIrq_free (d : Device) (s : Nat) : (d.raiseIrq s).free = d.free := by
  unfold Device.raiseIrq; split <;> rfl

@[simp] theorem Device.raiseIf_time (d : Device) (b : Bool) (s : Nat) : (d.raiseIf b s).time = d.time := by
  unfold Device.raiseIf; split <;> simp
@[simp] theorem Device.raiseIf_rtc (d : Device) (b : Bool) (s : Nat) : (d.raiseIf b s).rtc = d.rtc := by
  unfold Device.raiseIf; split <;> simp
@[simp] theorem Device.raiseIf_pwr (d : Device) (b : Bool) (s : Nat) : (d.raiseIf b s).pwr = d.pwr := by
  unfold Device.raiseIf; split <;> simp
@[simp] theorem Device.raiseIf_rst (d : Device) (b : Bool) (s : Nat) : (d.raiseIf b s).rst = d.rst := by
  unfold Device.raiseIf; split <;> simp
@[simp] theorem Device.raiseIf_owl (d : Device) (b : Bool) (s : Nat) : (d.raiseIf b s).owl = d.owl := by
  unfold Device.raiseIf; split <;> simp
@[simp] theorem Device.raiseIf_sns (d : Device) (b : Bool) (s : Nat) : (d.raiseIf b s).sns = d.sns := by
  unfold Device.raiseIf; split <;> simp
@[simp] theorem Device.raiseIf_trk (d : Device) (b : Bool) (s : Nat) : (d.raiseIf b s).trk = d.trk := by
  unfold Device.raiseIf; split <;> simp
@[simp] theorem Device.raiseIf_pwm (d : Device) (b : Bool) (s : Nat) : (d.raiseIf b s).pwm = d.pwm := by
  unfold Device.raiseIf; split <;> simp
@[simp] theorem Device.raiseIf_le (d : Device) (b : Bool) (s : Nat) : (d.raiseIf b s).le = d.le := by
  unfold Device.raiseIf; split <;> simp
@[simp] theorem Device.raiseIf_evr (d : Device) (b : Bool) (s : Nat) : (d.raiseIf b s).evr = d.evr := by
  unfold Device.raiseIf; split <;> simp
@[simp] theorem Device.raiseIf_core (d : Device) (b : Bool) (s : Nat) : (d.raiseIf b s).core = d.core := by
  unfold Device.raiseIf; split <;> simp
@[simp] theorem Device.raiseIf_mem (d : Device) (b : Bool) (s : Nat) : (d.raiseIf b s).mem = d.mem := by
  unfold Device.raiseIf; split <;> simp
@[simp] theorem Device.raiseIf_flash (d : Device) (b : Bool) (s : Nat) : (d.raiseIf b s).flash = d.flash := by
  unfold Device.raiseIf; split <;> simp
@[simp] theorem Device.raiseIf_fuse (d : Device) (b : Bool) (s : Nat) : (d.raiseIf b s).fuse = d.fuse := by
  unfold Device.raiseIf; split <;> simp
@[simp] theorem Device.raiseIf_que (d : Device) (b : Bool) (s : Nat) : (d.raiseIf b s).que = d.que := by
  unfold Device.raiseIf; split <;> simp
@[simp] theorem Device.raiseIf_lock (d : Device) (b : Bool) (s : Nat) : (d.raiseIf b s).lock = d.lock := by
  unfold Device.raiseIf; split <;> simp
@[simp] theorem Device.raiseIf_shed (d : Device) (b : Bool) (s : Nat) : (d.raiseIf b s).shed = d.shed := by
  unfold Device.raiseIf; split <;> simp
@[simp] theorem Device.raiseIf_dma (d : Device) (b : Bool) (s : Nat) : (d.raiseIf b s).dma = d.dma := by
  unfold Device.raiseIf; split <;> simp
@[simp] theorem Device.raiseIf_link (d : Device) (b : Bool) (s : Nat) : (d.raiseIf b s).link = d.link := by
  unfold Device.raiseIf; split <;> simp
@[simp] theorem Device.raiseIf_od (d : Device) (b : Bool) (s : Nat) : (d.raiseIf b s).od = d.od := by
  unfold Device.raiseIf; split <;> simp
@[simp] theorem Device.raiseIf_swap (d : Device) (b : Bool) (s : Nat) : (d.raiseIf b s).swap = d.swap := by
  unfold Device.raiseIf; split <;> simp
@[simp] theorem Device.raiseIf_dbg (d : Device) (b : Bool) (s : Nat) : (d.raiseIf b s).dbg = d.dbg := by
  unfold Device.raiseIf; split <;> simp
@[simp] theorem Device.raiseIf_sys (d : Device) (b : Bool) (s : Nat) : (d.raiseIf b s).sys = d.sys := by
  unfold Device.raiseIf; split <;> simp
@[simp] theorem Device.raiseIf_waits (d : Device) (b : Bool) (s : Nat) : (d.raiseIf b s).waits = d.waits := by
  unfold Device.raiseIf; split <;> simp
@[simp] theorem Device.raiseIf_fabEng (d : Device) (b : Bool) (s : Nat) : (d.raiseIf b s).fabEng = d.fabEng := by
  unfold Device.raiseIf; split <;> simp
@[simp] theorem Device.raiseIf_fabWaitCnt (d : Device) (b : Bool) (s : Nat) : (d.raiseIf b s).fabWaitCnt = d.fabWaitCnt := by
  unfold Device.raiseIf; split <;> simp
@[simp] theorem Device.raiseIf_rw (d : Device) (b : Bool) (s : Nat) : (d.raiseIf b s).rw = d.rw := by
  unfold Device.raiseIf; split <;> simp
@[simp] theorem Device.raiseIf_shadow (d : Device) (b : Bool) (s : Nat) : (d.raiseIf b s).shadow = d.shadow := by
  unfold Device.raiseIf; split <;> simp
@[simp] theorem Device.raiseIf_active (d : Device) (b : Bool) (s : Nat) : (d.raiseIf b s).active = d.active := by
  unfold Device.raiseIf; split <;> simp
@[simp] theorem Device.raiseIf_spent (d : Device) (b : Bool) (s : Nat) : (d.raiseIf b s).spent = d.spent := by
  unfold Device.raiseIf; split <;> simp
@[simp] theorem Device.raiseIf_rdata (d : Device) (b : Bool) (s : Nat) : (d.raiseIf b s).rdata = d.rdata := by
  unfold Device.raiseIf; split <;> simp
@[simp] theorem Device.raiseIf_resp (d : Device) (b : Bool) (s : Nat) : (d.raiseIf b s).resp = d.resp := by
  unfold Device.raiseIf; split <;> simp
@[simp] theorem Device.raiseIf_free (d : Device) (b : Bool) (s : Nat) : (d.raiseIf b s).free = d.free := by
  unfold Device.raiseIf; split <;> simp

@[simp] theorem Device.flagUp_time (d : Device) (a : Nat) (old b ien : Word) (s : Nat) : (d.flagUp a old b ien s).time = d.time := by
  simp [Device.flagUp]
@[simp] theorem Device.flagUp_rtc (d : Device) (a : Nat) (old b ien : Word) (s : Nat) : (d.flagUp a old b ien s).rtc = d.rtc := by
  simp [Device.flagUp]
@[simp] theorem Device.flagUp_pwr (d : Device) (a : Nat) (old b ien : Word) (s : Nat) : (d.flagUp a old b ien s).pwr = d.pwr := by
  simp [Device.flagUp]
@[simp] theorem Device.flagUp_rst (d : Device) (a : Nat) (old b ien : Word) (s : Nat) : (d.flagUp a old b ien s).rst = d.rst := by
  simp [Device.flagUp]
@[simp] theorem Device.flagUp_owl (d : Device) (a : Nat) (old b ien : Word) (s : Nat) : (d.flagUp a old b ien s).owl = d.owl := by
  simp [Device.flagUp]
@[simp] theorem Device.flagUp_sns (d : Device) (a : Nat) (old b ien : Word) (s : Nat) : (d.flagUp a old b ien s).sns = d.sns := by
  simp [Device.flagUp]
@[simp] theorem Device.flagUp_trk (d : Device) (a : Nat) (old b ien : Word) (s : Nat) : (d.flagUp a old b ien s).trk = d.trk := by
  simp [Device.flagUp]
@[simp] theorem Device.flagUp_pwm (d : Device) (a : Nat) (old b ien : Word) (s : Nat) : (d.flagUp a old b ien s).pwm = d.pwm := by
  simp [Device.flagUp]
@[simp] theorem Device.flagUp_le (d : Device) (a : Nat) (old b ien : Word) (s : Nat) : (d.flagUp a old b ien s).le = d.le := by
  simp [Device.flagUp]
@[simp] theorem Device.flagUp_evr (d : Device) (a : Nat) (old b ien : Word) (s : Nat) : (d.flagUp a old b ien s).evr = d.evr := by
  simp [Device.flagUp]
@[simp] theorem Device.flagUp_core (d : Device) (a : Nat) (old b ien : Word) (s : Nat) : (d.flagUp a old b ien s).core = d.core := by
  simp [Device.flagUp]
@[simp] theorem Device.flagUp_mem (d : Device) (a : Nat) (old b ien : Word) (s : Nat) : (d.flagUp a old b ien s).mem = d.mem := by
  simp [Device.flagUp]
@[simp] theorem Device.flagUp_flash (d : Device) (a : Nat) (old b ien : Word) (s : Nat) : (d.flagUp a old b ien s).flash = d.flash := by
  simp [Device.flagUp]
@[simp] theorem Device.flagUp_fuse (d : Device) (a : Nat) (old b ien : Word) (s : Nat) : (d.flagUp a old b ien s).fuse = d.fuse := by
  simp [Device.flagUp]
@[simp] theorem Device.flagUp_que (d : Device) (a : Nat) (old b ien : Word) (s : Nat) : (d.flagUp a old b ien s).que = d.que := by
  simp [Device.flagUp]
@[simp] theorem Device.flagUp_lock (d : Device) (a : Nat) (old b ien : Word) (s : Nat) : (d.flagUp a old b ien s).lock = d.lock := by
  simp [Device.flagUp]
@[simp] theorem Device.flagUp_shed (d : Device) (a : Nat) (old b ien : Word) (s : Nat) : (d.flagUp a old b ien s).shed = d.shed := by
  simp [Device.flagUp]
@[simp] theorem Device.flagUp_dma (d : Device) (a : Nat) (old b ien : Word) (s : Nat) : (d.flagUp a old b ien s).dma = d.dma := by
  simp [Device.flagUp]
@[simp] theorem Device.flagUp_link (d : Device) (a : Nat) (old b ien : Word) (s : Nat) : (d.flagUp a old b ien s).link = d.link := by
  simp [Device.flagUp]
@[simp] theorem Device.flagUp_od (d : Device) (a : Nat) (old b ien : Word) (s : Nat) : (d.flagUp a old b ien s).od = d.od := by
  simp [Device.flagUp]
@[simp] theorem Device.flagUp_swap (d : Device) (a : Nat) (old b ien : Word) (s : Nat) : (d.flagUp a old b ien s).swap = d.swap := by
  simp [Device.flagUp]
@[simp] theorem Device.flagUp_dbg (d : Device) (a : Nat) (old b ien : Word) (s : Nat) : (d.flagUp a old b ien s).dbg = d.dbg := by
  simp [Device.flagUp]
@[simp] theorem Device.flagUp_sys (d : Device) (a : Nat) (old b ien : Word) (s : Nat) : (d.flagUp a old b ien s).sys = d.sys := by
  simp [Device.flagUp]
@[simp] theorem Device.flagUp_waits (d : Device) (a : Nat) (old b ien : Word) (s : Nat) : (d.flagUp a old b ien s).waits = d.waits := by
  simp [Device.flagUp]
@[simp] theorem Device.flagUp_fabEng (d : Device) (a : Nat) (old b ien : Word) (s : Nat) : (d.flagUp a old b ien s).fabEng = d.fabEng := by
  simp [Device.flagUp]
@[simp] theorem Device.flagUp_fabWaitCnt (d : Device) (a : Nat) (old b ien : Word) (s : Nat) : (d.flagUp a old b ien s).fabWaitCnt = d.fabWaitCnt := by
  simp [Device.flagUp]
@[simp] theorem Device.flagUp_rw (d : Device) (a : Nat) (old b ien : Word) (s : Nat) : (d.flagUp a old b ien s).rw = d.rw := by
  simp [Device.flagUp]
@[simp] theorem Device.flagUp_shadow (d : Device) (a : Nat) (old b ien : Word) (s : Nat) : (d.flagUp a old b ien s).shadow = d.shadow := by
  simp [Device.flagUp]
@[simp] theorem Device.flagUp_active (d : Device) (a : Nat) (old b ien : Word) (s : Nat) : (d.flagUp a old b ien s).active = d.active := by
  simp [Device.flagUp]
@[simp] theorem Device.flagUp_spent (d : Device) (a : Nat) (old b ien : Word) (s : Nat) : (d.flagUp a old b ien s).spent = d.spent := by
  simp [Device.flagUp]
@[simp] theorem Device.flagUp_rdata (d : Device) (a : Nat) (old b ien : Word) (s : Nat) : (d.flagUp a old b ien s).rdata = d.rdata := by
  simp [Device.flagUp]
@[simp] theorem Device.flagUp_resp (d : Device) (a : Nat) (old b ien : Word) (s : Nat) : (d.flagUp a old b ien s).resp = d.resp := by
  simp [Device.flagUp]
@[simp] theorem Device.flagUp_free (d : Device) (a : Nat) (old b ien : Word) (s : Nat) : (d.flagUp a old b ien s).free = d.free := by
  simp [Device.flagUp]

/-- What is noted of the present tick is read back in it. -/
theorem Device.here_note (d : Device) (f : Same → Same) (h : (f d.here).tick = d.here.tick) :
    (d.note f).here = f d.here := by
  have e : d.here.tick = d.nowN := by unfold Device.here; split <;> simp_all
  have k : (d.note f).nowN = d.nowN := rfl
  rw [Device.here, k, show (d.note f).same = f d.here from rfl, h, e, if_pos rfl]

/-- The bits that hardware sets in a tick stand for that tick (R28). -/
theorem Device.hwBits_hwFlag (d : Device) (a : Nat) (b : Word) : (d.hwFlag a b).hwBits a = d.hwBits a ||| b := by
  unfold Device.hwBits Device.hwFlag
  rw [Device.here_note] <;> simp

/-- Time never goes back, and it reaches the tick asked for (log 3). -/
theorem Device.advTo_nowN (d : Device) {t : Nat} (h : t < 2 ^ 64) : (d.advTo t).nowN = max d.nowN t := by
  unfold Device.advTo Device.nowN at *
  split
  · simp [BitVec.toNat_ofNat, Nat.mod_eq_of_lt h]; omega
  · omega

/-! ### Reads after updates -/

@[simp] theorem Device.snsC_setSns (d : Device) (n : Nat) (c : SnsCh) : (d.setSns n c).snsC n = c := by
  simp [Device.snsC, Device.setSns]
theorem Device.snsC_setSns_ne (d : Device) {i j : Nat} (c : SnsCh) (h : j ≠ i) : (d.setSns i c).snsC j = d.snsC j := by
  simp [Device.snsC, Device.setSns, Tab.get_set, h]
@[simp] theorem Device.setSns_setSns (d : Device) (n : Nat) (c z : SnsCh) : (d.setSns n c).setSns n z = d.setSns n z := by
  simp [Device.setSns]
@[simp] theorem Device.snsC_setTrk (d : Device) (i : Nat) (z : TrkCh) (j : Nat) : (d.setTrk i z).snsC j = d.snsC j := rfl
@[simp] theorem Device.snsC_setPwm (d : Device) (i : Nat) (z : PwmCh) (j : Nat) : (d.setPwm i z).snsC j = d.snsC j := rfl
@[simp] theorem Device.snsC_setSlot (d : Device) (i : Nat) (z : LeSlot) (j : Nat) : (d.setSlot i z).snsC j = d.snsC j := rfl
@[simp] theorem Device.snsC_setCore (d : Device) (i : Nat) (z : Core) (j : Nat) : (d.setCore i z).snsC j = d.snsC j := rfl
@[simp] theorem Device.snsC_setQue (d : Device) (i : Nat) (z : Que) (j : Nat) : (d.setQue i z).snsC j = d.snsC j := rfl
@[simp] theorem Device.snsC_setLock (d : Device) (i : Nat) (z : Lock) (j : Nat) : (d.setLock i z).snsC j = d.snsC j := rfl
@[simp] theorem Device.snsC_setBuf (d : Device) (i : Nat) (z : Buf) (j : Nat) : (d.setBuf i z).snsC j = d.snsC j := rfl
@[simp] theorem Device.snsC_setDma (d : Device) (i : Nat) (z : DmaCh) (j : Nat) : (d.setDma i z).snsC j = d.snsC j := rfl
@[simp] theorem Device.snsC_setCmp (d : Device) (i : Nat) (z : Cmp) (j : Nat) : (d.setCmp i z).snsC j = d.snsC j := rfl
@[simp] theorem Device.snsC_setDbgC (d : Device) (i : Nat) (z : DbgCore) (j : Nat) : (d.setDbgC i z).snsC j = d.snsC j := rfl
@[simp] theorem Device.snsC_setLv (d : Device) (i : Nat) (z : Word) (j : Nat) : (d.setLv i z).snsC j = d.snsC j := rfl
@[simp] theorem Device.snsC_setEcc (d : Device) (i : Nat) (z : Ecc) (j : Nat) : (d.setEcc i z).snsC j = d.snsC j := rfl
@[simp] theorem Device.snsC_wrByte (d : Device) (i : Nat) (z : Byte) (j : Nat) : (d.wrByte i z).snsC j = d.snsC j := rfl
@[simp] theorem Device.snsC_setPend (d : Device) (i : Nat) (z : Bool) (j : Nat) : (d.setPend i z).snsC j = d.snsC j := rfl
@[simp] theorem Device.trkC_setTrk (d : Device) (n : Nat) (c : TrkCh) : (d.setTrk n c).trkC n = c := by
  simp [Device.trkC, Device.setTrk]
theorem Device.trkC_setTrk_ne (d : Device) {i j : Nat} (c : TrkCh) (h : j ≠ i) : (d.setTrk i c).trkC j = d.trkC j := by
  simp [Device.trkC, Device.setTrk, Tab.get_set, h]
@[simp] theorem Device.setTrk_setTrk (d : Device) (n : Nat) (c z : TrkCh) : (d.setTrk n c).setTrk n z = d.setTrk n z := by
  simp [Device.setTrk]
@[simp] theorem Device.trkC_setSns (d : Device) (i : Nat) (z : SnsCh) (j : Nat) : (d.setSns i z).trkC j = d.trkC j := rfl
@[simp] theorem Device.trkC_setPwm (d : Device) (i : Nat) (z : PwmCh) (j : Nat) : (d.setPwm i z).trkC j = d.trkC j := rfl
@[simp] theorem Device.trkC_setSlot (d : Device) (i : Nat) (z : LeSlot) (j : Nat) : (d.setSlot i z).trkC j = d.trkC j := rfl
@[simp] theorem Device.trkC_setCore (d : Device) (i : Nat) (z : Core) (j : Nat) : (d.setCore i z).trkC j = d.trkC j := rfl
@[simp] theorem Device.trkC_setQue (d : Device) (i : Nat) (z : Que) (j : Nat) : (d.setQue i z).trkC j = d.trkC j := rfl
@[simp] theorem Device.trkC_setLock (d : Device) (i : Nat) (z : Lock) (j : Nat) : (d.setLock i z).trkC j = d.trkC j := rfl
@[simp] theorem Device.trkC_setBuf (d : Device) (i : Nat) (z : Buf) (j : Nat) : (d.setBuf i z).trkC j = d.trkC j := rfl
@[simp] theorem Device.trkC_setDma (d : Device) (i : Nat) (z : DmaCh) (j : Nat) : (d.setDma i z).trkC j = d.trkC j := rfl
@[simp] theorem Device.trkC_setCmp (d : Device) (i : Nat) (z : Cmp) (j : Nat) : (d.setCmp i z).trkC j = d.trkC j := rfl
@[simp] theorem Device.trkC_setDbgC (d : Device) (i : Nat) (z : DbgCore) (j : Nat) : (d.setDbgC i z).trkC j = d.trkC j := rfl
@[simp] theorem Device.trkC_setLv (d : Device) (i : Nat) (z : Word) (j : Nat) : (d.setLv i z).trkC j = d.trkC j := rfl
@[simp] theorem Device.trkC_setEcc (d : Device) (i : Nat) (z : Ecc) (j : Nat) : (d.setEcc i z).trkC j = d.trkC j := rfl
@[simp] theorem Device.trkC_wrByte (d : Device) (i : Nat) (z : Byte) (j : Nat) : (d.wrByte i z).trkC j = d.trkC j := rfl
@[simp] theorem Device.trkC_setPend (d : Device) (i : Nat) (z : Bool) (j : Nat) : (d.setPend i z).trkC j = d.trkC j := rfl
@[simp] theorem Device.pwmC_setPwm (d : Device) (n : Nat) (c : PwmCh) : (d.setPwm n c).pwmC n = c := by
  simp [Device.pwmC, Device.setPwm]
theorem Device.pwmC_setPwm_ne (d : Device) {i j : Nat} (c : PwmCh) (h : j ≠ i) : (d.setPwm i c).pwmC j = d.pwmC j := by
  simp [Device.pwmC, Device.setPwm, Tab.get_set, h]
@[simp] theorem Device.setPwm_setPwm (d : Device) (n : Nat) (c z : PwmCh) : (d.setPwm n c).setPwm n z = d.setPwm n z := by
  simp [Device.setPwm]
@[simp] theorem Device.pwmC_setSns (d : Device) (i : Nat) (z : SnsCh) (j : Nat) : (d.setSns i z).pwmC j = d.pwmC j := rfl
@[simp] theorem Device.pwmC_setTrk (d : Device) (i : Nat) (z : TrkCh) (j : Nat) : (d.setTrk i z).pwmC j = d.pwmC j := rfl
@[simp] theorem Device.pwmC_setSlot (d : Device) (i : Nat) (z : LeSlot) (j : Nat) : (d.setSlot i z).pwmC j = d.pwmC j := rfl
@[simp] theorem Device.pwmC_setCore (d : Device) (i : Nat) (z : Core) (j : Nat) : (d.setCore i z).pwmC j = d.pwmC j := rfl
@[simp] theorem Device.pwmC_setQue (d : Device) (i : Nat) (z : Que) (j : Nat) : (d.setQue i z).pwmC j = d.pwmC j := rfl
@[simp] theorem Device.pwmC_setLock (d : Device) (i : Nat) (z : Lock) (j : Nat) : (d.setLock i z).pwmC j = d.pwmC j := rfl
@[simp] theorem Device.pwmC_setBuf (d : Device) (i : Nat) (z : Buf) (j : Nat) : (d.setBuf i z).pwmC j = d.pwmC j := rfl
@[simp] theorem Device.pwmC_setDma (d : Device) (i : Nat) (z : DmaCh) (j : Nat) : (d.setDma i z).pwmC j = d.pwmC j := rfl
@[simp] theorem Device.pwmC_setCmp (d : Device) (i : Nat) (z : Cmp) (j : Nat) : (d.setCmp i z).pwmC j = d.pwmC j := rfl
@[simp] theorem Device.pwmC_setDbgC (d : Device) (i : Nat) (z : DbgCore) (j : Nat) : (d.setDbgC i z).pwmC j = d.pwmC j := rfl
@[simp] theorem Device.pwmC_setLv (d : Device) (i : Nat) (z : Word) (j : Nat) : (d.setLv i z).pwmC j = d.pwmC j := rfl
@[simp] theorem Device.pwmC_setEcc (d : Device) (i : Nat) (z : Ecc) (j : Nat) : (d.setEcc i z).pwmC j = d.pwmC j := rfl
@[simp] theorem Device.pwmC_wrByte (d : Device) (i : Nat) (z : Byte) (j : Nat) : (d.wrByte i z).pwmC j = d.pwmC j := rfl
@[simp] theorem Device.pwmC_setPend (d : Device) (i : Nat) (z : Bool) (j : Nat) : (d.setPend i z).pwmC j = d.pwmC j := rfl
@[simp] theorem Device.slotC_setSlot (d : Device) (n : Nat) (c : LeSlot) : (d.setSlot n c).slotC n = c := by
  simp [Device.slotC, Device.setSlot]
theorem Device.slotC_setSlot_ne (d : Device) {i j : Nat} (c : LeSlot) (h : j ≠ i) : (d.setSlot i c).slotC j = d.slotC j := by
  simp [Device.slotC, Device.setSlot, Tab.get_set, h]
@[simp] theorem Device.setSlot_setSlot (d : Device) (n : Nat) (c z : LeSlot) : (d.setSlot n c).setSlot n z = d.setSlot n z := by
  simp [Device.setSlot]
@[simp] theorem Device.slotC_setSns (d : Device) (i : Nat) (z : SnsCh) (j : Nat) : (d.setSns i z).slotC j = d.slotC j := rfl
@[simp] theorem Device.slotC_setTrk (d : Device) (i : Nat) (z : TrkCh) (j : Nat) : (d.setTrk i z).slotC j = d.slotC j := rfl
@[simp] theorem Device.slotC_setPwm (d : Device) (i : Nat) (z : PwmCh) (j : Nat) : (d.setPwm i z).slotC j = d.slotC j := rfl
@[simp] theorem Device.slotC_setCore (d : Device) (i : Nat) (z : Core) (j : Nat) : (d.setCore i z).slotC j = d.slotC j := rfl
@[simp] theorem Device.slotC_setQue (d : Device) (i : Nat) (z : Que) (j : Nat) : (d.setQue i z).slotC j = d.slotC j := rfl
@[simp] theorem Device.slotC_setLock (d : Device) (i : Nat) (z : Lock) (j : Nat) : (d.setLock i z).slotC j = d.slotC j := rfl
@[simp] theorem Device.slotC_setBuf (d : Device) (i : Nat) (z : Buf) (j : Nat) : (d.setBuf i z).slotC j = d.slotC j := rfl
@[simp] theorem Device.slotC_setDma (d : Device) (i : Nat) (z : DmaCh) (j : Nat) : (d.setDma i z).slotC j = d.slotC j := rfl
@[simp] theorem Device.slotC_setCmp (d : Device) (i : Nat) (z : Cmp) (j : Nat) : (d.setCmp i z).slotC j = d.slotC j := rfl
@[simp] theorem Device.slotC_setDbgC (d : Device) (i : Nat) (z : DbgCore) (j : Nat) : (d.setDbgC i z).slotC j = d.slotC j := rfl
@[simp] theorem Device.slotC_setLv (d : Device) (i : Nat) (z : Word) (j : Nat) : (d.setLv i z).slotC j = d.slotC j := rfl
@[simp] theorem Device.slotC_setEcc (d : Device) (i : Nat) (z : Ecc) (j : Nat) : (d.setEcc i z).slotC j = d.slotC j := rfl
@[simp] theorem Device.slotC_wrByte (d : Device) (i : Nat) (z : Byte) (j : Nat) : (d.wrByte i z).slotC j = d.slotC j := rfl
@[simp] theorem Device.slotC_setPend (d : Device) (i : Nat) (z : Bool) (j : Nat) : (d.setPend i z).slotC j = d.slotC j := rfl
@[simp] theorem Device.coreC_setCore (d : Device) (c : Nat) (k : Core) : (d.setCore c k).coreC c = k := by
  simp [Device.coreC, Device.setCore]
theorem Device.coreC_setCore_ne (d : Device) {i j : Nat} (k : Core) (h : j ≠ i) : (d.setCore i k).coreC j = d.coreC j := by
  simp [Device.coreC, Device.setCore, Tab.get_set, h]
@[simp] theorem Device.setCore_setCore (d : Device) (c : Nat) (k z : Core) : (d.setCore c k).setCore c z = d.setCore c z := by
  simp [Device.setCore]
@[simp] theorem Device.coreC_setSns (d : Device) (i : Nat) (z : SnsCh) (j : Nat) : (d.setSns i z).coreC j = d.coreC j := rfl
@[simp] theorem Device.coreC_setTrk (d : Device) (i : Nat) (z : TrkCh) (j : Nat) : (d.setTrk i z).coreC j = d.coreC j := rfl
@[simp] theorem Device.coreC_setPwm (d : Device) (i : Nat) (z : PwmCh) (j : Nat) : (d.setPwm i z).coreC j = d.coreC j := rfl
@[simp] theorem Device.coreC_setSlot (d : Device) (i : Nat) (z : LeSlot) (j : Nat) : (d.setSlot i z).coreC j = d.coreC j := rfl
@[simp] theorem Device.coreC_setQue (d : Device) (i : Nat) (z : Que) (j : Nat) : (d.setQue i z).coreC j = d.coreC j := rfl
@[simp] theorem Device.coreC_setLock (d : Device) (i : Nat) (z : Lock) (j : Nat) : (d.setLock i z).coreC j = d.coreC j := rfl
@[simp] theorem Device.coreC_setBuf (d : Device) (i : Nat) (z : Buf) (j : Nat) : (d.setBuf i z).coreC j = d.coreC j := rfl
@[simp] theorem Device.coreC_setDma (d : Device) (i : Nat) (z : DmaCh) (j : Nat) : (d.setDma i z).coreC j = d.coreC j := rfl
@[simp] theorem Device.coreC_setCmp (d : Device) (i : Nat) (z : Cmp) (j : Nat) : (d.setCmp i z).coreC j = d.coreC j := rfl
@[simp] theorem Device.coreC_setDbgC (d : Device) (i : Nat) (z : DbgCore) (j : Nat) : (d.setDbgC i z).coreC j = d.coreC j := rfl
@[simp] theorem Device.coreC_setLv (d : Device) (i : Nat) (z : Word) (j : Nat) : (d.setLv i z).coreC j = d.coreC j := rfl
@[simp] theorem Device.coreC_setEcc (d : Device) (i : Nat) (z : Ecc) (j : Nat) : (d.setEcc i z).coreC j = d.coreC j := rfl
@[simp] theorem Device.coreC_wrByte (d : Device) (i : Nat) (z : Byte) (j : Nat) : (d.wrByte i z).coreC j = d.coreC j := rfl
@[simp] theorem Device.coreC_setPend (d : Device) (i : Nat) (z : Bool) (j : Nat) : (d.setPend i z).coreC j = d.coreC j := rfl
@[simp] theorem Device.queC_setQue (d : Device) (q : Nat) (k : Que) : (d.setQue q k).queC q = k := by
  simp [Device.queC, Device.setQue]
theorem Device.queC_setQue_ne (d : Device) {i j : Nat} (k : Que) (h : j ≠ i) : (d.setQue i k).queC j = d.queC j := by
  simp [Device.queC, Device.setQue, Tab.get_set, h]
@[simp] theorem Device.setQue_setQue (d : Device) (q : Nat) (k z : Que) : (d.setQue q k).setQue q z = d.setQue q z := by
  simp [Device.setQue]
@[simp] theorem Device.queC_setSns (d : Device) (i : Nat) (z : SnsCh) (j : Nat) : (d.setSns i z).queC j = d.queC j := rfl
@[simp] theorem Device.queC_setTrk (d : Device) (i : Nat) (z : TrkCh) (j : Nat) : (d.setTrk i z).queC j = d.queC j := rfl
@[simp] theorem Device.queC_setPwm (d : Device) (i : Nat) (z : PwmCh) (j : Nat) : (d.setPwm i z).queC j = d.queC j := rfl
@[simp] theorem Device.queC_setSlot (d : Device) (i : Nat) (z : LeSlot) (j : Nat) : (d.setSlot i z).queC j = d.queC j := rfl
@[simp] theorem Device.queC_setCore (d : Device) (i : Nat) (z : Core) (j : Nat) : (d.setCore i z).queC j = d.queC j := rfl
@[simp] theorem Device.queC_setLock (d : Device) (i : Nat) (z : Lock) (j : Nat) : (d.setLock i z).queC j = d.queC j := rfl
@[simp] theorem Device.queC_setBuf (d : Device) (i : Nat) (z : Buf) (j : Nat) : (d.setBuf i z).queC j = d.queC j := rfl
@[simp] theorem Device.queC_setDma (d : Device) (i : Nat) (z : DmaCh) (j : Nat) : (d.setDma i z).queC j = d.queC j := rfl
@[simp] theorem Device.queC_setCmp (d : Device) (i : Nat) (z : Cmp) (j : Nat) : (d.setCmp i z).queC j = d.queC j := rfl
@[simp] theorem Device.queC_setDbgC (d : Device) (i : Nat) (z : DbgCore) (j : Nat) : (d.setDbgC i z).queC j = d.queC j := rfl
@[simp] theorem Device.queC_setLv (d : Device) (i : Nat) (z : Word) (j : Nat) : (d.setLv i z).queC j = d.queC j := rfl
@[simp] theorem Device.queC_setEcc (d : Device) (i : Nat) (z : Ecc) (j : Nat) : (d.setEcc i z).queC j = d.queC j := rfl
@[simp] theorem Device.queC_wrByte (d : Device) (i : Nat) (z : Byte) (j : Nat) : (d.wrByte i z).queC j = d.queC j := rfl
@[simp] theorem Device.queC_setPend (d : Device) (i : Nat) (z : Bool) (j : Nat) : (d.setPend i z).queC j = d.queC j := rfl
@[simp] theorem Device.lockC_setLock (d : Device) (n : Nat) (k : Lock) : (d.setLock n k).lockC n = k := by
  simp [Device.lockC, Device.setLock]
theorem Device.lockC_setLock_ne (d : Device) {i j : Nat} (k : Lock) (h : j ≠ i) : (d.setLock i k).lockC j = d.lockC j := by
  simp [Device.lockC, Device.setLock, Tab.get_set, h]
@[simp] theorem Device.setLock_setLock (d : Device) (n : Nat) (k z : Lock) : (d.setLock n k).setLock n z = d.setLock n z := by
  simp [Device.setLock]
@[simp] theorem Device.lockC_setSns (d : Device) (i : Nat) (z : SnsCh) (j : Nat) : (d.setSns i z).lockC j = d.lockC j := rfl
@[simp] theorem Device.lockC_setTrk (d : Device) (i : Nat) (z : TrkCh) (j : Nat) : (d.setTrk i z).lockC j = d.lockC j := rfl
@[simp] theorem Device.lockC_setPwm (d : Device) (i : Nat) (z : PwmCh) (j : Nat) : (d.setPwm i z).lockC j = d.lockC j := rfl
@[simp] theorem Device.lockC_setSlot (d : Device) (i : Nat) (z : LeSlot) (j : Nat) : (d.setSlot i z).lockC j = d.lockC j := rfl
@[simp] theorem Device.lockC_setCore (d : Device) (i : Nat) (z : Core) (j : Nat) : (d.setCore i z).lockC j = d.lockC j := rfl
@[simp] theorem Device.lockC_setQue (d : Device) (i : Nat) (z : Que) (j : Nat) : (d.setQue i z).lockC j = d.lockC j := rfl
@[simp] theorem Device.lockC_setBuf (d : Device) (i : Nat) (z : Buf) (j : Nat) : (d.setBuf i z).lockC j = d.lockC j := rfl
@[simp] theorem Device.lockC_setDma (d : Device) (i : Nat) (z : DmaCh) (j : Nat) : (d.setDma i z).lockC j = d.lockC j := rfl
@[simp] theorem Device.lockC_setCmp (d : Device) (i : Nat) (z : Cmp) (j : Nat) : (d.setCmp i z).lockC j = d.lockC j := rfl
@[simp] theorem Device.lockC_setDbgC (d : Device) (i : Nat) (z : DbgCore) (j : Nat) : (d.setDbgC i z).lockC j = d.lockC j := rfl
@[simp] theorem Device.lockC_setLv (d : Device) (i : Nat) (z : Word) (j : Nat) : (d.setLv i z).lockC j = d.lockC j := rfl
@[simp] theorem Device.lockC_setEcc (d : Device) (i : Nat) (z : Ecc) (j : Nat) : (d.setEcc i z).lockC j = d.lockC j := rfl
@[simp] theorem Device.lockC_wrByte (d : Device) (i : Nat) (z : Byte) (j : Nat) : (d.wrByte i z).lockC j = d.lockC j := rfl
@[simp] theorem Device.lockC_setPend (d : Device) (i : Nat) (z : Bool) (j : Nat) : (d.setPend i z).lockC j = d.lockC j := rfl
@[simp] theorem Device.bufC_setBuf (d : Device) (i : Nat) (b : Buf) : (d.setBuf i b).bufC i = b := by
  simp [Device.bufC, Device.setBuf]
theorem Device.bufC_setBuf_ne (d : Device) {i j : Nat} (b : Buf) (h : j ≠ i) : (d.setBuf i b).bufC j = d.bufC j := by
  simp [Device.bufC, Device.setBuf, Tab.get_set, h]
@[simp] theorem Device.setBuf_setBuf (d : Device) (i : Nat) (b z : Buf) : (d.setBuf i b).setBuf i z = d.setBuf i z := by
  simp [Device.setBuf]
@[simp] theorem Device.bufC_setSns (d : Device) (i : Nat) (z : SnsCh) (j : Nat) : (d.setSns i z).bufC j = d.bufC j := rfl
@[simp] theorem Device.bufC_setTrk (d : Device) (i : Nat) (z : TrkCh) (j : Nat) : (d.setTrk i z).bufC j = d.bufC j := rfl
@[simp] theorem Device.bufC_setPwm (d : Device) (i : Nat) (z : PwmCh) (j : Nat) : (d.setPwm i z).bufC j = d.bufC j := rfl
@[simp] theorem Device.bufC_setSlot (d : Device) (i : Nat) (z : LeSlot) (j : Nat) : (d.setSlot i z).bufC j = d.bufC j := rfl
@[simp] theorem Device.bufC_setCore (d : Device) (i : Nat) (z : Core) (j : Nat) : (d.setCore i z).bufC j = d.bufC j := rfl
@[simp] theorem Device.bufC_setQue (d : Device) (i : Nat) (z : Que) (j : Nat) : (d.setQue i z).bufC j = d.bufC j := rfl
@[simp] theorem Device.bufC_setLock (d : Device) (i : Nat) (z : Lock) (j : Nat) : (d.setLock i z).bufC j = d.bufC j := rfl
@[simp] theorem Device.bufC_setDma (d : Device) (i : Nat) (z : DmaCh) (j : Nat) : (d.setDma i z).bufC j = d.bufC j := rfl
@[simp] theorem Device.bufC_setCmp (d : Device) (i : Nat) (z : Cmp) (j : Nat) : (d.setCmp i z).bufC j = d.bufC j := rfl
@[simp] theorem Device.bufC_setDbgC (d : Device) (i : Nat) (z : DbgCore) (j : Nat) : (d.setDbgC i z).bufC j = d.bufC j := rfl
@[simp] theorem Device.bufC_setLv (d : Device) (i : Nat) (z : Word) (j : Nat) : (d.setLv i z).bufC j = d.bufC j := rfl
@[simp] theorem Device.bufC_setEcc (d : Device) (i : Nat) (z : Ecc) (j : Nat) : (d.setEcc i z).bufC j = d.bufC j := rfl
@[simp] theorem Device.bufC_wrByte (d : Device) (i : Nat) (z : Byte) (j : Nat) : (d.wrByte i z).bufC j = d.bufC j := rfl
@[simp] theorem Device.bufC_setPend (d : Device) (i : Nat) (z : Bool) (j : Nat) : (d.setPend i z).bufC j = d.bufC j := rfl
@[simp] theorem Device.dmaC_setDma (d : Device) (k : Nat) (c : DmaCh) : (d.setDma k c).dmaC k = c := by
  simp [Device.dmaC, Device.setDma]
theorem Device.dmaC_setDma_ne (d : Device) {i j : Nat} (c : DmaCh) (h : j ≠ i) : (d.setDma i c).dmaC j = d.dmaC j := by
  simp [Device.dmaC, Device.setDma, Tab.get_set, h]
@[simp] theorem Device.setDma_setDma (d : Device) (k : Nat) (c z : DmaCh) : (d.setDma k c).setDma k z = d.setDma k z := by
  simp [Device.setDma]
@[simp] theorem Device.dmaC_setSns (d : Device) (i : Nat) (z : SnsCh) (j : Nat) : (d.setSns i z).dmaC j = d.dmaC j := rfl
@[simp] theorem Device.dmaC_setTrk (d : Device) (i : Nat) (z : TrkCh) (j : Nat) : (d.setTrk i z).dmaC j = d.dmaC j := rfl
@[simp] theorem Device.dmaC_setPwm (d : Device) (i : Nat) (z : PwmCh) (j : Nat) : (d.setPwm i z).dmaC j = d.dmaC j := rfl
@[simp] theorem Device.dmaC_setSlot (d : Device) (i : Nat) (z : LeSlot) (j : Nat) : (d.setSlot i z).dmaC j = d.dmaC j := rfl
@[simp] theorem Device.dmaC_setCore (d : Device) (i : Nat) (z : Core) (j : Nat) : (d.setCore i z).dmaC j = d.dmaC j := rfl
@[simp] theorem Device.dmaC_setQue (d : Device) (i : Nat) (z : Que) (j : Nat) : (d.setQue i z).dmaC j = d.dmaC j := rfl
@[simp] theorem Device.dmaC_setLock (d : Device) (i : Nat) (z : Lock) (j : Nat) : (d.setLock i z).dmaC j = d.dmaC j := rfl
@[simp] theorem Device.dmaC_setBuf (d : Device) (i : Nat) (z : Buf) (j : Nat) : (d.setBuf i z).dmaC j = d.dmaC j := rfl
@[simp] theorem Device.dmaC_setCmp (d : Device) (i : Nat) (z : Cmp) (j : Nat) : (d.setCmp i z).dmaC j = d.dmaC j := rfl
@[simp] theorem Device.dmaC_setDbgC (d : Device) (i : Nat) (z : DbgCore) (j : Nat) : (d.setDbgC i z).dmaC j = d.dmaC j := rfl
@[simp] theorem Device.dmaC_setLv (d : Device) (i : Nat) (z : Word) (j : Nat) : (d.setLv i z).dmaC j = d.dmaC j := rfl
@[simp] theorem Device.dmaC_setEcc (d : Device) (i : Nat) (z : Ecc) (j : Nat) : (d.setEcc i z).dmaC j = d.dmaC j := rfl
@[simp] theorem Device.dmaC_wrByte (d : Device) (i : Nat) (z : Byte) (j : Nat) : (d.wrByte i z).dmaC j = d.dmaC j := rfl
@[simp] theorem Device.dmaC_setPend (d : Device) (i : Nat) (z : Bool) (j : Nat) : (d.setPend i z).dmaC j = d.dmaC j := rfl
@[simp] theorem Device.cmpC_setCmp (d : Device) (k : Nat) (c : Cmp) : (d.setCmp k c).cmpC k = c := by
  simp [Device.cmpC, Device.setCmp]
theorem Device.cmpC_setCmp_ne (d : Device) {i j : Nat} (c : Cmp) (h : j ≠ i) : (d.setCmp i c).cmpC j = d.cmpC j := by
  simp [Device.cmpC, Device.setCmp, Tab.get_set, h]
@[simp] theorem Device.setCmp_setCmp (d : Device) (k : Nat) (c z : Cmp) : (d.setCmp k c).setCmp k z = d.setCmp k z := by
  simp [Device.setCmp]
@[simp] theorem Device.cmpC_setSns (d : Device) (i : Nat) (z : SnsCh) (j : Nat) : (d.setSns i z).cmpC j = d.cmpC j := rfl
@[simp] theorem Device.cmpC_setTrk (d : Device) (i : Nat) (z : TrkCh) (j : Nat) : (d.setTrk i z).cmpC j = d.cmpC j := rfl
@[simp] theorem Device.cmpC_setPwm (d : Device) (i : Nat) (z : PwmCh) (j : Nat) : (d.setPwm i z).cmpC j = d.cmpC j := rfl
@[simp] theorem Device.cmpC_setSlot (d : Device) (i : Nat) (z : LeSlot) (j : Nat) : (d.setSlot i z).cmpC j = d.cmpC j := rfl
@[simp] theorem Device.cmpC_setCore (d : Device) (i : Nat) (z : Core) (j : Nat) : (d.setCore i z).cmpC j = d.cmpC j := rfl
@[simp] theorem Device.cmpC_setQue (d : Device) (i : Nat) (z : Que) (j : Nat) : (d.setQue i z).cmpC j = d.cmpC j := rfl
@[simp] theorem Device.cmpC_setLock (d : Device) (i : Nat) (z : Lock) (j : Nat) : (d.setLock i z).cmpC j = d.cmpC j := rfl
@[simp] theorem Device.cmpC_setBuf (d : Device) (i : Nat) (z : Buf) (j : Nat) : (d.setBuf i z).cmpC j = d.cmpC j := rfl
@[simp] theorem Device.cmpC_setDma (d : Device) (i : Nat) (z : DmaCh) (j : Nat) : (d.setDma i z).cmpC j = d.cmpC j := rfl
@[simp] theorem Device.cmpC_setDbgC (d : Device) (i : Nat) (z : DbgCore) (j : Nat) : (d.setDbgC i z).cmpC j = d.cmpC j := rfl
@[simp] theorem Device.cmpC_setLv (d : Device) (i : Nat) (z : Word) (j : Nat) : (d.setLv i z).cmpC j = d.cmpC j := rfl
@[simp] theorem Device.cmpC_setEcc (d : Device) (i : Nat) (z : Ecc) (j : Nat) : (d.setEcc i z).cmpC j = d.cmpC j := rfl
@[simp] theorem Device.cmpC_wrByte (d : Device) (i : Nat) (z : Byte) (j : Nat) : (d.wrByte i z).cmpC j = d.cmpC j := rfl
@[simp] theorem Device.cmpC_setPend (d : Device) (i : Nat) (z : Bool) (j : Nat) : (d.setPend i z).cmpC j = d.cmpC j := rfl
@[simp] theorem Device.dbgC_setDbgC (d : Device) (c : Nat) (k : DbgCore) : (d.setDbgC c k).dbgC c = k := by
  simp [Device.dbgC, Device.setDbgC]
theorem Device.dbgC_setDbgC_ne (d : Device) {i j : Nat} (k : DbgCore) (h : j ≠ i) : (d.setDbgC i k).dbgC j = d.dbgC j := by
  simp [Device.dbgC, Device.setDbgC, Tab.get_set, h]
@[simp] theorem Device.setDbgC_setDbgC (d : Device) (c : Nat) (k z : DbgCore) : (d.setDbgC c k).setDbgC c z = d.setDbgC c z := by
  simp [Device.setDbgC]
@[simp] theorem Device.dbgC_setSns (d : Device) (i : Nat) (z : SnsCh) (j : Nat) : (d.setSns i z).dbgC j = d.dbgC j := rfl
@[simp] theorem Device.dbgC_setTrk (d : Device) (i : Nat) (z : TrkCh) (j : Nat) : (d.setTrk i z).dbgC j = d.dbgC j := rfl
@[simp] theorem Device.dbgC_setPwm (d : Device) (i : Nat) (z : PwmCh) (j : Nat) : (d.setPwm i z).dbgC j = d.dbgC j := rfl
@[simp] theorem Device.dbgC_setSlot (d : Device) (i : Nat) (z : LeSlot) (j : Nat) : (d.setSlot i z).dbgC j = d.dbgC j := rfl
@[simp] theorem Device.dbgC_setCore (d : Device) (i : Nat) (z : Core) (j : Nat) : (d.setCore i z).dbgC j = d.dbgC j := rfl
@[simp] theorem Device.dbgC_setQue (d : Device) (i : Nat) (z : Que) (j : Nat) : (d.setQue i z).dbgC j = d.dbgC j := rfl
@[simp] theorem Device.dbgC_setLock (d : Device) (i : Nat) (z : Lock) (j : Nat) : (d.setLock i z).dbgC j = d.dbgC j := rfl
@[simp] theorem Device.dbgC_setBuf (d : Device) (i : Nat) (z : Buf) (j : Nat) : (d.setBuf i z).dbgC j = d.dbgC j := rfl
@[simp] theorem Device.dbgC_setDma (d : Device) (i : Nat) (z : DmaCh) (j : Nat) : (d.setDma i z).dbgC j = d.dbgC j := rfl
@[simp] theorem Device.dbgC_setCmp (d : Device) (i : Nat) (z : Cmp) (j : Nat) : (d.setCmp i z).dbgC j = d.dbgC j := rfl
@[simp] theorem Device.dbgC_setLv (d : Device) (i : Nat) (z : Word) (j : Nat) : (d.setLv i z).dbgC j = d.dbgC j := rfl
@[simp] theorem Device.dbgC_setEcc (d : Device) (i : Nat) (z : Ecc) (j : Nat) : (d.setEcc i z).dbgC j = d.dbgC j := rfl
@[simp] theorem Device.dbgC_wrByte (d : Device) (i : Nat) (z : Byte) (j : Nat) : (d.wrByte i z).dbgC j = d.dbgC j := rfl
@[simp] theorem Device.dbgC_setPend (d : Device) (i : Nat) (z : Bool) (j : Nat) : (d.setPend i z).dbgC j = d.dbgC j := rfl
@[simp] theorem Device.lv_setLv (d : Device) (a : Nat) (v : Word) : (d.setLv a v).lv a = v := by
  simp [Device.lv, Device.setLv]
theorem Device.lv_setLv_ne (d : Device) {i j : Nat} (v : Word) (h : j ≠ i) : (d.setLv i v).lv j = d.lv j := by
  simp [Device.lv, Device.setLv, Tab.get_set, h]
@[simp] theorem Device.setLv_setLv (d : Device) (a : Nat) (v z : Word) : (d.setLv a v).setLv a z = d.setLv a z := by
  simp [Device.setLv]
@[simp] theorem Device.lv_setSns (d : Device) (i : Nat) (z : SnsCh) (j : Nat) : (d.setSns i z).lv j = d.lv j := rfl
@[simp] theorem Device.lv_setTrk (d : Device) (i : Nat) (z : TrkCh) (j : Nat) : (d.setTrk i z).lv j = d.lv j := rfl
@[simp] theorem Device.lv_setPwm (d : Device) (i : Nat) (z : PwmCh) (j : Nat) : (d.setPwm i z).lv j = d.lv j := rfl
@[simp] theorem Device.lv_setSlot (d : Device) (i : Nat) (z : LeSlot) (j : Nat) : (d.setSlot i z).lv j = d.lv j := rfl
@[simp] theorem Device.lv_setCore (d : Device) (i : Nat) (z : Core) (j : Nat) : (d.setCore i z).lv j = d.lv j := rfl
@[simp] theorem Device.lv_setQue (d : Device) (i : Nat) (z : Que) (j : Nat) : (d.setQue i z).lv j = d.lv j := rfl
@[simp] theorem Device.lv_setLock (d : Device) (i : Nat) (z : Lock) (j : Nat) : (d.setLock i z).lv j = d.lv j := rfl
@[simp] theorem Device.lv_setBuf (d : Device) (i : Nat) (z : Buf) (j : Nat) : (d.setBuf i z).lv j = d.lv j := rfl
@[simp] theorem Device.lv_setDma (d : Device) (i : Nat) (z : DmaCh) (j : Nat) : (d.setDma i z).lv j = d.lv j := rfl
@[simp] theorem Device.lv_setCmp (d : Device) (i : Nat) (z : Cmp) (j : Nat) : (d.setCmp i z).lv j = d.lv j := rfl
@[simp] theorem Device.lv_setDbgC (d : Device) (i : Nat) (z : DbgCore) (j : Nat) : (d.setDbgC i z).lv j = d.lv j := rfl
@[simp] theorem Device.lv_setEcc (d : Device) (i : Nat) (z : Ecc) (j : Nat) : (d.setEcc i z).lv j = d.lv j := rfl
@[simp] theorem Device.lv_wrByte (d : Device) (i : Nat) (z : Byte) (j : Nat) : (d.wrByte i z).lv j = d.lv j := rfl
@[simp] theorem Device.lv_setPend (d : Device) (i : Nat) (z : Bool) (j : Nat) : (d.setPend i z).lv j = d.lv j := rfl
@[simp] theorem Device.eccOf_setEcc (d : Device) (a : Nat) (e : Ecc) : (d.setEcc a e).eccOf a = e := by
  simp [Device.eccOf, Device.setEcc]
theorem Device.eccOf_setEcc_ne (d : Device) {i j : Nat} (e : Ecc) (h : j ≠ i) : (d.setEcc i e).eccOf j = d.eccOf j := by
  simp [Device.eccOf, Device.setEcc, Tab.get_set, h]
@[simp] theorem Device.setEcc_setEcc (d : Device) (a : Nat) (e z : Ecc) : (d.setEcc a e).setEcc a z = d.setEcc a z := by
  simp [Device.setEcc]
@[simp] theorem Device.eccOf_setSns (d : Device) (i : Nat) (z : SnsCh) (j : Nat) : (d.setSns i z).eccOf j = d.eccOf j := rfl
@[simp] theorem Device.eccOf_setTrk (d : Device) (i : Nat) (z : TrkCh) (j : Nat) : (d.setTrk i z).eccOf j = d.eccOf j := rfl
@[simp] theorem Device.eccOf_setPwm (d : Device) (i : Nat) (z : PwmCh) (j : Nat) : (d.setPwm i z).eccOf j = d.eccOf j := rfl
@[simp] theorem Device.eccOf_setSlot (d : Device) (i : Nat) (z : LeSlot) (j : Nat) : (d.setSlot i z).eccOf j = d.eccOf j := rfl
@[simp] theorem Device.eccOf_setCore (d : Device) (i : Nat) (z : Core) (j : Nat) : (d.setCore i z).eccOf j = d.eccOf j := rfl
@[simp] theorem Device.eccOf_setQue (d : Device) (i : Nat) (z : Que) (j : Nat) : (d.setQue i z).eccOf j = d.eccOf j := rfl
@[simp] theorem Device.eccOf_setLock (d : Device) (i : Nat) (z : Lock) (j : Nat) : (d.setLock i z).eccOf j = d.eccOf j := rfl
@[simp] theorem Device.eccOf_setBuf (d : Device) (i : Nat) (z : Buf) (j : Nat) : (d.setBuf i z).eccOf j = d.eccOf j := rfl
@[simp] theorem Device.eccOf_setDma (d : Device) (i : Nat) (z : DmaCh) (j : Nat) : (d.setDma i z).eccOf j = d.eccOf j := rfl
@[simp] theorem Device.eccOf_setCmp (d : Device) (i : Nat) (z : Cmp) (j : Nat) : (d.setCmp i z).eccOf j = d.eccOf j := rfl
@[simp] theorem Device.eccOf_setDbgC (d : Device) (i : Nat) (z : DbgCore) (j : Nat) : (d.setDbgC i z).eccOf j = d.eccOf j := rfl
@[simp] theorem Device.eccOf_setLv (d : Device) (i : Nat) (z : Word) (j : Nat) : (d.setLv i z).eccOf j = d.eccOf j := rfl
@[simp] theorem Device.eccOf_setPend (d : Device) (i : Nat) (z : Bool) (j : Nat) : (d.setPend i z).eccOf j = d.eccOf j := rfl

/-! ### Writing a general register -/

@[simp] theorem Core.put_st (k : Core) (r : Nat) (v : Word) : (k.put r v).st = k.st := by
  unfold Core.put Core.putOf; split <;> rfl
@[simp] theorem Core.put_halted (k : Core) (r : Nat) (v : Word) : (k.put r v).halted = k.halted := by
  unfold Core.put Core.putOf; split <;> rfl
@[simp] theorem Core.put_stepping (k : Core) (r : Nat) (v : Word) : (k.put r v).stepping = k.stepping := by
  unfold Core.put Core.putOf; split <;> rfl
@[simp] theorem Core.put_haltReq (k : Core) (r : Nat) (v : Word) : (k.put r v).haltReq = k.haltReq := by
  unfold Core.put Core.putOf; split <;> rfl
@[simp] theorem Core.put_bpSkip (k : Core) (r : Nat) (v : Word) : (k.put r v).bpSkip = k.bpSkip := by
  unfold Core.put Core.putOf; split <;> rfl
@[simp] theorem Core.put_pc (k : Core) (r : Nat) (v : Word) : (k.put r v).pc = k.pc := by
  unfold Core.put Core.putOf; split <;> rfl
@[simp] theorem Core.put_status (k : Core) (r : Nat) (v : Word) : (k.put r v).status = k.status := by
  unfold Core.put Core.putOf; split <;> rfl
@[simp] theorem Core.put_estat (k : Core) (r : Nat) (v : Word) : (k.put r v).estat = k.estat := by
  unfold Core.put Core.putOf; split <;> rfl
@[simp] theorem Core.put_epc (k : Core) (r : Nat) (v : Word) : (k.put r v).epc = k.epc := by
  unfold Core.put Core.putOf; split <;> rfl
@[simp] theorem Core.put_ecause (k : Core) (r : Nat) (v : Word) : (k.put r v).ecause = k.ecause := by
  unfold Core.put Core.putOf; split <;> rfl
@[simp] theorem Core.put_faddr (k : Core) (r : Nat) (v : Word) : (k.put r v).faddr = k.faddr := by
  unfold Core.put Core.putOf; split <;> rfl
@[simp] theorem Core.put_vbase (k : Core) (r : Nat) (v : Word) : (k.put r v).vbase = k.vbase := by
  unfold Core.put Core.putOf; split <;> rfl
@[simp] theorem Core.put_tsbp (k : Core) (r : Nat) (v : Word) : (k.put r v).tsbp = k.tsbp := by
  unfold Core.put Core.putOf; split <;> rfl
@[simp] theorem Core.put_rpc (k : Core) (r : Nat) (v : Word) : (k.put r v).rpc = k.rpc := by
  unfold Core.put Core.putOf; split <;> rfl
@[simp] theorem Core.put_acc (k : Core) (r : Nat) (v : Word) : (k.put r v).acc = k.acc := by
  unfold Core.put Core.putOf; split <;> rfl
@[simp] theorem Core.put_accst (k : Core) (r : Nat) (v : Word) : (k.put r v).accst = k.accst := by
  unfold Core.put Core.putOf; split <;> rfl
@[simp] theorem Core.put_icount (k : Core) (r : Nat) (v : Word) : (k.put r v).icount = k.icount := by
  unfold Core.put Core.putOf; split <;> rfl
@[simp] theorem Core.put_icountHi (k : Core) (r : Nat) (v : Word) : (k.put r v).icountHi = k.icountHi := by
  unfold Core.put Core.putOf; split <;> rfl
@[simp] theorem Core.put_rep (k : Core) (r : Nat) (v : Word) : (k.put r v).rep = k.rep := by
  unfold Core.put Core.putOf; split <;> rfl
@[simp] theorem Core.put_dc (k : Core) (r : Nat) (v : Word) : (k.put r v).dc = k.dc := by
  unfold Core.put Core.putOf; split <;> rfl
@[simp] theorem Core.put_ic (k : Core) (r : Nat) (v : Word) : (k.put r v).ic = k.ic := by
  unfold Core.put Core.putOf; split <;> rfl
@[simp] theorem Core.put_ev (k : Core) (r : Nat) (v : Word) : (k.put r v).ev = k.ev := by
  unfold Core.put Core.putOf; split <;> rfl
@[simp] theorem Core.put_hand (k : Core) (r : Nat) (v : Word) : (k.put r v).hand = k.hand := by
  unfold Core.put Core.putOf; split <;> rfl

/-! ### Beginning and retiring an instruction -/

@[simp] theorem Core.begun_st (k : Core) : k.begun.st = k.st := rfl
@[simp] theorem Core.begun_halted (k : Core) : k.begun.halted = k.halted := rfl
@[simp] theorem Core.begun_stepping (k : Core) : k.begun.stepping = k.stepping := rfl
@[simp] theorem Core.begun_haltReq (k : Core) : k.begun.haltReq = k.haltReq := rfl
@[simp] theorem Core.begun_pc (k : Core) : k.begun.pc = k.pc := rfl
@[simp] theorem Core.begun_g (k : Core) : k.begun.g = k.g := rfl
@[simp] theorem Core.begun_status (k : Core) : k.begun.status = k.status := rfl
@[simp] theorem Core.begun_estat (k : Core) : k.begun.estat = k.estat := rfl
@[simp] theorem Core.begun_epc (k : Core) : k.begun.epc = k.epc := rfl
@[simp] theorem Core.begun_ecause (k : Core) : k.begun.ecause = k.ecause := rfl
@[simp] theorem Core.begun_faddr (k : Core) : k.begun.faddr = k.faddr := rfl
@[simp] theorem Core.begun_vbase (k : Core) : k.begun.vbase = k.vbase := rfl
@[simp] theorem Core.begun_tsbp (k : Core) : k.begun.tsbp = k.tsbp := rfl
@[simp] theorem Core.begun_rpc (k : Core) : k.begun.rpc = k.rpc := rfl
@[simp] theorem Core.begun_acc (k : Core) : k.begun.acc = k.acc := rfl
@[simp] theorem Core.begun_accst (k : Core) : k.begun.accst = k.accst := rfl
@[simp] theorem Core.begun_icount (k : Core) : k.begun.icount = k.icount := rfl
@[simp] theorem Core.begun_icountHi (k : Core) : k.begun.icountHi = k.icountHi := rfl
@[simp] theorem Core.begun_rep (k : Core) : k.begun.rep = k.rep := rfl
@[simp] theorem Core.begun_dc (k : Core) : k.begun.dc = k.dc := rfl
@[simp] theorem Core.begun_ic (k : Core) : k.begun.ic = k.ic := rfl
@[simp] theorem Core.begun_ev (k : Core) : k.begun.ev = k.ev := rfl
@[simp] theorem Core.begun_hand (k : Core) : k.begun.hand = k.hand := rfl
@[simp] theorem Core.retired_st (k : Core) (n : Nat) (pc : Word) : (k.retired n pc).st = k.st := rfl
@[simp] theorem Core.retired_halted (k : Core) (n : Nat) (pc : Word) : (k.retired n pc).halted = k.halted := rfl
@[simp] theorem Core.retired_stepping (k : Core) (n : Nat) (pc : Word) : (k.retired n pc).stepping = k.stepping := rfl
@[simp] theorem Core.retired_haltReq (k : Core) (n : Nat) (pc : Word) : (k.retired n pc).haltReq = k.haltReq := rfl
@[simp] theorem Core.retired_bpSkip (k : Core) (n : Nat) (pc : Word) : (k.retired n pc).bpSkip = k.bpSkip := rfl
@[simp] theorem Core.retired_g (k : Core) (n : Nat) (pc : Word) : (k.retired n pc).g = k.g := rfl
@[simp] theorem Core.retired_status (k : Core) (n : Nat) (pc : Word) : (k.retired n pc).status = k.status := rfl
@[simp] theorem Core.retired_estat (k : Core) (n : Nat) (pc : Word) : (k.retired n pc).estat = k.estat := rfl
@[simp] theorem Core.retired_epc (k : Core) (n : Nat) (pc : Word) : (k.retired n pc).epc = k.epc := rfl
@[simp] theorem Core.retired_ecause (k : Core) (n : Nat) (pc : Word) : (k.retired n pc).ecause = k.ecause := rfl
@[simp] theorem Core.retired_faddr (k : Core) (n : Nat) (pc : Word) : (k.retired n pc).faddr = k.faddr := rfl
@[simp] theorem Core.retired_vbase (k : Core) (n : Nat) (pc : Word) : (k.retired n pc).vbase = k.vbase := rfl
@[simp] theorem Core.retired_tsbp (k : Core) (n : Nat) (pc : Word) : (k.retired n pc).tsbp = k.tsbp := rfl
@[simp] theorem Core.retired_rpc (k : Core) (n : Nat) (pc : Word) : (k.retired n pc).rpc = k.rpc := rfl
@[simp] theorem Core.retired_acc (k : Core) (n : Nat) (pc : Word) : (k.retired n pc).acc = k.acc := rfl
@[simp] theorem Core.retired_accst (k : Core) (n : Nat) (pc : Word) : (k.retired n pc).accst = k.accst := rfl
@[simp] theorem Core.retired_icountHi (k : Core) (n : Nat) (pc : Word) : (k.retired n pc).icountHi = k.icountHi := rfl
@[simp] theorem Core.retired_rep (k : Core) (n : Nat) (pc : Word) : (k.retired n pc).rep = k.rep := rfl
@[simp] theorem Core.retired_dc (k : Core) (n : Nat) (pc : Word) : (k.retired n pc).dc = k.dc := rfl
@[simp] theorem Core.retired_ic (k : Core) (n : Nat) (pc : Word) : (k.retired n pc).ic = k.ic := rfl
@[simp] theorem Core.retired_ev (k : Core) (n : Nat) (pc : Word) : (k.retired n pc).ev = k.ev := rfl
@[simp] theorem Core.retired_hand (k : Core) (n : Nat) (pc : Word) : (k.retired n pc).hand = k.hand := rfl
@[simp] theorem Core.retired_pc (k : Core) (n : Nat) (pc : Word) : (k.retired n pc).pc = pc := rfl

@[simp] theorem Core.put_begun (k : Core) (r : Nat) (v : Word) : k.begun.put r v = (k.put r v).begun := by
  unfold Core.put Core.putOf Core.begun Core.sb; split <;> rfl
@[simp] theorem Core.reg_begun (k : Core) (r : Nat) : k.begun.reg r = k.reg r := rfl


theorem Core.reg_zero (k : Core) : k.reg 0 = 0 := rfl

theorem Core.put_zero (k : Core) (v : Word) : k.put 0 v = k := rfl

/-- General registers of one bank have keys of their own (R418). -/
theorem gKey_inj {sb : Bool} {r q : Nat} (hr : r < 32) (hq : q < 32) (h : gKey sb r = gKey sb q) : r = q := by
  unfold gKey at h
  cases sb <;> simp at h
  · exact h
  · split at h <;> split at h <;> omega

@[simp] theorem Core.put_sb (k : Core) (r : Nat) (v : Word) : (k.put r v).sb = k.sb := by
  simp [Core.sb]

theorem Core.reg_put (k : Core) {r q : Nat} (v : Word) (hr : r < 32) (hq : q < 32) :
    (k.put r v).reg q = if q = 0 then 0 else if q = r then v else k.reg q := by
  unfold Core.reg Core.gOf
  by_cases h0 : q = 0
  · simp [h0]
  · simp only [h0, if_false, Core.put_sb]
    unfold Core.put Core.putOf
    by_cases hr0 : r = 0
    · simp [hr0, h0]
    · simp only [hr0, if_false, Tab.get_set]
      by_cases hqr : q = r
      · simp [hqr]
      · have : gKey k.sb q ≠ gKey k.sb r := fun e => hqr (gKey_inj hq hr e)
        simp [hqr, this]

end Sys2Proof.Machine
end

