-- ==== Sys2Proof/Laws/Exec.lean ====
section
/-! SUPPORT. What running an instruction does on a core that is ready for it: the fetch leaves the state as it is, and
the instruction's own operation decides. -/
namespace Sys2Proof.Machine

/-- What follows an instruction's operation on a core at `pc`. -/
def Res.after (r : Res) (c : Nat) (pc : Word) : Except Hold Device :=
  match r with
  | .done d l => .ok ((d.retire c 1 (pc + 4)).afterInstr c l)
  | .moved d => .ok ((d.onCore c (fun k => k.retired 1 k.pc)).afterInstr c [])
  | .pre d => .ok (d.onCore c (fun k => { k with pc := pc + 4 }))
  | .trap d t => d.takeExc c t true pc pc
  | .sys d code => (d.retire c 1 (pc + 4)).takeExc c ⟨8, 0, code⟩ true (pc + 4) pc
  | .wait h => .error h

@[simp] theorem Device.memTrusted_setCore (d : Device) (c : Nat) (k : Core) (a : Nat) :
    (d.setCore c k).memTrusted a = d.memTrusted a := rfl
@[simp] theorem Device.memIdle_setCore (d : Device) (c : Nat) (k : Core) (a : Nat) :
    (d.setCore c k).memIdle a = d.memIdle a := rfl

@[simp] theorem Device.begun_coreC (d : Device) (c : Nat) : (d.begun c).coreC c = (d.coreC c).begun := by
  simp [Device.begun]

theorem Device.executing_facts {d : Device} {c : Nat} (h : d.executing c = true) :
    (d.coreC c).st = .running ∧ (d.coreC c).halted = false ∧ (d.coreC c).hand = none ∧ (d.coreC c).rep = none ∧
    (d.coreC c).stepping = false ∧ (d.coreC c).haltReq = false ∧ d.bpAt c = none ∧ d.irqDue c = false ∧
    d.engOf c = .idle ∧ d.fetched c = true := by
  simp only [Device.executing, Bool.and_eq_true, decide_eq_true_eq, Bool.not_eq_true', Option.isNone_iff_eq_none] at h
  obtain ⟨⟨⟨⟨⟨⟨⟨⟨⟨h1, h2⟩, h3⟩, h4⟩, h5⟩, h6⟩, h7⟩, h8⟩, h9⟩, h10⟩ := h
  exact ⟨h1, h2, h3, h4, h5, h6, h7, h8, h9, h10⟩

/-- A fetched instruction's fetch changes nothing. -/
theorem Device.fetchPc_begun {d : Device} {c : Nat} (h : d.fetched c = true) :
    Device.fetchPc c (d.begun c) = (d.begun c, .ok) := by
  simp only [Device.fetched, Bool.and_eq_true, Bool.not_eq_true', beq_iff_eq, Option.isSome_iff_exists] at h
  obtain ⟨⟨⟨⟨⟨h1, h2⟩, h3⟩, h4⟩, x, h5⟩, h6⟩ := h
  have e1 : (d.begun c).memIdle (d.coreC c).pc.toNat = false := h3
  have e2 : (d.begun c).memTrusted (d.coreC c).pc.toNat = (d.coreC c).trusted := h4
  have e3 := of_decide_eq_true h6
  simp [Device.fetchPc, Device.fetchAt, h1, e1, e2, Core.trusted, Device.fetchLine, h2, h5, e3, Core.begun]

/-- Where no access is under way there is none to end. -/
theorem Device.engDone_idle {d : Device} {i : Nat} (h : d.engOf i = .idle) : d.engDone i = d := by
  simp [Device.engDone, h]

theorem Device.engBegin_idle {d : Device} {i : Nat} (h : d.engOf i = .idle) : d.engBegin i = d := by
  simp [Device.engBegin, h]

/-- What an instruction of a core whose engine makes no access leaves. -/
theorem Device.ran_ok {d x : Device} {c : Nat} (h : x.engOf c = .idle) : d.ran c (.ok x) = x := by
  simp [Device.ran, Device.engDone_idle h]

/-- An instruction on a core that is ready for it does what its operation answers. -/
theorem Device.coreInstr_ready {d : Device} {c : Nat} {g : BitVec 4} (cls : Cls) (i : Instr) (body : Device → Res)
    (h : d.ready c g = true) :
    d.coreInstr c g cls i body = d.ran c ((body (d.begun c)).after c (d.coreC c).pc) := by
  simp only [Device.ready, Bool.and_eq_true, decide_eq_true_eq] at h
  obtain ⟨⟨he, hg⟩, hok⟩ := h
  obtain ⟨h1, h2, h3, h4, h5, h6, h7, hi, he, h8⟩ := Device.executing_facts he
  have hl : (d.coreC c).live = true := by simp [Core.live, h1, h2, h3]
  have hf := Device.fetchPc_begun h8
  have hk : (d.coreC c).begun.guardOk g = true := hok
  have hp : (d.begun c).plain c (Device.fetchPc c) g false body = (body (d.begun c)).after c (d.coreC c).pc := by
    unfold Device.plain
    simp only [Device.begun_coreC, hf, hk, hg, Bool.false_or, Bool.not_true, decide_false, Bool.false_eq_true, if_false]
    cases body (d.begun c) <;> rfl
  unfold Device.coreInstr Device.runInstr
  simp only [hl, h7, h4, hi, Bool.not_true, Bool.false_eq_true, if_false]
  have hd : (d.setCore c (d.coreC c).begun).engBegin c = d.begun c :=
    Device.engBegin_idle (d := d.begun c) he
  rw [hd]
  exact congrArg (d.ran c) hp

/-- Nothing halts a core that is not under STEP and has no HALT pending after an instruction that makes no access. -/
theorem Device.afterInstr_nil {d : Device} {c : Nat} (hs : (d.coreC c).stepping = false)
    (hq : (d.coreC c).haltReq = false) : d.afterInstr c [] = d := by
  have hw : d.wpHit c [] = none := by simp [Device.wpHit, List.range, List.range.loop]
  unfold Device.afterInstr
  simp [hs, hq, hw]

/-- After an instruction whose accesses no watchpoint sees. -/
theorem Device.afterInstr_quiet {d : Device} {c : Nat} (l : List Access) (hs : (d.coreC c).stepping = false)
    (hq : (d.coreC c).haltReq = false) (hw : d.wpHit c l = none) : d.afterInstr c l = d := by
  unfold Device.afterInstr
  simp [hs, hq, hw]

/-- Without an enabled watchpoint none is hit. -/
theorem Device.wpHit_unwatched {d : Device} {c : Nat} (l : List Access) (h : d.unwatched c = true) :
    d.wpHit c l = none := by
  simp only [Device.unwatched, Bool.and_eq_true, Bool.not_eq_true'] at h
  simp [Device.wpHit, List.range, List.range.loop, Device.wpMatch, h.1, h.2]

@[simp] theorem Device.onCore_setCore {d : Device} {c : Nat} {k : Core} (f : Core → Core) (h : k.st = .running) :
    (d.setCore c k).onCore c f = d.setCore c (f k) := by
  simp [Device.onCore, h]

/-- An instruction whose operation only changes core registers goes on to the next address with nothing else
changed. -/
theorem Device.coreInstr_regs {d : Device} {c : Nat} {g : BitVec 4} (cls : Cls) (i : Instr) (f : Core → Core)
    (h : d.ready c g = true) (hf : ∀ k, (f k).st = k.st ∧ (f k).stepping = k.stepping ∧ (f k).haltReq = k.haltReq) :
    d.coreInstr c g cls i (fun d => .done (d.onCore c f) []) =
      d.setCore c ((f (d.coreC c).begun).retired 1 ((d.coreC c).pc + 4)) := by
  rw [Device.coreInstr_ready cls i _ h]
  simp only [Device.ready, Bool.and_eq_true] at h
  obtain ⟨h1, -, -, -, h5, h6, -, -, h9, -⟩ := Device.executing_facts h.1.1
  have h1' : (d.coreC c).begun.st = .running := h1
  obtain ⟨e1, e2, e3⟩ := hf (d.coreC c).begun
  have hb : (d.begun c).onCore c f = d.setCore c (f (d.coreC c).begun) :=
    Device.onCore_setCore f h1'
  have hr : (d.setCore c (f (d.coreC c).begun)).retire c 1 ((d.coreC c).pc + 4) =
      d.setCore c ((f (d.coreC c).begun).retired 1 ((d.coreC c).pc + 4)) := by
    unfold Device.retire
    rw [Device.onCore_setCore _ (by rw [e1, h1'])]
  have he : (d.setCore c ((f (d.coreC c).begun).retired 1 ((d.coreC c).pc + 4))).engOf c = .idle := h9
  simp only [Res.after, hb, hr]
  rw [Device.afterInstr_nil, Device.ran_ok he]
  · simp only [Device.coreC_setCore, Core.retired]; exact e2.trans h5
  · simp only [Device.coreC_setCore, Core.retired]; exact e3.trans h6

/-- An ALU instruction writes its destination and goes on. -/
theorem Device.coreInstr_alu {d : Device} {c : Nat} {g : BitVec 4} (cls : Cls) (i : Instr) (dst : Fin 32)
    (f : Core → Word) (h : d.ready c g = true) (hf : f (d.coreC c).begun = f (d.coreC c)) :
    d.coreInstr c g cls i (aluBody c dst f) = d.setCore c ((d.coreC c).put dst.val (f (d.coreC c))).stepped := by
  have := Device.coreInstr_regs cls i (fun k => k.put dst.val (f k)) h (by intro k; simp)
  refine this.trans ?_
  simp [hf, Core.stepped]

/-! ### Commands that come in a tick of their own -/

/-- A tick that does not lie ahead is reached with nothing done. -/
theorem Device.passTo_here {d : Device} {t : Nat} (h : t ≤ d.nowN) : d.passTo t = d := by
  unfold Device.passTo
  split
  · exact Device.advTo_here h
  · rfl

/-- A command that has no tick changes nothing. -/
theorem Device.passWhen_none {d : Device} {at' : Device → Option Nat} {f : Device → Device} (h : at' d = none) :
    d.passWhen at' f = d := by
  simp only [Device.passWhen, h]

/-- A command whose tick `t` still is its tick when it is reached acts on what has passed by then. -/
theorem Device.passWhen_comes {d : Device} {at' : Device → Option Nat} {f : Device → Device} {t x : Nat} (h : at' d = some t)
    (h' : at' (d.passTo t) = some x) (hx : x ≤ (d.passTo t).nowN ∨ x = t) : d.passWhen at' f = f (d.passTo t) := by
  simp only [Device.passWhen, h, h', Option.any_some]
  rw [if_pos (by simpa using hx)]

/-- In its own tick a command acts at once. -/
theorem Device.passWhen_here {d : Device} {at' : Device → Option Nat} {f : Device → Device} {t : Nat} (h : at' d = some t)
    (ht : t ≤ d.nowN) : d.passWhen at' f = f d := by
  have e := Device.passTo_here ht
  have := Device.passWhen_comes (f := f) h (by rw [e]; exact h) (Or.inr rfl)
  rwa [e] at this

end Sys2Proof.Machine
end

