-- ==== Sys2Proof/Laws/Sound.lean ====
section
/-! SUPPORT. What soundness of the device means part by part, and how it passes through the shapes in which the operations
are written: record updates, conditionals, optional answers, pairs, folds. -/
namespace Sys2Proof.Machine


/-- Every device an optional answer holds is sound. -/
structure OptSound (x : Option Device) : Prop where
  mem : ∀ e, x = some e → e.sound

/-- Every device an optional answer holds beside its data is sound. -/
structure OptPairSound {α : Type} (x : Option (Device × α)) : Prop where
  mem : ∀ e, x = some e → e.1.sound

/-- The memory is canonical. -/
def MemSound (m : Mem) : Prop := Tab.ok byte0 m.cells = true

/-- The list of bytes is canonical. -/
def CellsSound (c : List Host.Cell) : Prop := Tab.ok byte0 c = true

/-- No channel of the table drives both its outputs high (R274, R281). -/
def PwmSound (p : Tab PwmCh) : Prop := p.all (fun e => !(e.2.outH && e.2.outL)) = true

/-- A channel does not drive both its outputs high (R274, R281). -/
def ChSound (c : PwmCh) : Prop := (!(c.outH && c.outL)) = true


/-- What is left after a deletion was there before. -/
theorem Tab.mem_del {α : Type} {t : Tab α} {k : Nat} {e : Nat × α} (h : e ∈ t.del k) : e ∈ t := by
  induction t with
  | nil => exact h
  | cons x t ih =>
    obtain ⟨j, v⟩ := x
    unfold Tab.del at h
    split at h
    · exact List.mem_cons_of_mem _ (ih h)
    · rcases List.mem_cons.1 h with rfl | h
      · exact List.mem_cons_self
      · exact List.mem_cons_of_mem _ (ih h)

/-- An entry after an insertion is the new one or was there before. -/
theorem Tab.mem_ins {α : Type} {t : Tab α} {k : Nat} {v : α} {e : Nat × α} (h : e ∈ t.ins k v) : e = (k, v) ∨ e ∈ t := by
  induction t with
  | nil => simpa [Tab.ins] using h
  | cons x t ih =>
    obtain ⟨j, w⟩ := x
    unfold Tab.ins at h
    split at h
    · exact List.mem_cons.1 h
    · rcases List.mem_cons.1 h with rfl | h
      · exact Or.inr List.mem_cons_self
      · exact (ih h).imp id (List.mem_cons_of_mem _)

/-- The device of an operation that completes is sound. -/
structure ExceptSound (x : Except Hold Device) : Prop where
  mem : ∀ e, x = .ok e → e.sound

theorem exceptSound_ok {d : Device} (h : d.sound) : ExceptSound (.ok d) := ⟨fun _ e => by cases e; exact h⟩

theorem exceptSound_error {w : Hold} : ExceptSound (.error w) := ⟨fun _ e => by cases e⟩

theorem exceptSound_mem {x : Except Hold Device} {d : Device} (e : x = .ok d) (h : ExceptSound x) : d.sound := h.mem d e

theorem exceptSound_ite {c : Prop} [Decidable c] {a b : Except Hold Device} (ha : c → ExceptSound a) (hb : ¬c → ExceptSound b) : ExceptSound (if c then a else b) := by
  split <;> simp_all

theorem optSound_none : OptSound none := ⟨fun _ h => by cases h⟩

theorem optSound_some {d : Device} (h : d.sound) : OptSound (some d) := ⟨fun _ e => by cases e; exact h⟩

theorem optSound_mem {x : Option Device} {d : Device} (e : x = some d) (h : OptSound x) : d.sound := h.mem d e

theorem optPairSound_none {α : Type} : OptPairSound (none : Option (Device × α)) := ⟨fun _ h => by cases h⟩

theorem optPairSound_some {α : Type} {p : Device × α} (h : p.1.sound) : OptPairSound (some p) := ⟨fun _ e => by cases e; exact h⟩

theorem optPairSound_mem {α : Type} {x : Option (Device × α)} {p : Device × α} (e : x = some p) (h : OptPairSound x) : p.1.sound := h.mem p e

theorem optPairSound_mem' {α : Type} {x : Option (Device × α)} {d : Device} {a : α} (e : x = some (d, a)) (h : OptPairSound x) : d.sound := h.mem _ e

theorem pairSound_mem {α : Type} {x : Device × α} {d : Device} {a : α} (e : x = (d, a)) (h : x.1.sound) : d.sound := by subst e; exact h

theorem memSound_of {d : Device} (h : d.sound) : MemSound d.mem := h.1

theorem cellsSound_of {d : Device} (h : d.sound) : CellsSound d.mem.cells := h.1

theorem pwmSound_of {d : Device} (h : d.sound) : PwmSound d.pwm := h.2

theorem memSound_mk {a0 a1 a2 a3 a4 a5 a6 a7 a8 a9 b0 b1 b2 b3 b4 b5 b6 b7 b8 b9 b10 b11 b12 b13} :
    MemSound (Mem.mk a0 a1 a2 a3 a4 a5 a6 a7 a8 a9 b0 b1 b2 b3 b4 b5 b6 b7 b8 b9 b10 b11 b12 b13) ↔ CellsSound a0 := Iff.rfl

/-- Soundness looks at memory and at the PWM channels alone. -/
theorem sound_mk {a0 a1 a2 a3 a4 a5 a6 p a8 a9 b0 b1 m b3 b4 b5 b6 b7 b8 b9 c0 c1 c2 c3 c4 c5 c6 c7 c8 c9 d0 d1 d2 d3 d4} :
    (Device.mk a0 a1 a2 a3 a4 a5 a6 p a8 a9 b0 b1 m b3 b4 b5 b6 b7 b8 b9 c0 c1 c2 c3 c4 c5 c6 c7 c8 c9 d0 d1 d2 d3 d4).sound ↔
    (MemSound m ∧ PwmSound p) := Iff.rfl

/-- Writing a byte keeps the canonical form. -/
theorem cellsSound_set {c : List Host.Cell} {k : Nat} {v : Byte} (h : CellsSound c) : CellsSound (Tab.set byte0 c k v) := Tab.ok_set _ _ _ _ h

theorem cellsSound_keep {c : List Host.Cell} {p : Nat → Bool} (h : CellsSound c) : CellsSound (Tab.keep p c) := Tab.ok_keep _ _ _ h

theorem cellsSound_nil : CellsSound [] := rfl

theorem pwmSound_nil : PwmSound [] := rfl

/-- Storing a sound channel keeps the table sound. -/
theorem pwmSound_set {p : Tab PwmCh} {k : Nat} {c : PwmCh} (h : PwmSound p) (hc : ChSound c) : PwmSound (Tab.set (fun _ => {}) p k c) := by
  have hd : PwmSound (Tab.del p k) := by
    unfold PwmSound at *; rw [List.all_eq_true] at *
    intro e he; exact h e (Tab.mem_del he)
  unfold Tab.set; split
  · exact hd
  · unfold PwmSound at *; rw [List.all_eq_true] at *
    intro e he
    rcases Tab.mem_ins he with rfl | he
    · exact hc
    · exact hd e he

theorem chSound_get {p : Tab PwmCh} {k : Nat} (h : PwmSound p) : ChSound (Tab.get (fun _ => {}) p k) := by
  induction p with
  | nil => rfl
  | cons e t ih =>
    obtain ⟨j, v⟩ := e
    simp only [PwmSound, List.all_cons, Bool.and_eq_true] at h
    unfold Tab.get; split
    · exact h.1
    · exact ih h.2

/-- A fold of operations that keep soundness keeps it. -/
theorem sound_foldl {β : Type} {l : List β} {f : Device → β → Device} {d : Device}
    (hf : ∀ e b, e.sound → (f e b).sound) (h : d.sound) : (l.foldl f d).sound := by
  induction l generalizing d with
  | nil => exact h
  | cons b l ih => exact ih (hf d b h)

theorem pairSound_foldl {α β : Type} {l : List β} {f : Device × α → β → Device × α} {p : Device × α}
    (hf : ∀ e b, e.1.sound → (f e b).1.sound) (h : p.1.sound) : (l.foldl f p).1.sound := by
  induction l generalizing p with
  | nil => exact h
  | cons b l ih => exact ih (hf p b h)

theorem sound_getD {x : Option Device} {d : Device} (hx : OptSound x) (h : d.sound) : (x.getD d).sound := by
  cases x with
  | none => exact h
  | some e => exact hx.mem e rfl

theorem sound_forEach {β : Type} {l : List β} {f : β → Device → Device} {d : Device}
    (hf : ∀ b e, e.sound → (f b e).sound) (h : d.sound) : (forEach l f d).sound := sound_foldl (fun e b => hf b e) h

theorem pairSound_forEach {α β : Type} {l : List β} {f : β → Device × α → Device × α} {d : Device × α}
    (hf : ∀ b e, e.1.sound → (f b e).1.sound) (h : d.1.sound) : (forEach l f d).1.sound := pairSound_foldl (fun e b => hf b e) h

theorem sound_ite {c : Prop} [Decidable c] {a b : Device} (ha : c → a.sound) (hb : ¬c → b.sound) : (if c then a else b).sound := by
  split <;> simp_all

theorem optSound_ite {c : Prop} [Decidable c] {a b : Option Device} (ha : c → OptSound a) (hb : ¬c → OptSound b) : OptSound (if c then a else b) := by
  split <;> simp_all

theorem pairSound_ite {α : Type} {c : Prop} [Decidable c] {a b : Device × α} (ha : c → a.1.sound) (hb : ¬c → b.1.sound) :
    (if c then a else b).1.sound := by split <;> simp_all

theorem optPairSound_ite {α : Type} {c : Prop} [Decidable c] {a b : Option (Device × α)} (ha : c → OptPairSound a) (hb : ¬c → OptPairSound b) :
    OptPairSound (if c then a else b) := by split <;> simp_all

theorem chSound_ite {c : Prop} [Decidable c] {a b : PwmCh} (ha : c → ChSound a) (hb : ¬c → ChSound b) : ChSound (if c then a else b) := by
  split <;> simp_all

theorem pwmSound_foldl {β : Type} {l : List β} {f : Tab PwmCh → β → Tab PwmCh} {t : Tab PwmCh}
    (hf : ∀ e b, PwmSound e → PwmSound (f e b)) (h : PwmSound t) : PwmSound (l.foldl f t) := by
  induction l generalizing t with
  | nil => exact h
  | cons b l ih => exact ih (hf t b h)

theorem optPairSound_map {α β : Type} {x : Option (Device × α)} {f : Device × α → Device × β}
    (hf : ∀ p, p.1.sound → (f p).1.sound) (h : OptPairSound x) : OptPairSound (x.map f) := by
  cases x with
  | none => exact optPairSound_none
  | some p => exact optPairSound_some (hf p (h.mem p rfl))

theorem optSound_map {x : Option Device} {f : Device → Device} (hf : ∀ e, e.sound → (f e).sound) (h : OptSound x) : OptSound (x.map f) := by
  cases x with
  | none => exact optSound_none
  | some p => exact optSound_some (hf p (h.mem p rfl))

/-- The next state of an outcome, where there is one, is sound. -/
def OutSound (o : Host.Outcome State Fault Refusal) : Prop := ∀ s, o = .next s → s.dev.sound

/-- A meaning that keeps soundness answers a sound next state. -/
theorem run_sound {s : State} {f : Device → Device} (hf : ∀ d, d.sound → (f d).sound) (h : s.dev.sound) : OutSound (s.run f) := by
  intro t e; cases e; exact hf _ h

/-- The device in the answer of an instruction's own operation is sound. -/
structure ResSound (r : Res) : Prop where
  ok : match r with
    | .done d _ => d.sound
    | .moved d => d.sound
    | .pre d => d.sound
    | .trap d _ => d.sound
    | .sys d _ => d.sound
    | .wait _ => True

theorem resSound_done {d : Device} {l : List Access} (h : d.sound) : ResSound (.done d l) := ⟨h⟩

theorem resSound_moved {d : Device} (h : d.sound) : ResSound (.moved d) := ⟨h⟩

theorem resSound_pre {d : Device} (h : d.sound) : ResSound (.pre d) := ⟨h⟩

theorem resSound_trap {d : Device} {t : Trap} (h : d.sound) : ResSound (.trap d t) := ⟨h⟩

theorem resSound_sys {d : Device} {c : Word} (h : d.sound) : ResSound (.sys d c) := ⟨h⟩

theorem resSound_wait {h : Hold} : ResSound (.wait h) := ⟨trivial⟩

theorem resSound_done_mem {r : Res} {d : Device} {l : List Access} (e : r = .done d l) (h : ResSound r) : d.sound := by subst e; exact h.ok

theorem resSound_moved_mem {r : Res} {d : Device} (e : r = .moved d) (h : ResSound r) : d.sound := by subst e; exact h.ok

theorem resSound_pre_mem {r : Res} {d : Device} (e : r = .pre d) (h : ResSound r) : d.sound := by subst e; exact h.ok

theorem resSound_trap_mem {r : Res} {d : Device} {t : Trap} (e : r = .trap d t) (h : ResSound r) : d.sound := by subst e; exact h.ok

theorem resSound_sys_mem {r : Res} {d : Device} {t : Word} (e : r = .sys d t) (h : ResSound r) : d.sound := by subst e; exact h.ok

theorem resSound_ite {c : Prop} [Decidable c] {a b : Res} (ha : c → ResSound a) (hb : ¬c → ResSound b) : ResSound (if c then a else b) := by
  split <;> simp_all

/-- Two output levels are not both high. -/
def HLSound (a b : Bool) : Prop := (!(a && b)) = true

theorem chSound_mk {a0 a1 a2 a3 a4 a5 a6 a7 a8 a9 b0 b1 b2 b3 b4 b5 b6 b7 b8 b9 c0 c1 c2 c3 c4 c5 c6 c7 c8 oh ol d0 d1 d2 d3} :
    ChSound (PwmCh.mk a0 a1 a2 a3 a4 a5 a6 a7 a8 a9 b0 b1 b2 b3 b4 b5 b6 b7 b8 b9 c0 c1 c2 c3 c4 c5 c6 c7 c8 oh ol d0 d1 d2 d3) ↔
    HLSound oh ol := Iff.rfl

theorem hlSound_of {c : PwmCh} (h : ChSound c) : HLSound c.outH c.outL := h

theorem chPairSound_mem {x : PwmCh × Bool} {c : PwmCh} {a : Bool} (e : x = (c, a)) (h : ChSound x.1) : ChSound c := by subst e; exact h

theorem hlSound_low {b : Bool} : HLSound false b := rfl

/-- The device is sound but for the outputs of channel `n`. -/
def SoundBut (n : Nat) (d : Device) : Prop := MemSound d.mem ∧ ∀ e ∈ d.pwm, e.1 = n ∨ ChSound e.2

theorem soundBut_of {n : Nat} {d : Device} (h : d.sound) : SoundBut n d := by
  refine ⟨h.1, fun e he => Or.inr ?_⟩
  have h2 := h.2
  simp only [Device.noShootThrough, List.all_eq_true] at h2
  exact h2 e he

theorem soundBut_same {n : Nat} {d e : Device} (hm : e.mem = d.mem) (hp : e.pwm = d.pwm) (h : SoundBut n d) : SoundBut n e := by
  unfold SoundBut; rw [hm, hp]; exact h

theorem Tab.mem_del_ne {α : Type} {t : Tab α} {k : Nat} {e : Nat × α} (h : e ∈ t.del k) : e.1 ≠ k := by
  induction t with
  | nil => cases h
  | cons x t ih =>
    obtain ⟨j, v⟩ := x
    unfold Tab.del at h
    split at h
    · exact ih h
    · rcases List.mem_cons.1 h with rfl | h
      · assumption
      · exact ih h

theorem soundBut_setPwm {n : Nat} {d : Device} {c : PwmCh} (h : SoundBut n d) : SoundBut n (d.setPwm n c) := by
  refine ⟨h.1, fun e he => ?_⟩
  simp only [Device.setPwm, Tab.set] at he
  split at he
  · exact h.2 e (Tab.mem_del he)
  · rcases Tab.mem_ins he with rfl | he
    · exact Or.inl rfl
    · exact h.2 e (Tab.mem_del he)

/-- Storing a sound channel `n` makes the device sound. -/
theorem sound_setPwm_of_but {n : Nat} {d : Device} {c : PwmCh} (hc : ChSound c) (h : SoundBut n d) : (d.setPwm n c).sound := by
  refine ⟨h.1, ?_⟩
  simp only [Device.noShootThrough, List.all_eq_true, Device.setPwm, Tab.set]
  have old : ∀ e ∈ Tab.del d.pwm n, ChSound e.2 := fun e he =>
    (h.2 e (Tab.mem_del he)).resolve_left (Tab.mem_del_ne he)
  intro e he
  split at he
  · exact old e he
  · rcases Tab.mem_ins he with rfl | he
    · exact hc
    · exact old e he

theorem soundBut_pwmFlag {n : Nat} {d : Device} {b : Word} (h : SoundBut n d) : SoundBut n (d.pwmFlag n b) := by
  refine soundBut_same ?_ ?_ (soundBut_setPwm (c := { d.pwmC n with stat := (d.pwmC n).stat ||| b }) h) <;>
    simp only [Device.pwmFlag, Device.flagUp, Device.raiseIf, Device.raiseIrq] <;> repeat' split
  all_goals rfl

theorem chSound_drive {c : PwmCh} {s : Nat} : ChSound (c.drive s) := by
  unfold PwmCh.drive; simp only [chSound_mk, HLSound]; cases c.href <;> simp

theorem chSound_edgeTo {c : PwmCh} {pos : Nat} : ChSound (c.edgeTo pos) := by
  unfold PwmCh.edgeTo; simp only [chSound_mk]; exact chSound_drive

theorem soundBut_ite {n : Nat} {c : Prop} [Decidable c] {a b : Device} (ha : SoundBut n a) (hb : SoundBut n b) :
    SoundBut n (if c then a else b) := by split <;> assumption
end Sys2Proof.Machine
end

