-- ==== Sys2Proof/Laws/SoundUnits.lean ====
section
/-! SUPPORT. Each operation of the shared operations, the memories and the control units keeps
the device sound: memory stays canonical and no channel drives both its outputs high. -/
namespace Sys2Proof.Machine

/-! ### Machine/Ops -/

theorem Device.setEng_sound {d : Device} {i : Nat} {e : Eng} (h0 : d.sound) : (Device.setEng d i e).sound := by
  unfold Device.setEng
  with_reducible repeat' first
    | assumption | simp only [sound_mk] | apply And.intro | apply memSound_of | apply pwmSound_of

theorem Device.countWait_sound {d : Device} {i : Nat} (h0 : d.sound) : (Device.countWait d i).sound := by
  unfold Device.countWait
  with_reducible repeat' first
    | assumption | simp only [sound_mk] | apply And.intro | apply memSound_of | apply pwmSound_of

theorem Device.engWait_sound {d : Device} {i : Nat} (h0 : d.sound) : (Device.engWait d i).sound := by
  unfold Device.engWait
  with_reducible repeat' first
    | assumption | intro _ | apply Device.setEng_sound | apply Device.countWait_sound | apply sound_ite

theorem Device.postReq_sound {d : Device} {who : Who} {a : Nat} {v : Word} {r : Req} (h0 : d.sound) : (Device.postReq
    d who a v r).sound := by
  unfold Device.postReq
  with_reducible repeat' first
    | assumption | dsimp only | simp only [sound_mk] | intro _ | apply Device.countWait_sound | apply sound_ite
    | apply And.intro | apply memSound_of | apply pwmSound_of

theorem Device.workLater_sound {d : Device} {i : Nat} {w : LinkWork} (h0 : d.sound) : (Device.workLater d i w).sound
    := by
  unfold Device.workLater
  with_reducible repeat' first
    | assumption | dsimp only | simp only [sound_mk] | apply Device.countWait_sound | apply And.intro
    | apply memSound_of | apply pwmSound_of

theorem Device.addJoin_sound {d : Device} {w : Wait} (h0 : d.sound) : (Device.addJoin d w).sound := by
  unfold Device.addJoin
  with_reducible repeat' first
    | assumption | simp only [sound_mk] | intro _ | apply sound_ite | apply And.intro | apply memSound_of | apply pwmSound_of

theorem Device.engBegin_sound {d : Device} {i : Nat} (h0 : d.sound) : (Device.engBegin d i).sound := by
  unfold Device.engBegin
  with_reducible repeat' first
    | assumption | apply Device.setEng_sound | split

theorem Device.engDone_sound {d : Device} {i : Nat} (h0 : d.sound) : (Device.engDone d i).sound := by
  unfold Device.engDone
  with_reducible repeat' first
    | assumption | intro _ | apply Device.setEng_sound | apply sound_ite

theorem Device.setLv_sound {d : Device} {a : Nat} {v : Word} (h0 : d.sound) : (Device.setLv d a v).sound := by
  unfold Device.setLv
  with_reducible repeat' first
    | assumption | simp only [sound_mk] | apply And.intro | apply memSound_of | apply pwmSound_of

theorem Device.setSns_sound {d : Device} {n : Nat} {c : SnsCh} (h0 : d.sound) : (Device.setSns d n c).sound := by
  unfold Device.setSns
  with_reducible repeat' first
    | assumption | simp only [sound_mk] | apply And.intro | apply memSound_of | apply pwmSound_of

theorem Device.setTrk_sound {d : Device} {n : Nat} {c : TrkCh} (h0 : d.sound) : (Device.setTrk d n c).sound := by
  unfold Device.setTrk
  with_reducible repeat' first
    | assumption | simp only [sound_mk] | apply And.intro | apply memSound_of | apply pwmSound_of

theorem Device.pwmC_sound {d : Device} {n : Nat} (h0 : d.sound) : ChSound (Device.pwmC d n) := by
  unfold Device.pwmC
  with_reducible repeat' first
    | assumption | apply chSound_get | apply pwmSound_of

theorem Device.setPwm_sound {d : Device} {n : Nat} {c : PwmCh} (h0 : d.sound) (h2 : ChSound c) :
    (Device.setPwm d n c).sound := by
  unfold Device.setPwm
  with_reducible repeat' first
    | assumption | simp only [sound_mk] | apply And.intro | apply pwmSound_set | apply memSound_of | apply pwmSound_of

theorem Device.setSlot_sound {d : Device} {n : Nat} {c : LeSlot} (h0 : d.sound) : (Device.setSlot d n c).sound := by
  unfold Device.setSlot
  with_reducible repeat' first
    | assumption | dsimp only | simp only [sound_mk] | apply And.intro | apply memSound_of | apply pwmSound_of

theorem Device.setCore_sound {d : Device} {c : Nat} {k : Core} (h0 : d.sound) : (Device.setCore d c k).sound := by
  unfold Device.setCore
  with_reducible repeat' first
    | assumption | simp only [sound_mk] | apply And.intro | apply memSound_of | apply pwmSound_of

theorem Device.setQue_sound {d : Device} {q : Nat} {k : Que} (h0 : d.sound) : (Device.setQue d q k).sound := by
  unfold Device.setQue
  with_reducible repeat' first
    | assumption | simp only [sound_mk] | apply And.intro | apply memSound_of | apply pwmSound_of

theorem Device.setLock_sound {d : Device} {n : Nat} {k : Lock} (h0 : d.sound) : (Device.setLock d n k).sound := by
  unfold Device.setLock
  with_reducible repeat' first
    | assumption | dsimp only | simp only [sound_mk] | apply And.intro | apply memSound_of | apply pwmSound_of

theorem Device.setBuf_sound {d : Device} {i : Nat} {b : Buf} (h0 : d.sound) : (Device.setBuf d i b).sound := by
  unfold Device.setBuf
  with_reducible repeat' first
    | assumption | dsimp only | simp only [sound_mk] | apply And.intro | apply memSound_of | apply pwmSound_of

theorem Device.setDma_sound {d : Device} {k : Nat} {c : DmaCh} (h0 : d.sound) : (Device.setDma d k c).sound := by
  unfold Device.setDma
  with_reducible repeat' first
    | assumption | simp only [sound_mk] | apply And.intro | apply memSound_of | apply pwmSound_of

theorem Device.setCmp_sound {d : Device} {k : Nat} {c : Cmp} (h0 : d.sound) : (Device.setCmp d k c).sound := by
  unfold Device.setCmp
  with_reducible repeat' first
    | assumption | dsimp only | simp only [sound_mk] | apply And.intro | apply memSound_of | apply pwmSound_of

theorem Device.setDbgC_sound {d : Device} {c : Nat} {k : DbgCore} (h0 : d.sound) : (Device.setDbgC d c k).sound := by
  unfold Device.setDbgC
  with_reducible repeat' first
    | assumption | dsimp only | simp only [sound_mk] | apply And.intro | apply memSound_of | apply pwmSound_of

theorem Device.advTo_sound {d : Device} {t : Nat} (h0 : d.sound) : (Device.advTo d t).sound := by
  unfold Device.advTo
  with_reducible repeat' first
    | assumption | dsimp only | simp only [sound_mk] | intro _ | apply sound_ite | apply And.intro | apply memSound_of
    | apply pwmSound_of

theorem Device.setHdue_sound {d : Device} {k : Nat} {t : Option Nat} (h0 : d.sound) :
    (Device.setHdue d k t).sound := by
  unfold Device.setHdue
  with_reducible repeat' first
    | assumption | dsimp only | simp only [sound_mk] | apply And.intro | apply memSound_of | apply pwmSound_of

theorem Device.yardsSkip_sound {d : Device} (h0 : d.sound) : (Device.yardsSkip d).sound := by
  unfold Device.yardsSkip
  with_reducible repeat' first
    | assumption | dsimp only | intro _ | apply Device.setHdue_sound | apply sound_ite | apply sound_foldl | split

theorem Device.note_sound {d : Device} {f : Same → Same} (h0 : d.sound) : (Device.note d f).sound := by
  unfold Device.note
  with_reducible repeat' first
    | assumption | simp only [sound_mk] | apply And.intro | apply memSound_of | apply pwmSound_of

theorem Device.fresh_sound {d : Device} (h0 : d.sound) : (Device.fresh d).sound := by
  unfold Device.fresh
  with_reducible repeat' first
    | assumption | simp only [sound_mk] | apply And.intro | apply memSound_of | apply pwmSound_of

theorem Device.answer_sound {d : Device} {who : Who} {v : Word} {r : Resp} (h0 : d.sound) :
    (Device.answer d who v r).sound := by
  unfold Device.answer
  with_reducible repeat' first
    | assumption | simp only [sound_mk] | apply And.intro | apply memSound_of | apply pwmSound_of

theorem Device.setPend_sound {d : Device} {s : Nat} {b : Bool} (h0 : d.sound) : (Device.setPend d s b).sound := by
  unfold Device.setPend
  with_reducible repeat' first
    | assumption | dsimp only | simp only [sound_mk] | apply And.intro | apply memSound_of | apply pwmSound_of

theorem Device.unwithdraw_sound {d : Device} {s : Nat} (h0 : d.sound) : (Device.unwithdraw d s).sound := by
  unfold Device.unwithdraw
  with_reducible repeat' first
    | assumption | dsimp only | simp only [sound_mk] | apply And.intro | apply memSound_of | apply pwmSound_of

theorem Device.raiseIrq_sound {d : Device} {s : Nat} (h0 : d.sound) : (Device.raiseIrq d s).sound := by
  unfold Device.raiseIrq
  with_reducible repeat' first
    | assumption | intro _ | apply Device.unwithdraw_sound | apply Device.setPend_sound | apply Device.note_sound
    | apply sound_ite

theorem Device.raiseIf_sound {d : Device} {b : Bool} {s : Nat} (h0 : d.sound) : (Device.raiseIf d b s).sound := by
  unfold Device.raiseIf
  with_reducible repeat' first
    | assumption | intro _ | apply Device.raiseIrq_sound | apply sound_ite

theorem Device.hwFlag_sound {d : Device} {a : Nat} {b : Word} (h0 : d.sound) : (Device.hwFlag d a b).sound := by
  unfold Device.hwFlag
  with_reducible repeat' first
    | assumption | apply Device.note_sound

theorem Device.flagUp_sound {d : Device} {a : Nat} {old : Word} {b : Word} {ien : Word} {s : Nat} (h0 : d.sound) :
    (Device.flagUp d a old b ien s).sound := by
  unfold Device.flagUp
  with_reducible repeat' first
    | assumption | apply Device.raiseIf_sound | apply Device.hwFlag_sound

theorem Device.flagKept_sound {d : Device} {a : Nat} {v : Word} {ien : Word} {s : Nat} (h0 : d.sound) :
    (Device.flagKept d a v ien s).sound := by
  unfold Device.flagKept
  with_reducible repeat' first
    | assumption | apply Device.raiseIf_sound

theorem Device.lockViolation_sound {d : Device} {who : Who} {a : Nat} {kind : Nat} (h0 : d.sound) :
    (Device.lockViolation d who a kind).sound := by
  unfold Device.lockViolation
  with_reducible repeat' first
    | assumption | dsimp only | simp only [sound_mk] | apply Device.raiseIrq_sound | apply And.intro | apply memSound_of
    | apply pwmSound_of

theorem Device.domViolation_sound {d : Device} {who : Who} {a : Nat} {sub : Nat} {wr : Bool} (h0 : d.sound) :
    (Device.domViolation d who a sub wr).sound := by
  unfold Device.domViolation
  with_reducible repeat' first
    | assumption | dsimp only | simp only [sound_mk] | apply And.intro | apply memSound_of | apply pwmSound_of

theorem Device.mixedWrite_sound {d : Device} {who : Who} {a : Nat} {rwl : Word} {rw : Word} {v : Word}
    (h0 : d.sound) : (Device.mixedWrite d who a rwl rw v).sound := by
  unfold Device.mixedWrite
  with_reducible repeat' first
    | assumption | dsimp only | simp only [sound_mk] | intro _ | apply Device.setLv_sound
    | apply Device.lockViolation_sound | apply sound_ite | apply And.intro | apply memSound_of | apply pwmSound_of

theorem Device.warmLag_sound {d : Device} {t : Nat} (h0 : d.sound) : (Device.warmLag d t).sound := by
  unfold Device.warmLag
  with_reducible repeat' first
    | assumption | dsimp only | simp only [sound_mk] | intro _ | apply sound_ite | apply And.intro | apply memSound_of
    | apply pwmSound_of

theorem Device.putSig_sound {d : Device} {r : Nat} {x : Nat} {t : RouteSig} (h0 : d.sound) :
    (Device.putSig d r x t).sound := by
  unfold Device.putSig
  with_reducible repeat' first
    | assumption | dsimp only | simp only [sound_mk] | apply And.intro | apply memSound_of | apply pwmSound_of

theorem Device.evalRoute_sound {d : Device} {lv1 : Nat → Bool} {lv2 : Nat → Bool} {r : Nat} (h0 : d.sound) :
    (Device.evalRoute d lv1 lv2 r).sound := by
  unfold Device.evalRoute
  with_reducible repeat' first
    | assumption | dsimp only | apply Device.putSig_sound

theorem Device.raiseEvents_sound {d : Device} {ps : List Nat} (h0 : d.sound) : (Device.raiseEvents d ps).sound := by
  unfold Device.raiseEvents
  with_reducible repeat' first
    | assumption | dsimp only | intro _ | apply Device.note_sound | apply Device.evalRoute_sound | apply sound_ite
    | apply sound_foldl

theorem Device.raiseEvent_sound {d : Device} {s : Nat} (h0 : d.sound) : (Device.raiseEvent d s).sound := by
  unfold Device.raiseEvent
  with_reducible repeat' first
    | assumption | apply Device.raiseEvents_sound

theorem Device.levelsChanged_sound {d : Device} (h0 : d.sound) : (Device.levelsChanged d).sound := by
  unfold Device.levelsChanged
  with_reducible repeat' first
    | assumption | apply Device.raiseEvents_sound

theorem Device.recDue_sound {d : Device} {x : LedgerDue} (h0 : d.sound) : (Device.recDue d x).sound := by
  unfold Device.recDue
  with_reducible repeat' first
    | assumption | dsimp only | simp only [sound_mk] | intro _ | apply Device.note_sound | apply sound_ite
    | apply And.intro | apply memSound_of | apply pwmSound_of

/-! ### Machine/Intc -/

theorem Device.withdrawCheck_sound {d : Device} {p : Nat → Nat} (h0 : d.sound) : (Device.withdrawCheck d p).sound := by
  unfold Device.withdrawCheck
  with_reducible repeat' first
    | assumption | dsimp only | simp only [sound_mk] | intro _ | apply Device.note_sound | apply sound_ite
    | apply And.intro | apply memSound_of | apply pwmSound_of | apply sound_foldl | split

theorem Device.unpend_sound {d : Device} {s : Nat} (h0 : d.sound) : (Device.unpend d s).sound := by
  unfold Device.unpend
  with_reducible repeat' first
    | assumption | dsimp only | simp only [sound_mk] | intro _ | apply Device.withdrawCheck_sound
    | apply Device.setPend_sound | apply Device.note_sound | apply And.intro | apply memSound_of | apply pwmSound_of

theorem Device.flagDown_sound {d : Device} {a : Nat} {b : Word} {s : Nat} {keep : Bool} (h0 : d.sound) :
    (Device.flagDown d a b s keep).sound := by
  unfold Device.flagDown
  with_reducible repeat' first
    | assumption | dsimp only | simp only [sound_mk] | intro _ | apply Device.unpend_sound | apply Device.note_sound
    | apply sound_ite | apply And.intro | apply memSound_of | apply pwmSound_of

theorem Device.reserve_sound {d : Device} {c : Nat} {s : Nat} (h0 : d.sound) : (Device.reserve d c s).sound := by
  unfold Device.reserve
  with_reducible repeat' first
    | assumption | dsimp only | simp only [sound_mk] | apply And.intro | apply memSound_of | apply pwmSound_of

theorem Device.claim_sound {d : Device} {c : Nat} (h0 : d.sound) : (Device.claim d c).1.sound := by
  unfold Device.claim
  with_reducible repeat' first
    | assumption | dsimp only | simp only [sound_mk] | intro _ | apply Device.setPend_sound | apply sound_ite
    | apply And.intro | apply memSound_of | apply pwmSound_of | split

theorem Device.complete_sound {d : Device} {c : Nat} {id : Nat} (h0 : d.sound) : (Device.complete d c id).sound := by
  unfold Device.complete
  with_reducible repeat' first
    | assumption | dsimp only | simp only [sound_mk] | intro _ | apply sound_ite | apply And.intro | apply memSound_of
    | apply pwmSound_of | split

theorem Device.scfgWrite_sound {d : Device} {s : Nat} {v : Word} (h0 : d.sound) : (Device.scfgWrite d s v).sound := by
  unfold Device.scfgWrite
  with_reducible repeat' first
    | assumption | dsimp only | intro _ | apply Device.setLv_sound | apply Device.setPend_sound
    | apply Device.withdrawCheck_sound | apply sound_ite

theorem Device.levelInputs_sound {d : Device} {l : BitVec 8} (h0 : d.sound) : (Device.levelInputs d l).sound := by
  unfold Device.levelInputs
  with_reducible repeat' first
    | assumption | dsimp only | simp only [sound_mk] | apply Device.withdrawCheck_sound | apply And.intro
    | apply memSound_of | apply pwmSound_of

theorem Device.intcCoreReset_sound {d : Device} {c : Nat} (h0 : d.sound) : (Device.intcCoreReset d c).sound := by
  unfold Device.intcCoreReset
  with_reducible repeat' first
    | assumption | dsimp only | simp only [sound_mk] | intro _ | apply Device.setPend_sound | apply sound_ite
    | apply And.intro | apply memSound_of | apply pwmSound_of | apply sound_foldl | split

theorem Device.intcWrite_sound {d : Device} {o : Nat} {v : Word} (h0 : d.sound) : OptSound (Device.intcWrite d o v) := by
  unfold Device.intcWrite
  with_reducible repeat' first
    | assumption | dsimp only | simp only [sound_mk] | intro _ | apply Device.scfgWrite_sound | apply optSound_ite
    | apply optSound_none | apply optSound_some | apply And.intro | apply memSound_of | apply pwmSound_of

/-! ### Machine/Pwm -/

theorem PwmCh.setHref_sound {c : PwmCh} {s : Nat} {b : Bool} (h0 : ChSound c) : ChSound (PwmCh.setHref c s b) := by
  unfold PwmCh.setHref
  with_reducible repeat' first
    | assumption | simp only [chSound_mk] | intro _ | apply chSound_ite | apply hlSound_of

theorem PwmCh.drive_sound {c : PwmCh} {s : Nat} : ChSound (c.drive s) := chSound_drive

theorem PwmCh.edgeTo_sound {c : PwmCh} {pos : Nat} : ChSound (c.edgeTo pos) := chSound_edgeTo

theorem Device.pwmFlag_sound {d : Device} {n : Nat} {bits : Word} (h0 : d.sound) :
    (Device.pwmFlag d n bits).sound := by
  unfold Device.pwmFlag
  with_reducible repeat' first
    | assumption | dsimp only | simp only [chSound_mk] | apply Device.pwmC_sound | apply Device.flagUp_sound
    | apply Device.setPwm_sound | apply hlSound_of

theorem Device.toTrip_but {d : Device} {n : Nat} (h : SoundBut n d) : (d.toTrip n).sound := by
  have hl : HLSound (decide ((tripLevels (d.tripCfg n)).1 = 1)) (decide ((tripLevels (d.tripCfg n)).2 = 1)) := by
    unfold tripLevels HLSound; split
    · rfl
    · simp_all [Decidable.imp_iff_not_or]
  have h1 : ∀ c : PwmCh, HLSound c.outH c.outL → (d.setPwm n c).sound := fun c hc => sound_setPwm_of_but hc h
  unfold Device.toTrip
  apply sound_ite <;> intro _
  · exact Device.pwmFlag_sound (h1 _ hl)
  · exact h1 _ hl

theorem Device.toTrip_sound {d : Device} {n : Nat} (h0 : d.sound) : (d.toTrip n).sound := Device.toTrip_but (soundBut_of h0)

theorem Device.latch_but {d : Device} {n k : Nat} (h : SoundBut n d) : (d.latch n k).sound := by
  unfold Device.latch
  apply Device.raiseIf_sound; apply Device.hwFlag_sound; apply Device.toTrip_but
  exact soundBut_setPwm h

theorem Device.latch_sound {d : Device} {n k : Nat} (h0 : d.sound) : (d.latch n k).sound := Device.latch_but (soundBut_of h0)

theorem Device.hardNow_but {d : Device} {n : Nat} (h : SoundBut n d) :
    d.hardNow n = d ∨ (d.hardNow n).sound := by
  unfold Device.hardNow
  split
  · split
    · exact Or.inr (Device.latch_but (soundBut_setPwm h))
    · exact Or.inl rfl
  · exact Or.inl rfl

theorem Device.hardNow_sound {d : Device} {n : Nat} (h0 : d.sound) : (d.hardNow n).sound := by
  rcases Device.hardNow_but (n := n) (soundBut_of h0) with e | e
  · rw [e]; exact h0
  · exact e

theorem Device.setTrip_sound {d : Device} {n : Nat} {k : Nat} (h0 : d.sound) : (Device.setTrip d n k).sound := by
  unfold Device.setTrip
  with_reducible repeat' first
    | assumption | apply Device.latch_sound | apply Device.hardNow_sound

theorem Device.hardTrip_sound {d : Device} {n : Nat} (h0 : d.sound) : (Device.hardTrip d n).sound := by
  unfold Device.hardTrip
  with_reducible repeat' first
    | assumption | dsimp only | simp only [chSound_mk] | intro _ | apply Device.pwmC_sound | apply Device.setPwm_sound
    | apply sound_ite | apply hlSound_of

theorem Device.tripAll_sound {d : Device} (h0 : d.sound) : (Device.tripAll d).sound := by
  unfold Device.tripAll
  with_reducible repeat' first
    | assumption | intro _ | apply Device.toTrip_sound | apply sound_ite | apply sound_foldl

theorem Device.softTrip_sound {d : Device} {n : Nat} (h0 : d.sound) : (Device.softTrip d n).sound := by
  unfold Device.softTrip
  with_reducible repeat' first
    | assumption | intro _ | apply Device.note_sound | apply Device.setTrip_sound | apply sound_ite

theorem Device.loopTrip_sound {d : Device} {chs : List Nat} (h0 : d.sound) : (Device.loopTrip d chs).sound := by
  unfold Device.loopTrip
  with_reducible repeat' first
    | assumption | intro _ | apply Device.setTrip_sound | apply sound_ite | apply sound_foldl

theorem Device.safeTrips_sound {d : Device} (h0 : d.sound) : (Device.safeTrips d).sound := by
  unfold Device.safeTrips
  with_reducible repeat' first
    | assumption | intro _ | apply Device.setTrip_sound | apply sound_ite | apply sound_foldl

theorem Device.latchPwm_sound {d : Device} {n : Nat} (h0 : d.sound) : (Device.latchPwm d n).sound := by
  unfold Device.latchPwm
  with_reducible repeat' first
    | assumption | dsimp only | simp only [chSound_mk] | apply Device.setPwm_sound | apply Device.pwmC_sound
    | apply hlSound_of

theorem Device.boundaryClears_sound {d : Device} {n : Nat} (h0 : d.sound) : (Device.boundaryClears d n).sound := by
  unfold Device.boundaryClears
  with_reducible repeat' first
    | assumption | dsimp only | simp only [chSound_mk] | apply Device.pwmC_sound | apply Device.setPwm_sound
    | apply hlSound_of

theorem PwmCh.putDuty_sound {c : PwmCh} {now : Nat} {v : Word} (h0 : ChSound c) : ChSound (PwmCh.putDuty c now v) := by
  unfold PwmCh.putDuty
  with_reducible repeat' first
    | assumption | simp only [chSound_mk] | apply hlSound_of

theorem PwmCh.take_sound {c : PwmCh} {v : Word} (h0 : ChSound c) : ChSound (PwmCh.take c v) := by
  unfold PwmCh.take
  with_reducible repeat' first
    | assumption | simp only [chSound_mk] | apply hlSound_of

theorem PwmCh.transfer_sound {c : PwmCh} (h0 : ChSound c) : ChSound (PwmCh.transfer c).1 := by
  unfold PwmCh.transfer
  with_reducible repeat' first
    | assumption | dsimp only | simp only [chSound_mk] | apply PwmCh.take_sound | apply hlSound_of | split

theorem Device.shapePeriod_sound {d : Device} {n : Nat} {resume : Bool} (h0 : d.sound) :
    (Device.shapePeriod d n resume).sound := by
  unfold Device.shapePeriod
  with_reducible repeat' first
    | assumption | dsimp only | simp only [chSound_mk] | apply Device.pwmC_sound | apply Device.pwmFlag_sound
    | apply Device.setPwm_sound | apply hlSound_of

theorem Device.showPeriod_sound {d : Device} {n : Nat} (h0 : d.sound) : (Device.showPeriod d n).sound := sound_setPwm_of_but chSound_edgeTo (soundBut_of h0)

theorem Device.boundaryDo_but {d : Device} {n : Nat} {old : PwmCh} (h : SoundBut n d) : (d.boundaryDo n old).sound := by
  unfold Device.boundaryDo
  have h1 : SoundBut n (d.latchPwm n) := soundBut_setPwm h
  apply sound_ite <;> intro _
  · exact Device.toTrip_but (soundBut_setPwm h1)
  · apply Device.raiseEvent_sound; apply Device.pwmFlag_sound
    apply sound_ite <;> intro _
    · unfold Device.showPeriod
      apply sound_setPwm_of_but chSound_edgeTo
      unfold Device.shapePeriod
      exact soundBut_pwmFlag (soundBut_setPwm (soundBut_setPwm (soundBut_setPwm (soundBut_setPwm h1))))
    · apply Device.toTrip_but
      unfold Device.shapePeriod
      exact soundBut_pwmFlag (soundBut_setPwm (soundBut_setPwm (soundBut_setPwm (soundBut_setPwm h1))))

theorem Device.boundaryDo_sound {d : Device} {n : Nat} {old : PwmCh} (h0 : d.sound) : (d.boundaryDo n old).sound := Device.boundaryDo_but (soundBut_of h0)

theorem Device.boundary_but {d : Device} {n : Nat} (h : SoundBut n d) : (d.boundary n).sound := by
  have h1 : SoundBut n (d.hardNow n) := by
    rcases Device.hardNow_but h with e | e
    · rw [e]; exact h
    · exact soundBut_of e
  unfold Device.boundary
  apply Device.note_sound
  exact Device.boundaryDo_but h1

theorem Device.boundary_sound {d : Device} {n : Nat} (h0 : d.sound) : (d.boundary n).sound := Device.boundary_but (soundBut_of h0)

theorem PwmCh.unbound_sound {c : PwmCh} {c0 : PwmCh} {c1 : PwmCh} {now : Nat} (h0 : ChSound c) (h1 : ChSound c0)
    (h2 : ChSound c1) : ChSound (PwmCh.unbound c c0 c1 now) := by
  unfold PwmCh.unbound
  with_reducible repeat' first
    | assumption | dsimp only | simp only [chSound_mk] | apply hlSound_of

theorem Device.boundFlags_sound {d : Device} {x : BoundNote} (h0 : d.sound) : (Device.boundFlags d x).sound := by
  unfold Device.boundFlags
  with_reducible repeat' first
    | assumption | dsimp only | apply Device.flagDown_sound | apply Device.pwmC_sound

theorem Device.boundaryAgain_sound {d : Device} {x : BoundNote} {moved : Bool} (h0 : d.sound) :
    (d.boundaryAgain x moved).sound := by
  unfold Device.boundaryAgain
  have h1 := soundBut_setPwm (n := x.n) (c := (d.pwmC x.n).unbound x.c0 x.c1 d.nowN)
    (soundBut_of (n := x.n) (Device.boundFlags_sound (x := x) h0))
  apply sound_ite <;> intro _
  · apply Device.boundary_but
    split
    · exact soundBut_of (Device.toTrip_but h1)
    · exact h1
  · exact h0

theorem Device.hardStays_sound {d : Device} {x : BoundNote} (h0 : d.sound) : (Device.hardStays d x).sound := by
  unfold Device.hardStays
  with_reducible repeat' first
    | assumption | dsimp only | simp only [sound_mk] | simp only [chSound_mk] | intro _ | apply Device.setPwm_sound
    | apply Device.pwmC_sound | apply sound_ite | apply And.intro | apply memSound_of | apply pwmSound_of
    | apply hlSound_of

theorem Device.pwmEnable_sound {d : Device} {n : Nat} (h0 : d.sound) : (Device.pwmEnable d n).sound := by
  unfold Device.pwmEnable
  with_reducible repeat' first
    | assumption | dsimp only | simp only [chSound_mk] | intro _ | apply Device.pwmC_sound | apply Device.latchPwm_sound
    | apply Device.setPwm_sound | apply sound_ite | apply hlSound_of

theorem Device.pwmDisable_sound {d : Device} {n : Nat} (h0 : d.sound) : (Device.pwmDisable d n).sound := by
  unfold Device.pwmDisable
  with_reducible repeat' first
    | assumption | dsimp only | simp only [chSound_mk] | intro _ | apply Device.pwmC_sound | apply Device.toTrip_sound
    | apply Device.setPwm_sound | apply sound_ite | apply hlSound_of

theorem PwmCh.load_sound {c : PwmCh} {now : Nat} (h0 : ChSound c) : ChSound (PwmCh.load c now) := by
  unfold PwmCh.load
  with_reducible repeat' first
    | assumption | simp only [chSound_mk] | apply hlSound_of

theorem Device.loadAll_sound {d : Device} {g : Nat} (h0 : d.sound) : (Device.loadAll d g).sound := by
  unfold Device.loadAll
  with_reducible repeat' first
    | assumption | dsimp only | intro _ | apply Device.pwmC_sound | apply Device.setPwm_sound | apply PwmCh.load_sound
    | apply Device.note_sound | apply sound_ite | apply sound_foldl

theorem Device.dutyWrite_sound {d : Device} {who : Who} {n : Nat} {v : Word} (h0 : d.sound) :
    (Device.dutyWrite d who n v).sound := by
  unfold Device.dutyWrite
  with_reducible repeat' first
    | assumption | intro _ | apply Device.setPwm_sound | apply PwmCh.putDuty_sound | apply Device.pwmC_sound
    | apply sound_ite

theorem Device.tripClear_sound {d : Device} {n : Nat} {v : Word} (h0 : d.sound) : (Device.tripClear d n v).sound := by
  unfold Device.tripClear
  with_reducible repeat' first
    | assumption | dsimp only | simp only [chSound_mk] | apply Device.hardNow_sound | apply Device.pwmC_sound
    | apply Device.raiseIf_sound | apply Device.setPwm_sound | apply hlSound_of

theorem Device.pwmWrite_sound {d : Device} {who : Who} {o : Nat} {v : Word} (h0 : d.sound) :
    OptSound (Device.pwmWrite d who o v) := by
  unfold Device.pwmWrite
  with_reducible repeat' first
    | assumption | dsimp only | simp only [chSound_mk] | intro _ | apply Device.pwmEnable_sound
    | apply Device.pwmDisable_sound | apply Device.loadAll_sound | apply Device.softTrip_sound
    | apply Device.mixedWrite_sound | apply Device.pwmC_sound | apply Device.dutyWrite_sound
    | apply Device.flagKept_sound | apply Device.setPwm_sound | apply Device.tripClear_sound | apply optSound_ite
    | apply optSound_none | apply optSound_some | apply hlSound_of | apply sound_forEach | split

/-! ### Machine/Mem -/

theorem Device.wrByte_sound {d : Device} {a : Nat} {b : Byte} (h0 : d.sound) : (Device.wrByte d a b).sound := by
  unfold Device.wrByte
  with_reducible repeat' first
    | assumption | dsimp only | simp only [sound_mk] | simp only [memSound_mk] | apply And.intro | apply cellsSound_set
    | apply cellsSound_of | apply pwmSound_of

theorem Device.wrDw_sound {d : Device} {a : Nat} {v : DWord} (h0 : d.sound) : (Device.wrDw d a v).sound := by
  unfold Device.wrDw
  with_reducible repeat' first
    | assumption | intro _ | apply Device.wrByte_sound | apply sound_foldl

theorem Device.setEcc_sound {d : Device} {a : Nat} {e : Ecc} (h0 : d.sound) : (Device.setEcc d a e).sound := by
  unfold Device.setEcc
  with_reducible repeat' first
    | assumption | dsimp only | simp only [sound_mk] | simp only [memSound_mk] | apply And.intro | apply cellsSound_of
    | apply pwmSound_of

theorem Device.countCe_sound {d : Device} {k : Nat} {a : Nat} (h0 : d.sound) : (Device.countCe d k a).sound := by
  unfold Device.countCe
  with_reducible repeat' first
    | assumption | dsimp only | simp only [sound_mk] | simp only [memSound_mk] | apply Device.raiseIf_sound
    | apply And.intro | apply cellsSound_of | apply pwmSound_of

theorem Device.countUe_sound {d : Device} {k : Nat} {a : Nat} {init : Nat} {src : Nat} (h0 : d.sound) :
    (Device.countUe d k a init src).sound := by
  unfold Device.countUe
  with_reducible repeat' first
    | assumption | dsimp only | simp only [sound_mk] | simp only [memSound_mk] | apply Device.raiseIrq_sound
    | apply And.intro | apply cellsSound_of | apply pwmSound_of

theorem Device.eccCheck_sound {d : Device} {a : Nat} {init : Nat} {src : Nat} (h0 : d.sound) :
    (Device.eccCheck d a init src).1.sound := by
  unfold Device.eccCheck
  with_reducible repeat' first
    | assumption | dsimp only | intro _ | apply Device.countCe_sound | apply Device.setEcc_sound
    | apply Device.countUe_sound | apply sound_ite | split

theorem Device.rmw_sound {d : Device} {a : Nat} {init : Nat} {src : Nat} {f : DWord → DWord} (h0 : d.sound) :
    (Device.rmw d a init src f).sound := by
  unfold Device.rmw
  with_reducible repeat' first
    | assumption | dsimp only | apply Device.eccCheck_sound | apply Device.setEcc_sound | apply Device.wrDw_sound

theorem Device.mergeFlushE_sound {d : Device} {m : Merge} (h0 : d.sound) : (Device.mergeFlushE d m).sound := by
  unfold Device.mergeFlushE
  with_reducible repeat' first
    | assumption | dsimp only | simp only [sound_mk] | simp only [memSound_mk] | intro _ | apply Device.setEcc_sound
    | apply Device.wrDw_sound | apply Device.rmw_sound | apply sound_ite | apply And.intro | apply cellsSound_of | apply pwmSound_of

theorem Device.mergeFlushAt_sound {d : Device} {a : Nat} (h0 : d.sound) : (Device.mergeFlushAt d a).sound := by
  unfold Device.mergeFlushAt
  with_reducible repeat' first
    | assumption | apply Device.mergeFlushE_sound | split

theorem Device.mergeFlushAll_sound {d : Device} (h0 : d.sound) : (Device.mergeFlushAll d).sound := by
  unfold Device.mergeFlushAll
  with_reducible repeat' first
    | assumption | intro _ | apply Device.mergeFlushE_sound | apply sound_foldl

theorem Device.mergeWrite_sound {d : Device} {a : Nat} {n : Nat} {v : Nat} (h0 : d.sound) :
    (Device.mergeWrite d a n v).sound := by
  unfold Device.mergeWrite
  with_reducible repeat' first
    | assumption | dsimp only | simp only [sound_mk] | simp only [memSound_mk] | intro _ | apply Device.mergeFlushE_sound
    | apply sound_ite | apply And.intro | apply cellsSound_of | apply pwmSound_of | split

theorem Device.physWrite_sound {d : Device} {init : Nat} {a : Nat} {n : Nat} {v : Nat} (h0 : d.sound) :
    (Device.physWrite d init a n v).sound := by
  unfold Device.physWrite
  with_reducible repeat' first
    | assumption | dsimp only | intro _ | apply Device.setEcc_sound | apply Device.wrDw_sound
    | apply Device.mergeFlushAt_sound | apply Device.mergeWrite_sound | apply Device.rmw_sound | apply sound_ite

theorem Device.physRead_sound {d : Device} {init : Nat} {a : Nat} (h0 : d.sound) :
    (Device.physRead d init a).1.sound := by
  unfold Device.physRead
  with_reducible repeat' first
    | assumption | dsimp only | apply Device.eccCheck_sound

theorem Device.setDline_sound {d : Device} {c : Nat} {l : Nat} {x : Option DLine} (h0 : d.sound) :
    (Device.setDline d c l x).sound := by
  unfold Device.setDline
  with_reducible repeat' first
    | assumption | dsimp only | apply Device.setCore_sound

theorem Device.lineWrite_sound {d : Device} {l : Nat} {w : BitVec 256} {bad : BitVec 4} (h0 : d.sound) :
    (Device.lineWrite d l w bad).sound := by
  unfold Device.lineWrite
  with_reducible repeat' first
    | assumption | dsimp only | intro _ | apply Device.physWrite_sound | apply Device.countUe_sound
    | apply Device.setEcc_sound | apply sound_ite | apply sound_foldl

theorem Device.lineFix_sound {d : Device} {l : Nat} {x : DLine} (h0 : d.sound) : (Device.lineFix d l x).sound := by
  unfold Device.lineFix
  with_reducible repeat' first
    | assumption | intro _ | apply Device.countCe_sound | apply sound_foldl

theorem Device.lineOut_sound {d : Device} {l : Nat} {x : DLine} (h0 : d.sound) : (Device.lineOut d l x).sound := by
  unfold Device.lineOut
  with_reducible repeat' first
    | assumption | apply Device.lineWrite_sound | apply Device.lineFix_sound

theorem Device.evictDone_sound {d : Device} {e : Evict} (h0 : d.sound) : (Device.evictDone d e).sound := by
  unfold Device.evictDone
  with_reducible repeat' first
    | assumption | apply Device.lineWrite_sound | split

theorem Device.evictAck_sound {d : Device} {c : Nat} (h0 : d.sound) : (Device.evictAck d c).sound := by
  unfold Device.evictAck
  with_reducible repeat' first
    | assumption | dsimp only | apply Device.evictDone_sound | apply Device.setCore_sound | split

theorem Device.snoopEv_sound {d : Device} {l : Nat} (h0 : d.sound) : (Device.snoopEv d l).sound := by
  unfold Device.snoopEv
  with_reducible repeat' first
    | assumption | dsimp only | intro _ | apply Device.evictDone_sound | apply Device.setCore_sound | apply sound_foldl
    | split

theorem Device.shareLine_sound {d : Device} {l : Nat} {me : Option Nat} (h0 : d.sound) :
    (Device.shareLine d l me).sound := by
  unfold Device.shareLine
  with_reducible repeat' first
    | assumption | dsimp only | intro _ | apply Device.lineOut_sound | apply Device.setDline_sound
    | apply Device.snoopEv_sound | apply sound_ite | apply sound_foldl | split

theorem Device.killLine_sound {d : Device} {l : Nat} {me : Option Nat} (h0 : d.sound) :
    (Device.killLine d l me).sound := by
  unfold Device.killLine
  with_reducible repeat' first
    | assumption | intro _ | apply Device.setDline_sound | apply Device.lineOut_sound | apply Device.snoopEv_sound
    | apply sound_ite | apply sound_foldl | split

theorem Device.evict_sound {d : Device} {c : Nat} {v : Nat} (h0 : d.sound) : (Device.evict d c v).sound := by
  unfold Device.evict
  with_reducible repeat' first
    | assumption | dsimp only | intro _ | apply Device.setDline_sound | apply Device.lineFix_sound
    | apply Device.evictAck_sound | apply Device.setCore_sound | apply sound_ite | split

theorem Device.allocLine_sound {d : Device} {c : Nat} {l : Nat} {x : DLine} (h0 : d.sound) :
    (Device.allocLine d c l x).sound := by
  unfold Device.allocLine
  with_reducible repeat' first
    | assumption | dsimp only | intro _ | apply Device.fresh_sound | apply Device.evict_sound
    | apply Device.setDline_sound | apply sound_ite

theorem Device.physLine_sound {d : Device} {init : Nat} {l : Nat} (h0 : d.sound) :
    (Device.physLine d init l).1.sound := by
  unfold Device.physLine
  with_reducible repeat' first
    | assumption | dsimp only | intro _ | apply Device.physRead_sound | apply pairSound_foldl

theorem Device.fillLine_sound {d : Device} {c : Nat} {l : Nat} (h0 : d.sound) : (Device.fillLine d c l).1.sound := by
  unfold Device.fillLine
  with_reducible repeat' first
    | assumption | dsimp only | intro _ | apply Device.shareLine_sound | apply Device.physLine_sound
    | apply Device.allocLine_sound | apply sound_ite | apply pairSound_ite

theorem Device.cacheFix_sound {d : Device} {c : Nat} {l : Nat} {i : Nat} {x : DLine} (h0 : d.sound) :
    (Device.cacheFix d c l i x).1.sound := by
  unfold Device.cacheFix
  with_reducible repeat' first
    | assumption | dsimp only | intro _ | apply Device.countCe_sound | apply Device.setDline_sound | apply pairSound_ite

theorem Device.cacheLoad_sound {d : Device} {c : Nat} {a : Nat} {n : Nat} (h0 : d.sound) :
    (Device.cacheLoad d c a n).1.sound := by
  unfold Device.cacheLoad
  with_reducible repeat' first
    | assumption | dsimp only | intro _ | apply Device.fillLine_sound | apply Device.countUe_sound
    | apply Device.setDline_sound | apply Device.cacheFix_sound | apply pairSound_ite | refine pairSound_mem ‹_› ?_ | split

theorem Device.cacheStore_sound {d : Device} {c : Nat} {a : Nat} {n : Nat} {v : Nat} (h0 : d.sound) :
    (Device.cacheStore d c a n v).sound := by
  unfold Device.cacheStore
  with_reducible repeat' first
    | assumption | dsimp only | intro _ | apply Device.setDline_sound | apply Device.fillLine_sound
    | apply Device.killLine_sound | apply Device.physWrite_sound | apply Device.countUe_sound
    | apply Device.cacheFix_sound | apply sound_ite | refine pairSound_mem ‹_› ?_ | split

theorem Device.memGate_sound {d : Device} {who : Who} {trusted : Bool} {wr : Bool} {a : Nat} {n : Nat}
    (h0 : d.sound) : (Device.memGate d who trusted wr a n).1.sound := by
  unfold Device.memGate
  with_reducible repeat' first
    | assumption | dsimp only | intro _ | apply Device.domViolation_sound | apply pairSound_ite

theorem Device.memRead_sound {d : Device} {who : Who} {trusted : Bool} {a : Nat} {n : Nat} (h0 : d.sound) :
    (Device.memRead d who trusted a n).1.sound := by
  unfold Device.memRead
  with_reducible repeat' first
    | assumption | dsimp only | intro _ | apply Device.memGate_sound | apply Device.cacheLoad_sound
    | apply Device.shareLine_sound | apply Device.physRead_sound | apply sound_ite | apply pairSound_ite
    | refine pairSound_mem ‹_› ?_ | split

theorem Device.memWrite_sound {d : Device} {who : Who} {trusted : Bool} {a : Nat} {n : Nat} {v : Nat} (h0 : d.sound) :
    (Device.memWrite d who trusted a n v).1.sound := by
  unfold Device.memWrite
  with_reducible repeat' first
    | assumption | dsimp only | intro _ | apply Device.memGate_sound | apply Device.cacheStore_sound
    | apply Device.killLine_sound | apply Device.physWrite_sound | apply sound_ite | refine pairSound_mem ‹_› ?_ | split

theorem Device.fetchMiss_sound {d : Device} {c : Nat} {a : Nat} (h0 : d.sound) : (Device.fetchMiss d c a).1.sound := by
  unfold Device.fetchMiss
  with_reducible repeat' first
    | assumption | dsimp only | intro _ | apply Device.shareLine_sound | apply Device.physLine_sound
    | apply Device.setCore_sound | apply Device.fresh_sound | apply sound_ite | apply pairSound_ite

theorem Device.fetchLine_sound {d : Device} {c : Nat} {a : Nat} (h0 : d.sound) : (Device.fetchLine d c a).1.sound := by
  unfold Device.fetchLine
  with_reducible repeat' first
    | assumption | dsimp only | intro _ | apply Device.countCe_sound | apply Device.setCore_sound
    | apply Device.fetchMiss_sound | apply Device.countUe_sound | apply Device.physRead_sound | apply pairSound_ite | split

theorem Device.cleanLine_sound {d : Device} {c : Nat} {l : Nat} {inv : Bool} (h0 : d.sound) :
    (Device.cleanLine d c l inv).sound := by
  unfold Device.cleanLine
  with_reducible repeat' first
    | assumption | dsimp only | intro _ | apply Device.lineOut_sound | apply Device.setDline_sound | apply sound_ite
    | split

theorem Device.cleanAll_sound {d : Device} {c : Nat} {inv : Bool} (h0 : d.sound) :
    (Device.cleanAll d c inv).sound := by
  unfold Device.cleanAll
  with_reducible repeat' first
    | assumption | intro _ | apply Device.cleanLine_sound | apply sound_foldl

theorem Device.evictsOut_sound {d : Device} {c : Nat} (h0 : d.sound) : (Device.evictsOut d c).sound := by
  unfold Device.evictsOut
  with_reducible repeat' first
    | assumption | intro _ | apply Device.evictAck_sound | apply sound_foldl

theorem Device.cachesOut_sound {d : Device} {c : Nat} (h0 : d.sound) : (Device.cachesOut d c).sound := by
  unfold Device.cachesOut
  with_reducible repeat' first
    | assumption | dsimp only | apply Device.cleanAll_sound | apply Device.evictsOut_sound
    | apply Device.setCore_sound

theorem Device.cacheOp_sound {d : Device} {c : Nat} {v : Word} (h0 : d.sound) : (Device.cacheOp d c v).sound := by
  unfold Device.cacheOp
  with_reducible repeat' first
    | assumption | dsimp only | apply Device.setCore_sound | apply Device.cleanLine_sound
    | apply Device.cleanAll_sound | split

theorem Device.scrubSram_sound {d : Device} (h0 : d.sound) : (Device.scrubSram d).sound := by
  unfold Device.scrubSram
  with_reducible repeat' first
    | assumption | dsimp only | simp only [sound_mk] | simp only [memSound_mk] | intro _ | apply Device.mergeFlushAt_sound
    | apply Device.countCe_sound | apply Device.setEcc_sound | apply Device.countUe_sound | apply sound_ite
    | apply And.intro | apply cellsSound_of | apply pwmSound_of | split

theorem Device.scrubSramNow_sound {d : Device} (h0 : d.sound) : (Device.scrubSramNow d).sound := by
  unfold Device.scrubSramNow
  with_reducible repeat' first
    | assumption | dsimp only | simp only [sound_mk] | simp only [memSound_mk] | apply Device.scrubSram_sound
    | apply And.intro | apply cellsSound_of | apply pwmSound_of

theorem Device.scrubFlash_sound {d : Device} (h0 : d.sound) : (Device.scrubFlash d).sound := by
  unfold Device.scrubFlash
  with_reducible repeat' first
    | assumption | dsimp only | simp only [sound_mk] | simp only [memSound_mk] | intro _ | apply Device.countCe_sound
    | apply Device.countUe_sound | apply sound_ite | apply And.intro | apply cellsSound_of | apply pwmSound_of | split

theorem Device.scrubFlashNow_sound {d : Device} (h0 : d.sound) : (Device.scrubFlashNow d).sound := by
  unfold Device.scrubFlashNow
  with_reducible repeat' first
    | assumption | dsimp only | simp only [sound_mk] | simp only [memSound_mk] | apply Device.scrubFlash_sound
    | apply And.intro | apply cellsSound_of | apply pwmSound_of

theorem Device.scrubCtlWrite_sound {d : Device} {v : Word} (h0 : d.sound) : (Device.scrubCtlWrite d v).sound := by
  unfold Device.scrubCtlWrite
  with_reducible repeat' first
    | assumption | dsimp only | simp only [sound_mk] | simp only [memSound_mk] | apply Device.setLv_sound | apply And.intro
    | apply cellsSound_of | apply pwmSound_of

theorem Device.mergeFlushRegion_sound {d : Device} {r : Nat} (h0 : d.sound) : (Device.mergeFlushRegion d r).sound := by
  unfold Device.mergeFlushRegion
  with_reducible repeat' first
    | assumption | intro _ | apply Device.mergeFlushE_sound | apply sound_foldl

theorem Device.zeroRegion_sound {d : Device} {r : Nat} (h0 : d.sound) : (Device.zeroRegion d r).sound := by
  unfold Device.zeroRegion
  with_reducible repeat' first
    | assumption | dsimp only | simp only [sound_mk] | simp only [memSound_mk] | apply And.intro | apply cellsSound_keep
    | apply cellsSound_of | apply pwmSound_of

theorem Device.idleWrite_sound {d : Device} {v : Word} (h0 : d.sound) : (Device.idleWrite d v).sound := by
  unfold Device.idleWrite
  with_reducible repeat' first
    | assumption | dsimp only | simp only [sound_mk] | simp only [memSound_mk] | apply And.intro | apply cellsSound_of
    | apply pwmSound_of

theorem Device.bistWrite_sound {d : Device} {v : Word} (h0 : d.sound) : (Device.bistWrite d v).sound := by
  unfold Device.bistWrite
  with_reducible repeat' first
    | assumption | dsimp only | simp only [sound_mk] | simp only [memSound_mk] | intro _ | apply sound_ite | apply And.intro
    | apply cellsSound_of | apply pwmSound_of

theorem Device.mergeCtlWrite_sound {d : Device} {v : Word} (h0 : d.sound) : (Device.mergeCtlWrite d v).sound := by
  unfold Device.mergeCtlWrite
  with_reducible repeat' first
    | assumption | dsimp only | intro _ | apply Device.mergeFlushAll_sound | apply Device.setLv_sound | apply sound_ite

theorem Device.memRegWrite_sound {d : Device} {who : Who} {o : Nat} {v : Word} (h0 : d.sound) :
    OptSound (Device.memRegWrite d who o v) := by
  unfold Device.memRegWrite
  with_reducible repeat' first
    | assumption | dsimp only | simp only [sound_mk] | simp only [memSound_mk] | intro _ | apply Device.mergeCtlWrite_sound
    | apply Device.scrubCtlWrite_sound | apply Device.setLv_sound | apply Device.lockViolation_sound
    | apply Device.idleWrite_sound | apply Device.bistWrite_sound | apply sound_ite | apply optSound_ite | apply optSound_none
    | apply optSound_some | apply And.intro | apply memSound_of | apply cellsSound_of | apply pwmSound_of

/-! ### Machine/Le -/

theorem Device.leFlag_sound {d : Device} {n : Nat} {bits : Word} (h0 : d.sound) : (Device.leFlag d n bits).sound := by
  unfold Device.leFlag
  with_reducible repeat' first
    | assumption | dsimp only | apply Device.flagUp_sound | apply Device.setSlot_sound

theorem Device.noteTrig_sound {d : Device} {n : Nat} (h0 : d.sound) : (Device.noteTrig d n).sound := by
  unfold Device.noteTrig
  with_reducible repeat' first
    | assumption | intro _ | apply Device.note_sound | apply sound_ite

theorem Device.slotTrigger_sound {d : Device} {n : Nat} (h0 : d.sound) : (Device.slotTrigger d n).sound := by
  unfold Device.slotTrigger
  with_reducible repeat' first
    | assumption | dsimp only | intro _ | apply Device.noteTrig_sound | apply Device.setSlot_sound
    | apply Device.leFlag_sound | apply sound_ite | split

theorem Device.triggerBy_sound {d : Device} {kind : Nat} {src : Nat} (h0 : d.sound) :
    (Device.triggerBy d kind src).sound := by
  unfold Device.triggerBy
  with_reducible repeat' first
    | assumption | intro _ | apply Device.slotTrigger_sound | apply sound_ite | apply sound_foldl

theorem Device.routerTrigger_sound {d : Device} {n : Nat} (h0 : d.sound) : (Device.routerTrigger d n).sound := by
  unfold Device.routerTrigger
  with_reducible repeat' first
    | assumption | intro _ | apply Device.slotTrigger_sound | apply sound_ite

theorem Device.slotEnable_sound {d : Device} {n : Nat} (h0 : d.sound) : (Device.slotEnable d n).sound := by
  unfold Device.slotEnable
  with_reducible repeat' first
    | assumption | dsimp only | intro _ | apply Device.leFlag_sound | apply Device.setSlot_sound | apply sound_ite

theorem Device.slotWrite_sound {d : Device} {n : Nat} {ch : Nat} {pat : Nat} (h0 : d.sound) :
    (Device.slotWrite d n ch pat).sound := by
  unfold Device.slotWrite
  with_reducible repeat' first
    | assumption | intro _ | apply Device.setPwm_sound | apply PwmCh.putDuty_sound | apply Device.pwmC_sound
    | apply sound_ite

theorem Device.writeEntries_sound {d : Device} {n : Nat} {es : List (Nat × Nat × Nat)} {u : Nat → Int}
    (h0 : d.sound) : (Device.writeEntries d n es u).sound := by
  unfold Device.writeEntries
  with_reducible repeat' first
    | assumption | intro _ | apply Device.slotWrite_sound | apply sound_foldl

theorem Device.loseSync_sound {d : Device} {n : Nat} (h0 : d.sound) : (Device.loseSync d n).sound := by
  unfold Device.loseSync
  with_reducible repeat' first
    | assumption | dsimp only | simp only [sound_mk] | apply Device.setSlot_sound | apply And.intro
    | apply memSound_of | apply pwmSound_of

theorem Device.arenaSelect_sound {d : Device} {a : Nat} {wr : Bool} {m : Word} (h0 : d.sound) : (Device.arenaSelect d
    a wr m).sound := by
  unfold Device.arenaSelect
  with_reducible repeat' first
    | assumption | dsimp only | simp only [sound_mk] | intro _ | apply Device.loseSync_sound
    | apply Device.writeEntries_sound | apply Device.raiseEvent_sound | apply sound_ite | apply And.intro
    | apply memSound_of | apply pwmSound_of | apply sound_foldl | apply optPairSound_map | apply optSound_map | split

theorem Device.arenaLeft_sound {d : Device} {n : Nat} (h0 : d.sound) : (Device.arenaLeft d n).sound := by
  unfold Device.arenaLeft
  with_reducible repeat' first
    | assumption | dsimp only | simp only [sound_mk] | intro _ | apply Device.arenaSelect_sound
    | apply Device.setSlot_sound | apply sound_ite | apply And.intro | apply memSound_of | apply pwmSound_of | split

theorem Device.untrigger_sound {d : Device} {n : Nat} (h0 : d.sound) : (Device.untrigger d n).sound := by
  unfold Device.untrigger
  with_reducible repeat' first
    | assumption | dsimp only | simp only [sound_mk] | intro _ | apply Device.flagDown_sound | apply Device.note_sound
    | apply Device.setSlot_sound | apply sound_ite | apply And.intro | apply memSound_of | apply pwmSound_of | split

theorem Device.slotDisable_sound {d : Device} {n : Nat} (h0 : d.sound) : (Device.slotDisable d n).sound := by
  unfold Device.slotDisable
  with_reducible repeat' first
    | assumption | dsimp only | simp only [sound_mk] | intro _ | apply Device.untrigger_sound
    | apply Device.arenaLeft_sound | apply Device.setSlot_sound | apply sound_ite | apply And.intro
    | apply memSound_of | apply pwmSound_of | apply optPairSound_map | apply optSound_map

theorem Device.slotFault_sound {d : Device} {n : Nat} {code : Nat} {w : List Word} {trip : Bool} (h0 : d.sound) :
    (Device.slotFault d n code w trip).sound := by
  unfold Device.slotFault
  with_reducible repeat' first
    | assumption | dsimp only | simp only [sound_mk] | intro _ | apply Device.arenaLeft_sound
    | apply Device.slotWrite_sound | apply Device.leFlag_sound | apply Device.loopTrip_sound
    | apply Device.setSlot_sound | apply sound_ite | apply And.intro | apply memSound_of | apply pwmSound_of
    | apply sound_foldl | apply optPairSound_map | apply optSound_map

theorem Device.slotClearFault_sound {d : Device} {n : Nat} (h0 : d.sound) : (Device.slotClearFault d n).sound := by
  unfold Device.slotClearFault
  with_reducible repeat' first
    | assumption | dsimp only | apply Device.setSlot_sound | split

theorem Device.slotClearState_sound {d : Device} {n : Nat} (h0 : d.sound) : (Device.slotClearState d n).sound := by
  unfold Device.slotClearState
  with_reducible repeat' first
    | assumption | dsimp only | apply Device.setSlot_sound

theorem Device.ovrdWrite_sound {d : Device} {n : Nat} {b : Bool} (h0 : d.sound) : (Device.ovrdWrite d n b).sound := by
  unfold Device.ovrdWrite
  with_reducible repeat' first
    | assumption | dsimp only | simp only [chSound_mk] | intro _ | apply Device.setSlot_sound | apply Device.pwmC_sound
    | apply Device.setPwm_sound | apply sound_ite | apply hlSound_of | apply sound_foldl

theorem Device.slotCtlWrite_sound {d : Device} {n : Nat} {v : Word} (h0 : d.sound) :
    (Device.slotCtlWrite d n v).sound := by
  unfold Device.slotCtlWrite
  with_reducible repeat' first
    | assumption | dsimp only | intro _ | apply Device.ovrdWrite_sound | apply Device.slotEnable_sound
    | apply Device.slotDisable_sound | apply Device.slotClearFault_sound | apply Device.slotClearState_sound
    | apply sound_ite

theorem Device.leCheck_sound {d : Device} {k : Nat} (h0 : d.sound) : (Device.leCheck d k).1.sound := by
  unfold Device.leCheck
  with_reducible repeat' first
    | assumption | dsimp only | apply Device.countCe_sound | apply Device.setEcc_sound | apply Device.countUe_sound
    | split

theorem Device.leCheckAll_sound {d : Device} {l : List Nat} (h0 : d.sound) : (Device.leCheckAll d l).1.sound := by
  unfold Device.leCheckAll
  with_reducible repeat' first
    | assumption | dsimp only | intro _ | apply Device.leCheck_sound | apply pairSound_foldl

theorem Device.startEval_sound {d : Device} {n : Nat} {w : List Word} {pg : List Word} (h0 : d.sound) :
    (Device.startEval d n w pg).sound := by
  unfold Device.startEval
  with_reducible repeat' first
    | assumption | dsimp only | intro _ | apply Device.leFlag_sound | apply Device.setSlot_sound | apply sound_ite

theorem Device.startSlot_sound {d : Device} {n : Nat} {lane : Nat} (h0 : d.sound) :
    (Device.startSlot d n lane).sound := by
  unfold Device.startSlot
  with_reducible repeat' first
    | assumption | dsimp only | intro _ | apply Device.leCheckAll_sound | apply Device.setSlot_sound
    | apply Device.slotFault_sound | apply Device.startEval_sound | apply sound_ite

theorem Device.slotDone_sound {d : Device} {n : Nat} (h0 : d.sound) : (Device.slotDone d n).sound := by
  unfold Device.slotDone
  with_reducible repeat' first
    | assumption | dsimp only | intro _ | apply Device.raiseEvent_sound | apply Device.leFlag_sound
    | apply Device.setSlot_sound | apply Device.triggerBy_sound | apply sound_ite

theorem Device.slotComplete_sound {d : Device} {n : Nat} {x : LeRun} (h0 : d.sound) : (Device.slotComplete d n
    x).sound := by
  unfold Device.slotComplete
  with_reducible repeat' first
    | assumption | dsimp only | simp only [sound_mk] | intro _ | apply Device.slotDone_sound
    | apply Device.slotFault_sound | apply Device.arenaLeft_sound | apply Device.arenaSelect_sound
    | apply Device.loseSync_sound | apply Device.writeEntries_sound | apply Device.slotWrite_sound
    | apply Device.leFlag_sound | apply Device.setSlot_sound | apply sound_ite | apply And.intro | apply memSound_of
    | apply pwmSound_of | apply sound_foldl | apply optPairSound_map | apply optSound_map | split

theorem Device.slotsResume_sound {d : Device} (h0 : d.sound) : (Device.slotsResume d).sound := by
  unfold Device.slotsResume
  with_reducible repeat' first
    | assumption | dsimp only | simp only [sound_mk] | intro _ | apply Device.arenaLeft_sound
    | apply Device.setSlot_sound | apply sound_ite | apply And.intro | apply memSound_of | apply pwmSound_of
    | apply sound_foldl

theorem Device.slotsOff_sound {d : Device} (h0 : d.sound) : (Device.slotsOff d).sound := by
  unfold Device.slotsOff
  with_reducible repeat' first
    | assumption | dsimp only | simp only [sound_mk] | apply And.intro | apply memSound_of | apply pwmSound_of

theorem Device.leWrite_sound {d : Device} {who : Who} {o : Nat} {v : Word} (h0 : d.sound) : OptSound (Device.leWrite
    d who o v) := by
  unfold Device.leWrite
  with_reducible repeat' first
    | assumption | dsimp only | simp only [sound_mk] | intro _ | apply Device.slotCtlWrite_sound
    | apply Device.ovrdWrite_sound | apply Device.slotTrigger_sound | apply Device.flagKept_sound
    | apply Device.note_sound | apply Device.setSlot_sound | apply sound_ite | apply optSound_ite
    | apply optSound_none | apply optSound_some | apply And.intro | apply memSound_of | apply pwmSound_of
    | apply sound_forEach | apply optPairSound_map | apply optSound_map | split

theorem Device.laneStart_sound {d : Device} (h0 : d.sound) : (Device.laneStart d).sound := by
  unfold Device.laneStart
  with_reducible repeat' first
    | assumption | dsimp only | simp only [sound_mk] | intro _ | apply Device.startSlot_sound | apply And.intro
    | apply memSound_of | apply pwmSound_of | split

theorem Device.slotEnd_sound {d : Device} {n : Nat} (h0 : d.sound) : (Device.slotEnd d n).sound := by
  unfold Device.slotEnd
  with_reducible repeat' first
    | assumption | dsimp only | simp only [sound_mk] | intro _ | apply Device.slotComplete_sound
    | apply Device.tripAll_sound | apply sound_ite | apply And.intro | apply memSound_of | apply pwmSound_of | split

/-! ### Machine/Sns -/

theorem Device.snsFlag_sound {d : Device} {n : Nat} {bits : Word} (h0 : d.sound) :
    (Device.snsFlag d n bits).sound := by
  unfold Device.snsFlag
  with_reducible repeat' first
    | assumption | dsimp only | apply Device.flagUp_sound | apply Device.setSns_sound

theorem Device.sample_sound {d : Device} {n : Nat} (h0 : d.sound) : (Device.sample d n).sound := by
  unfold Device.sample
  with_reducible repeat' first
    | assumption | dsimp only | intro _ | apply Device.snsFlag_sound | apply Device.setSns_sound | apply sound_ite

theorem Device.sampleFrom_sound {d : Device} {n : Nat} {src : Nat} (h0 : d.sound) :
    (Device.sampleFrom d n src).sound := by
  unfold Device.sampleFrom
  with_reducible repeat' first
    | assumption | intro _ | apply Device.sample_sound | apply sound_ite

theorem Device.convEnd_sound {d : Device} {n : Nat} {r : SnsRun} {acqs : List Acq} (h0 : d.sound) :
    (Device.convEnd d n r acqs).sound := by
  unfold Device.convEnd
  with_reducible repeat' first
    | assumption | dsimp only | apply Device.advTo_sound | apply Device.setSns_sound | apply Device.triggerBy_sound
    | apply Device.raiseEvent_sound | apply Device.snsFlag_sound

theorem Device.auxEnd_sound {d : Device} {n : Nat} {r : SnsRun} {acq : Acq} (h0 : d.sound) :
    (Device.auxEnd d n r acq).sound := by
  unfold Device.auxEnd
  with_reducible repeat' first
    | assumption | dsimp only | apply Device.advTo_sound | apply Device.setSns_sound | apply Device.snsFlag_sound

theorem Device.cmpTrips_sound {d : Device} {n : Nat} (h0 : d.sound) : (Device.cmpTrips d n).sound := by
  unfold Device.cmpTrips
  with_reducible repeat' first
    | assumption | dsimp only | simp only [sound_mk] | intro _ | apply Device.hardStays_sound
    | apply Device.boundaryAgain_sound | apply Device.hardTrip_sound | apply sound_ite | apply And.intro
    | apply memSound_of | apply pwmSound_of | split

theorem Device.cmpLevel_sound {d : Device} {n : Nat} {high : Bool} {b : Bool} (h0 : d.sound) :
    (Device.cmpLevel d n high b).sound := by
  unfold Device.cmpLevel
  with_reducible repeat' first
    | assumption | dsimp only | intro _ | apply Device.setSns_sound | apply Device.snsFlag_sound
    | apply Device.cmpTrips_sound | apply Device.levelsChanged_sound | apply sound_ite

theorem Device.rawMoved_sound {d : Device} {n : Nat} {x2 : Bool} {l : Bool} (h0 : d.sound) :
    (Device.rawMoved d n x2 l).sound := by
  unfold Device.rawMoved
  with_reducible repeat' first
    | assumption | dsimp only | apply Device.setSns_sound

theorem Device.cmpFollow_sound {d : Device} {n : Nat} {high : Bool} {t : Nat} (h0 : d.sound) :
    (Device.cmpFollow d n high t).sound := by
  unfold Device.cmpFollow
  with_reducible repeat' first
    | assumption | intro _ | apply Device.cmpLevel_sound | apply sound_ite

theorem Device.cmpBoth_sound {d : Device} {n : Nat} (h0 : d.sound) : (Device.cmpBoth d n).sound := by
  unfold Device.cmpBoth
  with_reducible repeat' first
    | assumption | apply Device.cmpFollow_sound

theorem Device.cmpPast_sound {d : Device} {n : Nat} (h0 : d.sound) : (Device.cmpPast d n).sound := by
  unfold Device.cmpPast
  with_reducible repeat' first
    | assumption | intro _ | apply Device.cmpFollow_sound | apply sound_ite

theorem Device.cmpSense_sound {d : Device} {n : Nat} (h0 : d.sound) : (Device.cmpSense d n).sound := by
  unfold Device.cmpSense
  with_reducible repeat' first
    | assumption | dsimp only | apply Device.setSns_sound

theorem Device.cmpInput_sound {d : Device} {n : Nat} {v : Nat} {vref : Nat} (h0 : d.sound) :
    (Device.cmpInput d n v vref).sound := by
  unfold Device.cmpInput
  with_reducible repeat' first
    | assumption | dsimp only | apply Device.rawMoved_sound | apply Device.cmpSense_sound | apply Device.setSns_sound

theorem Device.cmpSettled_sound {d : Device} {n : Nat} (h0 : d.sound) : (Device.cmpSettled d n).sound := by
  unfold Device.cmpSettled
  with_reducible repeat' first
    | assumption | dsimp only | simp only [sound_mk] | apply Device.cmpBoth_sound | apply Device.setSns_sound
    | apply And.intro | apply memSound_of | apply pwmSound_of

theorem Device.calFinish_sound {d : Device} {n : Nat} {res : Nat} (h0 : d.sound) :
    (Device.calFinish d n res).sound := by
  unfold Device.calFinish
  with_reducible repeat' first
    | assumption | dsimp only | apply Device.snsFlag_sound | apply Device.setSns_sound

theorem Device.calExpire_sound {d : Device} {n : Nat} (h0 : d.sound) : (Device.calExpire d n).sound := by
  unfold Device.calExpire
  with_reducible repeat' first
    | assumption | dsimp only | intro _ | apply Device.advTo_sound | apply Device.setSns_sound
    | apply Device.calFinish_sound | apply sound_ite | split

theorem Device.calStep_sound {d : Device} {n : Nat} {k : SnsCal} {code : Nat} (h0 : d.sound) :
    (Device.calStep d n k code).sound := by
  unfold Device.calStep
  with_reducible repeat' first
    | assumption | dsimp only | intro _ | apply Device.setSns_sound | apply Device.calFinish_sound | apply sound_ite

theorem Device.snsWrite_sound {d : Device} {o : Nat} {v : Word} (h0 : d.sound) : OptSound (Device.snsWrite d o v) := by
  unfold Device.snsWrite
  with_reducible repeat' first
    | assumption | dsimp only | intro _ | apply Device.setSns_sound | apply Device.sampleFrom_sound
    | apply Device.flagKept_sound | apply sound_ite | apply optSound_ite | apply optSound_none | apply optSound_some | apply sound_forEach
    | split

theorem Device.vddaForces_sound {d : Device} {b : Bool} (h0 : d.sound) : (Device.vddaForces d b).sound := by
  unfold Device.vddaForces
  with_reducible repeat' first
    | assumption | dsimp only | simp only [sound_mk] | intro _ | apply Device.cmpBoth_sound
    | apply Device.rawMoved_sound | apply And.intro | apply memSound_of | apply pwmSound_of | apply sound_foldl

theorem Device.vddaLow_sound {d : Device} (h0 : d.sound) : (Device.vddaLow d).sound := by
  unfold Device.vddaLow
  with_reducible repeat' first
    | assumption | dsimp only | simp only [sound_mk] | intro _ | apply Device.setSns_sound
    | apply Device.calFinish_sound | apply sound_ite | apply And.intro | apply memSound_of | apply pwmSound_of | apply sound_foldl

theorem Device.vddaOk_sound {d : Device} (h0 : d.sound) : (Device.vddaOk d).sound := by
  unfold Device.vddaOk
  with_reducible repeat' first
    | assumption | dsimp only | simp only [sound_mk] | intro _ | apply Device.setSns_sound | apply And.intro
    | apply memSound_of | apply pwmSound_of | apply sound_foldl

/-! ### Machine/Trk -/

theorem Device.trkFlag_sound {d : Device} {n : Nat} {bits : Word} (h0 : d.sound) :
    (Device.trkFlag d n bits).sound := by
  unfold Device.trkFlag
  with_reducible repeat' first
    | assumption | dsimp only | apply Device.flagUp_sound | apply Device.setTrk_sound

theorem Device.trkStat_sound {d : Device} {n : Nat} {t : TrkTick} {stat : Word} (h0 : d.sound) :
    (Device.trkStat d n t stat).sound := by
  unfold Device.trkStat
  with_reducible repeat' first
    | assumption | dsimp only | intro _ | apply Device.setTrk_sound | apply Device.flagDown_sound | apply sound_ite

theorem Device.trkCount_sound {d : Device} {n : Nat} {back : Bool} (h0 : d.sound) :
    (Device.trkCount d n back).sound := by
  unfold Device.trkCount
  with_reducible repeat' first
    | assumption | dsimp only | apply Device.setTrk_sound | apply Device.trkFlag_sound

theorem Device.trkErr_sound {d : Device} {n : Nat} {bits : Word} (h0 : d.sound) : (Device.trkErr d n bits).sound := by
  unfold Device.trkErr
  with_reducible repeat' first
    | assumption | dsimp only | intro _ | apply Device.trkFlag_sound | apply Device.setTrk_sound | apply sound_ite

theorem Device.trkIndex_sound {d : Device} {n : Nat} (h0 : d.sound) : (Device.trkIndex d n).sound := by
  unfold Device.trkIndex
  with_reducible repeat' first
    | assumption | dsimp only | intro _ | apply Device.trkFlag_sound | apply Device.setTrk_sound | apply sound_ite

theorem Device.trkStep_sound {d : Device} {n : Nat} {la : Bool} {lb : Bool} {lz : Bool} (h0 : d.sound) :
    (Device.trkStep d n la lb lz).sound := by
  unfold Device.trkStep
  with_reducible repeat' first
    | assumption | dsimp only | intro _ | apply Device.setTrk_sound | apply Device.trkErr_sound
    | apply Device.trkCount_sound | apply Device.trkIndex_sound | apply Device.raiseEvents_sound | apply sound_ite
    | split

theorem Device.trkUncount_sound {d : Device} {n : Nat} {t : TrkTick} {clr : Bool} (h0 : d.sound) :
    (Device.trkUncount d n t clr).sound := by
  unfold Device.trkUncount
  with_reducible repeat' first
    | assumption | dsimp only | apply Device.setTrk_sound | apply Device.note_sound | apply Device.trkStat_sound

theorem Device.trkRef_sound {d : Device} {n : Nat} {cfg : Word} (h0 : d.sound) : (Device.trkRef d n cfg).sound := by
  unfold Device.trkRef
  with_reducible repeat' first
    | assumption | dsimp only | intro _ | apply Device.trkUncount_sound | apply Device.setTrk_sound | apply sound_ite

theorem Device.trkPosWrite_sound {d : Device} {n : Nat} {v : Word} (h0 : d.sound) :
    (Device.trkPosWrite d n v).sound := by
  unfold Device.trkPosWrite
  with_reducible repeat' first
    | assumption | dsimp only | intro _ | apply Device.setTrk_sound | apply Device.trkStat_sound
    | apply Device.trkFlag_sound | apply sound_ite

theorem Device.trkPins_sound {d : Device} {n : Nat} {p : BitVec 3} (h0 : d.sound) : (Device.trkPins d n p).sound := by
  unfold Device.trkPins
  with_reducible repeat' first
    | assumption | dsimp only | apply Device.setTrk_sound

theorem Device.trkAt_sound {d : Device} {n : Nat} {t : Nat} (h0 : d.sound) : (Device.trkAt d n t).sound := by
  unfold Device.trkAt
  with_reducible repeat' first
    | assumption | dsimp only | apply Device.trkStep_sound | apply Device.setTrk_sound

theorem Device.trkUpTo_sound {d : Device} {n : Nat} {x2 : Nat} (h0 : d.sound) : (Device.trkUpTo d n x2).sound := by
  induction x2 generalizing d with
  | zero => unfold Device.trkUpTo; exact h0
  | succ k ih =>
    unfold Device.trkUpTo
    split
    · apply sound_ite <;> intro _
      · exact ih (Device.trkAt_sound h0)
      · exact h0
    · exact h0

theorem Device.trkFollow_sound {d : Device} {n : Nat} (h0 : d.sound) : (Device.trkFollow d n).sound := by
  unfold Device.trkFollow
  with_reducible repeat' first
    | assumption | apply Device.trkUpTo_sound

theorem Device.trkWrite_sound {d : Device} {o : Nat} {v : Word} (h0 : d.sound) : OptSound (Device.trkWrite d o v) := by
  unfold Device.trkWrite
  with_reducible repeat' first
    | assumption | dsimp only | intro _ | apply Device.trkPosWrite_sound | apply Device.flagKept_sound
    | apply Device.setTrk_sound | apply optSound_ite | apply optSound_none | apply optSound_some | split

/-! ### Machine/DmaCtl -/

theorem Device.dmaFlag_sound {d : Device} {k : Nat} {bits : Word} (h0 : d.sound) :
    (Device.dmaFlag d k bits).sound := by
  unfold Device.dmaFlag
  with_reducible repeat' first
    | assumption | dsimp only | apply Device.flagUp_sound | apply Device.setDma_sound

theorem Device.dmaStatWrite_sound {d : Device} {k : Nat} {v : Word} (h0 : d.sound) :
    (Device.dmaStatWrite d k v).sound := by
  unfold Device.dmaStatWrite
  with_reducible repeat' first
    | assumption | dsimp only | apply Device.flagKept_sound | apply Device.setDma_sound

theorem Device.dmaStart_sound {d : Device} {k : Nat} (h0 : d.sound) : (Device.dmaStart d k).sound := by
  unfold Device.dmaStart
  with_reducible repeat' first
    | assumption | dsimp only | intro _ | apply Device.dmaFlag_sound | apply Device.setDma_sound | apply sound_ite

theorem Device.dmaTrigger_sound {d : Device} {k : Nat} (h0 : d.sound) : (Device.dmaTrigger d k).sound := by
  unfold Device.dmaTrigger
  with_reducible repeat' first
    | assumption | dsimp only | apply Device.setDma_sound | apply Device.dmaFlag_sound | apply Device.note_sound
    | split

theorem Device.dmaTakeBack_sound {d : Device} {k : Nat} (h0 : d.sound) : (Device.dmaTakeBack d k).1.sound := by
  unfold Device.dmaTakeBack
  with_reducible repeat' first
    | assumption | dsimp only | simp only [sound_mk] | intro _ | apply Device.flagDown_sound | apply Device.note_sound
    | apply Device.setDma_sound | apply sound_ite | apply pairSound_ite | apply And.intro | apply memSound_of
    | apply pwmSound_of | split

theorem Device.dmaStop_sound {d : Device} {k : Nat} (h0 : d.sound) : (Device.dmaStop d k).sound := by
  unfold Device.dmaStop
  with_reducible repeat' first
    | assumption | dsimp only | intro _ | apply Device.setDma_sound | apply sound_ite | split

theorem Device.dmaAbort_sound {d : Device} {k : Nat} (h0 : d.sound) : (Device.dmaAbort d k).sound := by
  unfold Device.dmaAbort
  with_reducible repeat' first
    | assumption | dsimp only | intro _ | apply Device.setDma_sound | apply Device.dmaFlag_sound | apply sound_ite
    | split

theorem Device.dmaCoreReset_sound {d : Device} {c : Nat} (h0 : d.sound) : (Device.dmaCoreReset d c).sound := by
  unfold Device.dmaCoreReset
  with_reducible repeat' first
    | assumption | intro _ | apply Device.dmaAbort_sound | apply sound_ite | apply sound_foldl

theorem Device.dmaUnitReset_sound {d : Device} (h0 : d.sound) : (Device.dmaUnitReset d).sound := by
  unfold Device.dmaUnitReset
  with_reducible repeat' first
    | assumption | dsimp only | simp only [sound_mk] | apply And.intro | apply memSound_of | apply pwmSound_of

theorem Device.dmaStopped_sound {d : Device} {k : Nat} (h0 : d.sound) : (Device.dmaStopped d k).sound := by
  unfold Device.dmaStopped
  with_reducible repeat' first
    | assumption | dsimp only | apply Device.setDma_sound | apply Device.dmaFlag_sound | split

theorem Device.dmaAdvance_sound {d : Device} {k : Nat} (h0 : d.sound) : (Device.dmaAdvance d k).sound := by
  unfold Device.dmaAdvance
  with_reducible repeat' first
    | assumption | dsimp only | intro _ | apply Device.dmaStopped_sound | apply Device.dmaTakeBack_sound
    | apply Device.setDma_sound | apply Device.raiseEvent_sound | apply Device.dmaFlag_sound
    | apply Device.dmaTrigger_sound | apply sound_ite | apply pairSound_ite

theorem Device.dmaFailed_sound {d : Device} {k : Nat} (h0 : d.sound) : (Device.dmaFailed d k).sound := by
  unfold Device.dmaFailed
  with_reducible repeat' first
    | assumption | dsimp only | simp only [sound_mk] | intro _ | apply Device.dmaTakeBack_sound
    | apply Device.dmaFlag_sound | apply Device.setDma_sound | apply And.intro | apply memSound_of | apply pwmSound_of
    | split

theorem Device.dmaError_sound {d : Device} {k : Nat} {code : Nat} (h0 : d.sound) : (Device.dmaError d k code).sound
    := by
  unfold Device.dmaError
  with_reducible repeat' first
    | assumption | dsimp only | simp only [sound_mk] | intro _ | apply Device.dmaFailed_sound
    | apply Device.dmaStopped_sound | apply Device.setDma_sound | apply sound_ite | apply And.intro
    | apply memSound_of | apply pwmSound_of | split

theorem Device.dmaWrite_sound {d : Device} {o : Nat} {v : Word} (h0 : d.sound) : OptSound (Device.dmaWrite d o v) := by
  unfold Device.dmaWrite
  with_reducible repeat' first
    | assumption | dsimp only | intro _ | apply Device.dmaStop_sound | apply Device.dmaStart_sound
    | apply Device.dmaStatWrite_sound | apply sound_ite | apply optSound_ite | apply optSound_none | apply optSound_some | split

/-! ### Machine/Router -/

theorem Device.destRise_sound {d : Device} {k : Nat} {i : Nat} (h0 : d.sound) : (Device.destRise d k i).sound := by
  unfold Device.destRise
  with_reducible repeat' first
    | assumption | apply Device.sampleFrom_sound | apply Device.routerTrigger_sound | apply Device.softTrip_sound
    | apply Device.loadAll_sound | apply Device.dmaTrigger_sound | split

theorem Device.refreshIrqOut_sound {d : Device} (h0 : d.sound) : (Device.refreshIrqOut d).sound := by
  unfold Device.refreshIrqOut
  with_reducible repeat' first
    | assumption | apply Device.levelInputs_sound

theorem Device.setDl_sound {d : Device} {r : Nat} {v : Option (Nat × Word)} (h0 : d.sound) :
    (Device.setDl d r v).sound := by
  unfold Device.setDl
  with_reducible repeat' first
    | assumption | dsimp only | simp only [sound_mk] | apply And.intro | apply memSound_of | apply pwmSound_of

theorem Device.putFlight_sound {d : Device} {f : Flight} (h0 : d.sound) : (Device.putFlight d f).sound := by
  unfold Device.putFlight
  with_reducible repeat' first
    | assumption | dsimp only | simp only [sound_mk] | apply Device.setDl_sound | apply And.intro | apply memSound_of
    | apply pwmSound_of | split

theorem Device.act1_sound {d : Device} {old : Tab (Option (Nat × Word))} {k : Nat} {i : Nat} (h0 : d.sound) :
    (Device.act1 d old k i).sound := by
  unfold Device.act1
  with_reducible repeat' first
    | assumption | intro _ | apply Device.destRise_sound | apply Device.note_sound | apply sound_ite

theorem Device.deliver_sound {d : Device} {now : Bool} {fs : List Flight} (h0 : d.sound) :
    (Device.deliver d now fs).sound := by
  unfold Device.deliver
  with_reducible repeat' first
    | assumption | dsimp only | intro _ | apply Device.note_sound | apply Device.refreshIrqOut_sound
    | apply Device.putFlight_sound | apply Device.act1_sound | apply sound_ite | apply sound_foldl

theorem Device.deliverWhere_sound {d : Device} {now : Bool} {p : Flight → Bool} (h0 : d.sound) :
    (Device.deliverWhere d now p).sound := by
  unfold Device.deliverWhere
  with_reducible repeat' first
    | assumption | dsimp only | simp only [sound_mk] | apply Device.deliver_sound | apply And.intro | apply memSound_of
    | apply pwmSound_of

theorem Device.deliverSome_sound {d : Device} {p : Flight → Bool} {x2 : Nat} (h0 : d.sound) :
    (Device.deliverSome d p x2).sound := by
  induction x2 generalizing d with
  | zero => unfold Device.deliverSome; exact h0
  | succ k ih =>
    unfold Device.deliverSome
    split
    · exact ih (Device.deliverWhere_sound h0)
    · exact h0

theorem Device.deliverAll_sound {d : Device} {p : Flight → Bool} (h0 : d.sound) : (Device.deliverAll d p).sound := by
  unfold Device.deliverAll
  with_reducible repeat' first
    | assumption | apply Device.deliverSome_sound

theorem Device.deliverUpTo_sound {d : Device} {x : Nat} (h0 : d.sound) : (Device.deliverUpTo d x).sound := by
  unfold Device.deliverUpTo
  with_reducible repeat' first
    | assumption | apply Device.deliverAll_sound

theorem Device.deliverOld_sound {d : Device} (h0 : d.sound) : (Device.deliverOld d).sound := by
  unfold Device.deliverOld
  with_reducible repeat' first
    | assumption | apply Device.deliverAll_sound

theorem Device.gpFollowTo_sound {d : Device} {p : Nat} {t : Nat} (h0 : d.sound) : (Device.gpFollowTo d p t).sound := by
  unfold Device.gpFollowTo
  with_reducible repeat' first
    | assumption | dsimp only | simp only [sound_mk] | intro _ | apply Device.levelsChanged_sound
    | apply Device.note_sound | apply sound_ite | apply And.intro | apply memSound_of | apply pwmSound_of

theorem Device.gpFollow_sound {d : Device} {p : Nat} (h0 : d.sound) : (Device.gpFollow d p).sound := by
  unfold Device.gpFollow
  with_reducible repeat' first
    | assumption | apply Device.gpFollowTo_sound

theorem Device.padTakes_sound {d : Device} {p : Nat} {level : Bool} (h0 : d.sound) :
    (Device.padTakes d p level).sound := by
  unfold Device.padTakes
  with_reducible repeat' first
    | assumption | dsimp only | simp only [sound_mk] | intro _ | apply Device.gpFollowTo_sound
    | apply Device.gpFollow_sound | apply sound_ite | apply And.intro | apply memSound_of | apply pwmSound_of

theorem Device.lockRoute_sound {d : Device} {r : Nat} (h0 : d.sound) : (Device.lockRoute d r).sound := by
  unfold Device.lockRoute
  with_reducible repeat' first
    | assumption | dsimp only | simp only [sound_mk] | intro _ | apply Device.note_sound | apply sound_ite
    | apply And.intro | apply memSound_of | apply pwmSound_of

theorem Device.swLevels_sound {d : Device} {sw : BitVec 16} (h0 : d.sound) : (Device.swLevels d sw).sound := by
  unfold Device.swLevels
  with_reducible repeat' first
    | assumption | dsimp only | simp only [sound_mk] | apply Device.levelsChanged_sound | apply And.intro
    | apply memSound_of | apply pwmSound_of

theorem Device.swPulse_sound {d : Device} {v : Word} (h0 : d.sound) : (Device.swPulse d v).sound := by
  unfold Device.swPulse
  with_reducible repeat' first
    | assumption | apply Device.raiseEvents_sound

theorem Device.rtCntWrite_sound {d : Device} {r : Nat} {v : Nat} (h0 : d.sound) : (Device.rtCntWrite d r v).sound := by
  unfold Device.rtCntWrite
  with_reducible repeat' first
    | assumption | dsimp only | simp only [sound_mk] | apply And.intro | apply memSound_of | apply pwmSound_of

theorem Device.evrWrite_sound {d : Device} {o : Nat} {v : Word} (h0 : d.sound) : OptSound (Device.evrWrite d o v) := by
  unfold Device.evrWrite
  with_reducible repeat' first
    | assumption | intro _ | apply Device.lockRoute_sound | apply Device.swLevels_sound | apply Device.swPulse_sound
    | apply Device.rtCntWrite_sound | apply optSound_ite | apply optSound_none | apply optSound_some | apply sound_forEach

theorem Device.softRefresh_sound {d : Device} (h0 : d.sound) : (Device.softRefresh d).sound := by
  unfold Device.softRefresh
  with_reducible repeat' first
    | assumption | intro _ | apply Device.softTrip_sound | apply sound_ite | apply sound_foldl

theorem Device.swapRoute_sound {d : Device} {was : Word × Word} {chg : Bool} {r : Nat} (h0 : d.sound) :
    (Device.swapRoute d was chg r).sound := by
  unfold Device.swapRoute
  with_reducible repeat' first
    | assumption | dsimp only | simp only [sound_mk] | intro _ | apply Device.setDl_sound | apply Device.putSig_sound
    | apply sound_ite | apply And.intro | apply memSound_of | apply pwmSound_of

theorem Device.swapRoutes_sound {d : Device} {old : Nat → Word × Word} (h0 : d.sound) : (Device.swapRoutes d
    old).sound := by
  unfold Device.swapRoutes
  with_reducible repeat' first
    | assumption | dsimp only | simp only [sound_mk] | intro _ | apply Device.swapRoute_sound
    | apply Device.softRefresh_sound | apply Device.refreshIrqOut_sound | apply Device.note_sound | apply And.intro
    | apply memSound_of | apply pwmSound_of | apply sound_foldl

theorem Device.evrUnitReset_sound {d : Device} (h0 : d.sound) : (Device.evrUnitReset d).sound := by
  unfold Device.evrUnitReset
  with_reducible repeat' first
    | assumption | dsimp only | simp only [sound_mk] | intro _ | apply Device.levelsChanged_sound
    | apply Device.refreshIrqOut_sound | apply And.intro | apply memSound_of | apply pwmSound_of | apply sound_foldl

/-! ### Machine/Tbase -/

theorem Device.capture_sound {d : Device} {p : Nat} {i : Nat} {v : DWord} (h0 : d.sound) :
    (Device.capture d p i v).sound := by
  unfold Device.capture
  with_reducible repeat' first
    | assumption | dsimp only | simp only [sound_mk] | apply And.intro | apply memSound_of | apply pwmSound_of

theorem Device.lateCheck_sound {d : Device} {k : Nat} (h0 : d.sound) : (Device.lateCheck d k).sound := by
  unfold Device.lateCheck
  with_reducible repeat' first
    | assumption | dsimp only | intro _ | apply Device.hwFlag_sound | apply Device.setCmp_sound | apply sound_ite

theorem Device.cmpctlWrite_sound {d : Device} {k : Nat} {v : Word} (h0 : d.sound) :
    (Device.cmpctlWrite d k v).sound := by
  unfold Device.cmpctlWrite
  with_reducible repeat' first
    | assumption | dsimp only | intro _ | apply Device.setCmp_sound | apply Device.lateCheck_sound | apply sound_ite

theorem Device.unraise_sound {d : Device} {s : Nat} (h0 : d.sound) : (Device.unraise d s).sound := by
  unfold Device.unraise
  with_reducible repeat' first
    | assumption | apply Device.levelsChanged_sound | apply Device.note_sound

theorem Device.cmpLoWrite_sound {d : Device} {k : Nat} {v : Word} (h0 : d.sound) :
    (Device.cmpLoWrite d k v).sound := by
  unfold Device.cmpLoWrite
  with_reducible repeat' first
    | assumption | dsimp only | apply Device.setCmp_sound

theorem Device.cmpHiWrite_sound {d : Device} {k : Nat} {v : Word} (h0 : d.sound) :
    (Device.cmpHiWrite d k v).sound := by
  unfold Device.cmpHiWrite
  with_reducible repeat' first
    | assumption | dsimp only | intro _ | apply Device.setCmp_sound | apply Device.lateCheck_sound | apply sound_ite

theorem Device.cmpMatch_sound {d : Device} {k : Nat} (h0 : d.sound) : (Device.cmpMatch d k).sound := by
  unfold Device.cmpMatch
  with_reducible repeat' first
    | assumption | dsimp only | apply Device.raiseEvent_sound | apply Device.hwFlag_sound | apply Device.note_sound
    | apply Device.setCmp_sound

theorem Device.cmpUnmatch_sound {d : Device} {k : Nat} {c : Cmp} (h0 : d.sound) : (Device.cmpUnmatch d k c).sound := by
  unfold Device.cmpUnmatch
  with_reducible repeat' first
    | assumption | dsimp only | apply Device.unraise_sound | apply Device.note_sound | apply Device.setCmp_sound

theorem Device.cmpWrite_sound {d : Device} {k : Nat} {f : Device → Device} (h0 : d.sound)
    (h2 : ∀ y0, y0.sound → (f y0).sound) : (Device.cmpWrite d k f).sound := by
  unfold Device.cmpWrite
  with_reducible repeat' first
    | assumption | dsimp only | intro _ | apply h2 | apply Device.cmpUnmatch_sound | apply Device.cmpMatch_sound
    | apply sound_ite | split

theorem Device.xtalFail_sound {d : Device} (h0 : d.sound) : (Device.xtalFail d).sound := by
  unfold Device.xtalFail
  with_reducible repeat' first
    | assumption | dsimp only | simp only [sound_mk] | intro _ | apply Device.hwFlag_sound
    | apply Device.raiseIrq_sound | apply sound_ite | apply And.intro | apply memSound_of | apply pwmSound_of | split

theorem Device.restoreXtal_sound {d : Device} (h0 : d.sound) : (Device.restoreXtal d).sound := by
  unfold Device.restoreXtal
  with_reducible repeat' first
    | assumption | dsimp only | simp only [sound_mk] | intro _ | apply Device.note_sound
    | apply Device.yardsSkip_sound | apply Device.hwFlag_sound | apply sound_ite | apply And.intro | apply memSound_of
    | apply pwmSound_of

theorem Device.tbaseWrite_sound {d : Device} {who : Who} {o : Nat} {v : Word} (h0 : d.sound) :
    OptSound (Device.tbaseWrite d who o v) := by
  unfold Device.tbaseWrite
  with_reducible repeat' first
    | assumption | dsimp only | simp only [sound_mk] | intro _ | apply Device.mixedWrite_sound
    | apply Device.restoreXtal_sound | apply Device.cmpLoWrite_sound | apply Device.cmpWrite_sound
    | apply Device.cmpHiWrite_sound | apply Device.setLv_sound | apply Device.cmpctlWrite_sound | apply sound_ite
    | apply optSound_ite | apply optSound_none | apply optSound_some | apply And.intro | apply memSound_of | apply pwmSound_of | split

theorem Device.tbaseRead_sound {d : Device} {i : Nat} {o : Nat} (h0 : d.sound) : OptPairSound (Device.tbaseRead d i o) := by
  unfold Device.tbaseRead
  with_reducible repeat' first
    | assumption | dsimp only | intro _ | apply Device.capture_sound | apply optPairSound_ite | apply optPairSound_none
    | apply optPairSound_some | split

/-! ### Machine/Rtc -/

theorem Device.setVblo_sound {d : Device} (h0 : d.sound) : (Device.setVblo d).sound := by
  unfold Device.setVblo
  with_reducible repeat' first
    | assumption | dsimp only | simp only [sound_mk] | intro _ | apply Device.hwFlag_sound
    | apply Device.raiseIf_sound | apply sound_ite | apply And.intro | apply memSound_of | apply pwmSound_of

theorem Device.rtcRefuse_sound {d : Device} (h0 : d.sound) : (Device.rtcRefuse d).sound := by
  unfold Device.rtcRefuse
  with_reducible repeat' first
    | assumption | dsimp only | simp only [sound_mk] | apply Device.hwFlag_sound | apply And.intro | apply memSound_of
    | apply pwmSound_of

theorem Device.tickAlarmNow_sound {d : Device} (h0 : d.sound) : (Device.tickAlarmNow d).sound := by
  unfold Device.tickAlarmNow
  with_reducible repeat' first
    | assumption | intro _ | apply Device.raiseEvent_sound | apply Device.raiseIrq_sound | apply sound_ite

theorem Device.rtcPass_sound {d : Device} {n : Nat} (h0 : d.sound) : (Device.rtcPass d n).sound := by
  unfold Device.rtcPass
  with_reducible repeat' first
    | assumption | dsimp only | simp only [sound_mk] | intro _ | apply Device.tickAlarmNow_sound | apply sound_ite
    | apply And.intro | apply memSound_of | apply pwmSound_of

theorem Device.setCalApply_sound {d : Device} (h0 : d.sound) : (Device.setCalApply d).sound := by
  unfold Device.setCalApply
  with_reducible repeat' first
    | assumption | dsimp only | simp only [sound_mk] | apply Device.rtcRefuse_sound | apply And.intro | apply memSound_of
    | apply pwmSound_of | split

theorem Device.hourApply_sound {d : Device} {add : Bool} (h0 : d.sound) : (Device.hourApply d add).sound := by
  unfold Device.hourApply
  with_reducible repeat' first
    | assumption | dsimp only | simp only [sound_mk] | intro _ | apply Device.rtcRefuse_sound | apply sound_ite
    | apply And.intro | apply memSound_of | apply pwmSound_of

theorem Device.rtcAct_sound {d : Device} {c : Nat} (h0 : d.sound) : (Device.rtcAct d c).sound := by
  unfold Device.rtcAct
  with_reducible repeat' first
    | assumption | dsimp only | simp only [sound_mk] | intro _ | apply Device.hourApply_sound
    | apply Device.setCalApply_sound | apply And.intro | apply memSound_of | apply pwmSound_of | split

theorem Device.rtcApply_sound {d : Device} (h0 : d.sound) : (Device.rtcApply d).sound := by
  unfold Device.rtcApply
  with_reducible repeat' first
    | assumption | dsimp only | simp only [sound_mk] | intro _ | apply Device.rtcAct_sound
    | apply Device.rtcPass_sound | apply And.intro | apply memSound_of | apply pwmSound_of | split

theorem Device.cmdFirst_sound {d : Device} {n : Nat} (h0 : d.sound) : (Device.cmdFirst d n).sound := by
  unfold Device.cmdFirst
  with_reducible repeat' first
    | assumption | intro _ | apply Device.rtcApply_sound | apply sound_ite

theorem Device.rtcCount_sound {d : Device} (h0 : d.sound) : (Device.rtcCount d).sound := by
  unfold Device.rtcCount
  with_reducible repeat' first
    | assumption | apply Device.rtcPass_sound | apply Device.fresh_sound

theorem Device.rtcCmdWrite_sound {d : Device} {v : Word} (h0 : d.sound) : (Device.rtcCmdWrite d v).sound := by
  unfold Device.rtcCmdWrite
  with_reducible repeat' first
    | assumption | dsimp only | simp only [sound_mk] | intro _ | apply Device.rtcCount_sound
    | apply Device.rtcRefuse_sound | apply sound_ite | apply And.intro | apply memSound_of | apply pwmSound_of | split

theorem Device.rtcCtlWrite_sound {d : Device} {v : Word} (h0 : d.sound) : (Device.rtcCtlWrite d v).sound := by
  unfold Device.rtcCtlWrite
  with_reducible repeat' first
    | assumption | dsimp only | simp only [sound_mk] | intro _ | apply Device.setLv_sound
    | apply Device.rtcCount_sound | apply sound_ite | apply And.intro | apply memSound_of | apply pwmSound_of

theorem Device.almTicksWrite_sound {d : Device} {a : Nat} {v : Word} (h0 : d.sound) : (Device.almTicksWrite d a
    v).sound := by
  unfold Device.almTicksWrite
  with_reducible repeat' first
    | assumption | intro _ | apply Device.rtcCount_sound | apply Device.setLv_sound | apply sound_ite

theorem Device.rtcSecond_sound {d : Device} {vbat : Nat} (h0 : d.sound) : (Device.rtcSecond d vbat).sound := by
  unfold Device.rtcSecond
  with_reducible repeat' first
    | assumption | dsimp only | simp only [sound_mk] | intro _ | apply Device.cmdFirst_sound
    | apply Device.setVblo_sound | apply Device.raiseEvents_sound | apply Device.raiseIf_sound
    | apply Device.raiseIrq_sound | apply sound_ite | apply And.intro | apply memSound_of | apply pwmSound_of

theorem Device.sentinelLost_sound {d : Device} (h0 : d.sound) : (Device.sentinelLost d).sound := by
  unfold Device.sentinelLost
  with_reducible repeat' first
    | assumption | dsimp only | simp only [sound_mk] | intro _ | apply Device.hwFlag_sound | apply Device.setLv_sound
    | apply Device.recDue_sound | apply And.intro | apply memSound_of | apply pwmSound_of | apply sound_foldl

theorem Device.sentinelCheck_sound {d : Device} (h0 : d.sound) : (Device.sentinelCheck d).sound := by
  unfold Device.sentinelCheck
  with_reducible repeat' first
    | assumption | dsimp only | intro _ | apply Device.sentinelLost_sound | apply Device.raiseIf_sound | apply sound_ite

theorem Device.rtcWrite_sound {d : Device} {o : Nat} {v : Word} (h0 : d.sound) : OptSound (Device.rtcWrite d o v) :=
    by
  unfold Device.rtcWrite
  with_reducible repeat' first
    | assumption | dsimp only | simp only [sound_mk] | intro _ | apply Device.almTicksWrite_sound
    | apply Device.rtcCtlWrite_sound | apply Device.rtcCmdWrite_sound | apply sound_ite | apply optSound_ite
    | apply optSound_none | apply optSound_some | apply And.intro | apply memSound_of | apply pwmSound_of

/-! ### Machine/Pwr -/

theorem Device.paceTgtWrite_sound {d : Device} {v : Word} (h0 : d.sound) : (Device.paceTgtWrite d v).sound := by
  unfold Device.paceTgtWrite
  with_reducible repeat' first
    | assumption | apply Device.setLv_sound | apply Device.note_sound

theorem Device.paceLoop_sound {d : Device} {tgt : Nat} (h0 : d.sound) : (Device.paceLoop d tgt).sound := by
  unfold Device.paceLoop
  with_reducible repeat' first
    | assumption | dsimp only | simp only [sound_mk] | apply And.intro | apply memSound_of | apply pwmSound_of

theorem Device.rampStep_sound {d : Device} (h0 : d.sound) : (Device.rampStep d).sound := by
  unfold Device.rampStep
  with_reducible repeat' first
    | assumption | dsimp only | simp only [sound_mk] | apply And.intro | apply memSound_of | apply pwmSound_of

theorem Device.episodeEnd_sound {d : Device} (h0 : d.sound) : (Device.episodeEnd d).sound := by
  unfold Device.episodeEnd
  with_reducible repeat' first
    | assumption | dsimp only | simp only [sound_mk] | intro _ | apply Device.levelsChanged_sound
    | apply Device.recDue_sound | apply sound_ite | apply And.intro | apply memSound_of | apply pwmSound_of

theorem Device.episodeStart_sound {d : Device} (h0 : d.sound) : (Device.episodeStart d).sound := by
  unfold Device.episodeStart
  with_reducible repeat' first
    | assumption | dsimp only | simp only [sound_mk] | apply Device.raiseIrq_sound | apply Device.levelsChanged_sound
    | apply Device.hwFlag_sound | apply And.intro | apply memSound_of | apply pwmSound_of

theorem Device.paceDetect_sound {d : Device} (h0 : d.sound) : (Device.paceDetect d).1.sound := by
  unfold Device.paceDetect
  with_reducible repeat' first
    | assumption | dsimp only | simp only [sound_mk] | intro _ | apply Device.episodeStart_sound
    | apply Device.episodeEnd_sound | apply sound_ite | apply pairSound_ite | apply And.intro | apply memSound_of | apply pwmSound_of

theorem Device.parkEnter_sound {d : Device} (h0 : d.sound) : (Device.parkEnter d).sound := by
  unfold Device.parkEnter
  with_reducible repeat' first
    | assumption | dsimp only | simp only [sound_mk] | intro _ | apply Device.tripAll_sound | apply sound_ite
    | apply And.intro | apply memSound_of | apply pwmSound_of

theorem Device.parkRequest_sound {d : Device} (h0 : d.sound) : (Device.parkRequest d).sound := by
  unfold Device.parkRequest
  with_reducible repeat' first
    | assumption | dsimp only | simp only [sound_mk] | apply Device.parkEnter_sound | apply And.intro | apply memSound_of
    | apply pwmSound_of

theorem Device.parkLeave_sound {d : Device} (h0 : d.sound) : (Device.parkLeave d).sound := by
  unfold Device.parkLeave
  with_reducible repeat' first
    | assumption | dsimp only | simp only [sound_mk] | apply Device.slotsResume_sound | apply And.intro | apply memSound_of
    | apply pwmSound_of

theorem Device.reqWrite_sound {d : Device} {r : Nat} (h0 : d.sound) : (Device.reqWrite d r).sound := by
  unfold Device.reqWrite
  with_reducible repeat' first
    | assumption | dsimp only | simp only [sound_mk] | intro _ | apply Device.parkLeave_sound
    | apply Device.parkEnter_sound | apply sound_ite | apply And.intro | apply memSound_of | apply pwmSound_of | split

theorem Device.modeWrite_sound {d : Device} {v : Word} (h0 : d.sound) : (Device.modeWrite d v).sound := by
  unfold Device.modeWrite
  with_reducible repeat' first
    | assumption | dsimp only | simp only [sound_mk] | intro _ | apply Device.parkRequest_sound
    | apply Device.reqWrite_sound | apply sound_ite | apply And.intro | apply memSound_of | apply pwmSound_of | split

theorem Device.sleepEnter_sound {d : Device} (h0 : d.sound) : (Device.sleepEnter d).sound := by
  unfold Device.sleepEnter
  with_reducible repeat' first
    | assumption | dsimp only | simp only [sound_mk] | apply Device.parkEnter_sound | apply And.intro | apply memSound_of
    | apply pwmSound_of

theorem Device.releaseCores_sound {d : Device} (h0 : d.sound) : (Device.releaseCores d).sound := by
  unfold Device.releaseCores
  with_reducible repeat' first
    | assumption | dsimp only | intro _ | apply Device.setCore_sound | apply sound_ite | apply sound_foldl

theorem Device.setPage_sound {d : Device} {one : Bool} {w : List Word} (h0 : d.sound) :
    (Device.setPage d one w).sound := by
  unfold Device.setPage
  with_reducible repeat' first
    | assumption | dsimp only | simp only [sound_mk] | apply And.intro | apply memSound_of | apply pwmSound_of

theorem Device.erasePage_sound {d : Device} {one : Bool} (h0 : d.sound) : (Device.erasePage d one).sound := by
  unfold Device.erasePage
  with_reducible repeat' first
    | assumption | dsimp only | simp only [sound_mk] | apply And.intro | apply memSound_of | apply pwmSound_of

theorem Device.rotate_sound {d : Device} (h0 : d.sound) : (Device.rotate d).sound := by
  unfold Device.rotate
  with_reducible repeat' first
    | assumption | dsimp only | apply Device.setPage_sound | apply Device.erasePage_sound

theorem Device.ledgerPut_sound {d : Device} {k : Nat} {pace : Nat} (h0 : d.sound) :
    (Device.ledgerPut d k pace).sound := by
  unfold Device.ledgerPut
  with_reducible repeat' first
    | assumption | dsimp only | intro _ | apply Device.rotate_sound | apply Device.setPage_sound | apply sound_ite

theorem Device.flashGo_sound {d : Device} (h0 : d.sound) : (Device.flashGo d).sound := by
  unfold Device.flashGo
  with_reducible repeat' first
    | assumption | dsimp only | simp only [sound_mk] | apply And.intro | apply memSound_of | apply pwmSound_of

theorem Device.ledgerCut_sound {d : Device} (h0 : d.sound) : (Device.ledgerCut d).sound := by
  unfold Device.ledgerCut
  with_reducible repeat' first
    | assumption | dsimp only | simp only [sound_mk] | intro _ | apply Device.erasePage_sound
    | apply Device.setPage_sound | apply sound_ite | apply And.intro | apply memSound_of | apply pwmSound_of | split

theorem Device.pwrWrite_sound {d : Device} {who : Who} {o : Nat} {v : Word} (h0 : d.sound) :
    OptSound (Device.pwrWrite d who o v) := by
  unfold Device.pwrWrite
  with_reducible repeat' first
    | assumption | dsimp only | simp only [sound_mk] | intro _ | apply Device.mixedWrite_sound
    | apply Device.modeWrite_sound | apply Device.paceTgtWrite_sound | apply optSound_ite | apply optSound_none | apply optSound_some
    | apply And.intro | apply memSound_of | apply pwmSound_of

/-! ### Machine/Share -/

theorem Device.queStatWrite_sound {d : Device} {q : Nat} {v : Word} (h0 : d.sound) :
    (Device.queStatWrite d q v).sound := by
  unfold Device.queStatWrite
  with_reducible repeat' first
    | assumption | dsimp only | apply Device.setQue_sound | apply Device.flagKept_sound

theorem Device.queFlag_sound {d : Device} {q : Nat} {bits : Word} (h0 : d.sound) :
    (Device.queFlag d q bits).sound := by
  unfold Device.queFlag
  with_reducible repeat' first
    | assumption | dsimp only | apply Device.hwFlag_sound | apply Device.setQue_sound | apply Device.raiseIf_sound

theorem Device.quePush_sound {d : Device} {q : Nat} {v : Word} (h0 : d.sound) : (Device.quePush d q v).1.sound := by
  unfold Device.quePush
  with_reducible repeat' first
    | assumption | dsimp only | simp only [sound_mk] | simp only [memSound_mk] | intro _ | apply Device.queFlag_sound
    | apply Device.setQue_sound | apply pairSound_ite | apply And.intro | apply cellsSound_of | apply pwmSound_of

theorem Device.quePop_sound {d : Device} {q : Nat} (h0 : d.sound) : (Device.quePop d q).1.sound := by
  unfold Device.quePop
  with_reducible repeat' first
    | assumption | dsimp only | apply Device.setQue_sound | apply Device.queFlag_sound | split

theorem Device.queCfgWrite_sound {d : Device} {q : Nat} {v : Word} (h0 : d.sound) :
    (Device.queCfgWrite d q v).sound := by
  unfold Device.queCfgWrite
  with_reducible repeat' first
    | assumption | dsimp only | intro _ | apply Device.setQue_sound | apply Device.queFlag_sound | apply sound_ite

theorem Device.queWrite_sound {d : Device} {o : Nat} {v : Word} (h0 : d.sound) : OptSound (Device.queWrite d o v) := by
  unfold Device.queWrite
  with_reducible repeat' first
    | assumption | dsimp only | intro _ | apply Device.queStatWrite_sound | apply Device.queCfgWrite_sound
    | apply Device.setQue_sound | apply optSound_ite | apply optSound_none | apply optSound_some | split

theorem Device.lockTake_sound {d : Device} {n : Nat} {c : Fin 4} (h0 : d.sound) : (Device.lockTake d n c).1.sound := by
  unfold Device.lockTake
  with_reducible repeat' first
    | assumption | dsimp only | apply Device.setLock_sound | split

theorem Device.lockGive_sound {d : Device} {n : Nat} {c : Fin 4} (h0 : d.sound) : (Device.lockGive d n c).sound := by
  unfold Device.lockGive
  with_reducible repeat' first
    | assumption | dsimp only | simp only [sound_mk] | intro _ | apply Device.setLock_sound | apply sound_ite
    | apply And.intro | apply memSound_of | apply pwmSound_of

theorem Device.lockCoreReset_sound {d : Device} {c : Nat} (h0 : d.sound) : (Device.lockCoreReset d c).sound := by
  unfold Device.lockCoreReset
  with_reducible repeat' first
    | assumption | intro _ | apply Device.setLock_sound | apply sound_ite | apply sound_foldl | split

theorem Device.shedErr_sound {d : Device} {who : Who} {x2 : Nat} {k : Nat} (h0 : d.sound) :
    (Device.shedErr d who x2 k).sound := by
  unfold Device.shedErr
  with_reducible repeat' first
    | assumption | dsimp only | simp only [sound_mk] | apply Device.raiseIf_sound | apply Device.hwFlag_sound
    | apply And.intro | apply memSound_of | apply pwmSound_of

theorem Device.shedTake_sound {d : Device} {who : Who} {o : Nat} (h0 : d.sound) :
    (Device.shedTake d who o).1.sound := by
  unfold Device.shedTake
  with_reducible repeat' first
    | assumption | dsimp only | simp only [sound_mk] | apply Device.setBuf_sound | apply Device.shedErr_sound
    | apply And.intro | apply memSound_of | apply pwmSound_of | split

theorem Device.shedAlloc_sound {d : Device} {who : Who} (h0 : d.sound) : (Device.shedAlloc d who).1.sound := by
  unfold Device.shedAlloc
  with_reducible repeat' first
    | assumption | dsimp only | apply Device.shedTake_sound | refine pairSound_mem ‹_› ?_ | split

theorem Device.shedRelease_sound {d : Device} {i : Nat} (h0 : d.sound) : (Device.shedRelease d i).sound := by
  unfold Device.shedRelease
  with_reducible repeat' first
    | assumption | dsimp only | simp only [sound_mk] | apply Device.setBuf_sound | apply And.intro | apply memSound_of
    | apply pwmSound_of

theorem Device.shedDrop_sound {d : Device} {who : Who} {i : Nat} {g : Nat} (h0 : d.sound) :
    (Device.shedDrop d who i g).sound := by
  unfold Device.shedDrop
  with_reducible repeat' first
    | assumption | intro _ | apply Device.shedErr_sound | apply Device.shedRelease_sound | apply sound_ite

theorem Device.shedFree_sound {d : Device} {who : Who} {v : Word} (h0 : d.sound) :
    (Device.shedFree d who v).sound := by
  unfold Device.shedFree
  with_reducible repeat' first
    | assumption | dsimp only | apply Device.shedErr_sound | apply Device.shedRelease_sound | split

theorem Device.shedPass_sound {d : Device} {who : Who} {v : Word} (h0 : d.sound) :
    (Device.shedPass d who v).sound := by
  unfold Device.shedPass
  with_reducible repeat' first
    | assumption | dsimp only | intro _ | apply Device.shedErr_sound | apply Device.setBuf_sound | apply sound_ite
    | split

theorem Device.shedFfree_sound {d : Device} {who : Who} {v : Word} (h0 : d.sound) :
    (Device.shedFfree d who v).sound := by
  unfold Device.shedFfree
  with_reducible repeat' first
    | assumption | dsimp only | intro _ | apply Device.shedErr_sound | apply Device.shedRelease_sound | apply sound_ite

theorem Device.shedLow_sound {d : Device} (h0 : d.sound) : (Device.shedLow d).sound := by
  unfold Device.shedLow
  with_reducible repeat' first
    | assumption | dsimp only | simp only [sound_mk] | apply And.intro | apply memSound_of | apply pwmSound_of

theorem Device.shedWrite_sound {d : Device} {o : Nat} {v : Word} (h0 : d.sound) : OptSound (Device.shedWrite d o v) := by
  unfold Device.shedWrite
  with_reducible repeat' first
    | assumption | dsimp only | simp only [sound_mk] | intro _ | apply Device.flagKept_sound
    | apply Device.shedLow_sound | apply optSound_ite | apply optSound_none | apply optSound_some | apply And.intro | apply memSound_of
    | apply pwmSound_of

end Sys2Proof.Machine
end

