-- ==== Sys2Proof/Laws/SoundMem.lean ====
section
/-! SUPPORT. Each operation of the flash, the link, the swap and the reset controller keeps
the device sound: memory stays canonical and no channel drives both its outputs high. -/
namespace Sys2Proof.Machine

/-! ### Machine/Flash -/

theorem Device.flashKeyWrite_sound {d : Device} {v : Word} (h0 : d.sound) : (Device.flashKeyWrite d v).sound := by
  unfold Device.flashKeyWrite
  with_reducible repeat' first
    | assumption | dsimp only | simp only [sound_mk] | apply And.intro | apply memSound_of | apply pwmSound_of

theorem Device.flashCmdWrite_sound {d : Device} {code : Nat} (h0 : d.sound) : (Device.flashCmdWrite d code).sound := by
  unfold Device.flashCmdWrite
  with_reducible repeat' first
    | assumption | dsimp only | simp only [sound_mk] | intro _ | apply Device.hwFlag_sound | apply sound_ite
    | apply And.intro | apply memSound_of | apply pwmSound_of

theorem Device.eraseRange_sound {d : Device} {lo : Nat} {hi : Nat} (h0 : d.sound) :
    (Device.eraseRange d lo hi).sound := by
  unfold Device.eraseRange
  with_reducible repeat' first
    | assumption | dsimp only | simp only [sound_mk] | simp only [memSound_mk] | apply And.intro | apply cellsSound_keep
    | apply cellsSound_of | apply pwmSound_of

theorem Device.flashApply_sound {d : Device} {code : Nat} {a : Nat} {v : DWord} (h0 : d.sound) :
    (Device.flashApply d code a v).sound := by
  unfold Device.flashApply
  with_reducible repeat' first
    | assumption | apply Device.setEcc_sound | apply Device.wrDw_sound | apply Device.eraseRange_sound | split

theorem Device.flashFinish_sound {d : Device} (h0 : d.sound) : (Device.flashFinish d).sound := by
  unfold Device.flashFinish
  with_reducible repeat' first
    | assumption | dsimp only | simp only [sound_mk] | simp only [memSound_mk] | apply Device.flashApply_sound
    | apply Device.hwFlag_sound | apply And.intro | apply cellsSound_of | apply pwmSound_of | split

theorem Device.flashUndef_sound {d : Device} {code : Nat} {a : Nat} (h0 : d.sound) :
    (Device.flashUndef d code a).sound := by
  unfold Device.flashUndef
  with_reducible repeat' first
    | assumption | dsimp only | simp only [sound_mk] | simp only [memSound_mk] | intro _ | apply Device.fresh_sound
    | apply Device.eraseRange_sound | apply sound_ite | apply And.intro | apply memSound_of | apply cellsSound_of | apply pwmSound_of
    | split

theorem Device.flashCut_sound {d : Device} (h0 : d.sound) : (Device.flashCut d).sound := by
  unfold Device.flashCut
  with_reducible repeat' first
    | assumption | apply Device.flashUndef_sound | split

theorem Device.flashAbortErase_sound {d : Device} (h0 : d.sound) : (Device.flashAbortErase d).sound := by
  unfold Device.flashAbortErase
  with_reducible repeat' first
    | assumption | intro _ | apply Device.flashUndef_sound | apply sound_ite | split

theorem Device.flashWrite_sound {d : Device} {who : Who} {o : Nat} {v : Word} (h0 : d.sound) :
    OptSound (Device.flashWrite d who o v) := by
  unfold Device.flashWrite
  with_reducible repeat' first
    | assumption | dsimp only | simp only [sound_mk] | intro _ | apply Device.mixedWrite_sound
    | apply Device.flashKeyWrite_sound | apply Device.flashCmdWrite_sound | apply optSound_ite | apply optSound_none
    | apply optSound_some | apply And.intro | apply memSound_of | apply pwmSound_of

theorem Device.setLevel_sound {d : Device} {lv : Nat} (h0 : d.sound) : (Device.setLevel d lv).sound := by
  unfold Device.setLevel
  with_reducible repeat' first
    | assumption | dsimp only | simp only [sound_mk] | apply And.intro | apply memSound_of | apply pwmSound_of

theorem Device.fuseLoadAll_sound {d : Device} (h0 : d.sound) : (Device.fuseLoadAll d).sound := by
  unfold Device.fuseLoadAll
  with_reducible repeat' first
    | assumption | dsimp only | simp only [sound_mk] | intro _ | apply Device.setLevel_sound | apply sound_ite
    | apply And.intro | apply memSound_of | apply pwmSound_of

theorem Device.fusePcmd_sound {d : Device} {v : Word} (h0 : d.sound) : (Device.fusePcmd d v).sound := by
  unfold Device.fusePcmd
  with_reducible repeat' first
    | assumption | dsimp only | simp only [sound_mk] | intro _ | apply Device.fresh_sound | apply sound_ite
    | apply And.intro | apply memSound_of | apply pwmSound_of

theorem Device.bootHeader_sound {d : Device} {init : Nat} {b : Nat} (h0 : d.sound) :
    (Device.bootHeader d init b).1.sound := by
  unfold Device.bootHeader
  with_reducible repeat' first
    | assumption | dsimp only | apply Device.physRead_sound

/-! ### Machine/Link -/

theorem Device.linkFlag_sound {d : Device} {i : Nat} (h0 : d.sound) : (Device.linkFlag d i).sound := by
  unfold Device.linkFlag
  with_reducible repeat' first
    | assumption | dsimp only | simp only [sound_mk] | apply Device.flagUp_sound | apply And.intro | apply memSound_of
    | apply pwmSound_of

theorem Device.linkErrfWrite_sound {d : Device} {v : Word} (h0 : d.sound) : (Device.linkErrfWrite d v).sound := by
  unfold Device.linkErrfWrite
  with_reducible repeat' first
    | assumption | dsimp only | simp only [sound_mk] | apply Device.flagKept_sound | apply And.intro | apply memSound_of
    | apply pwmSound_of

theorem Device.linkCount_sound {d : Device} {i : Nat} (h0 : d.sound) : (Device.linkCount d i).sound := by
  unfold Device.linkCount
  with_reducible repeat' first
    | assumption | dsimp only | simp only [sound_mk] | apply And.intro | apply memSound_of | apply pwmSound_of

theorem Device.linkIrq_sound {d : Device} {bit : Nat} {src : Nat} (h0 : d.sound) :
    (Device.linkIrq d bit src).sound := by
  unfold Device.linkIrq
  with_reducible repeat' first
    | assumption | apply Device.raiseIf_sound

theorem Device.setPort_sound {d : Device} {p : Port} {x : PortSt} (h0 : d.sound) : (Device.setPort d p x).sound := by
  unfold Device.setPort
  with_reducible repeat' first
    | assumption | dsimp only | simp only [sound_mk] | apply And.intro | apply memSound_of | apply pwmSound_of

theorem Device.sends_sound {d : Device} {p : Port} {x : Sent} (h0 : d.sound) : (Device.sends d p x).sound := by
  unfold Device.sends
  with_reducible repeat' first
    | assumption | dsimp only | simp only [sound_mk] | apply And.intro | apply memSound_of | apply pwmSound_of

theorem Device.forward_sound {d : Device} {p : Port} {x : Sent} {n : Nat} (h0 : d.sound) :
    (Device.forward d p x n).sound := by
  unfold Device.forward
  with_reducible repeat' first
    | assumption | dsimp only | intro _ | apply Device.sends_sound | apply Device.setPort_sound | apply sound_ite

theorem Device.portDown_sound {d : Device} {p : Port} (h0 : d.sound) : (Device.portDown d p).sound := by
  unfold Device.portDown
  with_reducible repeat' first
    | assumption | dsimp only | simp only [sound_mk] | intro _ | apply Device.sends_sound | apply Device.setPort_sound
    | apply Device.linkIrq_sound | apply Device.linkFlag_sound | apply Device.linkCount_sound | apply sound_ite
    | apply And.intro | apply memSound_of | apply pwmSound_of

theorem Device.portsDown_sound {d : Device} (h0 : d.sound) : (Device.portsDown d).sound := by
  unfold Device.portsDown
  with_reducible repeat' first
    | assumption | apply Device.portDown_sound

theorem Device.endsVoid_sound {d : Device} {p : Port} (h0 : d.sound) : (Device.endsVoid d p).sound := by
  unfold Device.endsVoid
  with_reducible repeat' first
    | assumption | dsimp only | simp only [sound_mk] | apply And.intro | apply memSound_of | apply pwmSound_of

theorem Device.measured_sound {d : Device} {p : Port} {m : Nat} (h0 : d.sound) : (Device.measured d p m).sound := by
  unfold Device.measured
  with_reducible repeat' first
    | assumption | dsimp only | apply Device.fresh_sound | apply Device.setPort_sound

theorem Device.yardEventDue_sound {d : Device} {k : Nat} {t : Int} {hdr : Nat} (h0 : d.sound) :
    (Device.yardEventDue d k t hdr).sound := by
  unfold Device.yardEventDue
  with_reducible repeat' first
    | assumption | dsimp only | simp only [sound_mk] | apply And.intro | apply memSound_of | apply pwmSound_of

theorem Device.syncLost_sound {d : Device} (h0 : d.sound) : (Device.syncLost d).sound := by
  unfold Device.syncLost
  with_reducible repeat' first
    | assumption | dsimp only | simp only [sound_mk] | apply And.intro | apply memSound_of | apply pwmSound_of

theorem Device.addrTake_sound {d : Device} (h0 : d.sound) : (Device.addrTake d).sound := by
  unfold Device.addrTake
  with_reducible repeat' first
    | assumption | dsimp only | simp only [sound_mk] | apply And.intro | apply memSound_of | apply pwmSound_of | split

theorem Device.bytesIn_sound {d : Device} {who : Who} {a : Nat} {n : Nat} (h0 : d.sound) :
    (Device.bytesIn d who a n).1.sound := by
  unfold Device.bytesIn
  with_reducible repeat' first
    | assumption | dsimp only | intro _ | apply Device.memGate_sound | apply Device.shareLine_sound
    | apply Device.physRead_sound | apply Device.tagPass_sound | apply sound_ite | apply pairSound_ite | apply pairSound_foldl
    | refine pairSound_mem ‹_› ?_ | split

theorem Device.bytesOut_sound {d : Device} {who : Who} {x2 : Nat} {x3 : Nat} {x4 : List Byte} (h0 : d.sound) :
    (Device.bytesOut d who x2 x3 x4).sound := by
  induction x2 generalizing d x3 x4 with
  | zero => unfold Device.bytesOut; exact h0
  | succ f ih =>
    cases x4 with
    | nil => unfold Device.bytesOut; exact h0
    | cons b t =>
      unfold Device.bytesOut
      apply sound_ite <;> intro _ <;> exact ih (Device.memWrite_sound h0)

theorem Device.putMem_sound {d : Device} {who : Who} {a : Nat} {l : List Byte} (h0 : d.sound) : (Device.putMem d who
    a l).sound := by
  unfold Device.putMem
  with_reducible repeat' first
    | assumption | intro _ | apply Device.bytesOut_sound | apply Device.workLater_sound | apply sound_ite

theorem Device.linkPush_sound {d : Device} {q : Nat} {v : Word} (h0 : d.sound) : (Device.linkPush d q v).sound := by
  unfold Device.linkPush
  with_reducible repeat' first
    | assumption | intro _ | apply Device.quePush_sound | apply Device.postReq_sound | apply sound_ite

theorem Device.putPush_sound {d : Device} {a : Nat} {l : List Byte} {v : Word} (h0 : d.sound) : (Device.putPush d a l
    v).sound := by
  unfold Device.putPush
  with_reducible repeat' first
    | assumption | intro _ | apply Device.linkPush_sound | apply Device.bytesOut_sound | apply Device.workLater_sound
    | apply sound_ite

theorem Device.setErrand_sound {d : Device} {tag : Byte} {f : Errand → Errand} (h0 : d.sound) :
    (Device.setErrand d tag f).sound := by
  unfold Device.setErrand
  with_reducible repeat' first
    | assumption | dsimp only | simp only [sound_mk] | apply And.intro | apply memSound_of | apply pwmSound_of

theorem Device.errandRelease_sound {d : Device} {tag : Byte} (h0 : d.sound) : (Device.errandRelease d tag).sound := by
  unfold Device.errandRelease
  with_reducible repeat' first
    | assumption | dsimp only | simp only [sound_mk] | apply Device.shedDrop_sound | apply And.intro | apply memSound_of
    | apply pwmSound_of | split

theorem Device.errandsOut_sound {d : Device} (h0 : d.sound) : (Device.errandsOut d).sound := by
  unfold Device.errandsOut
  with_reducible repeat' first
    | assumption | intro _ | apply Device.errandRelease_sound | apply sound_foldl

theorem Device.storeNow_sound {d : Device} {f : ErrFrame} (h0 : d.sound) : (Device.storeNow d f).sound := by
  unfold Device.storeNow
  with_reducible repeat' first
    | assumption | simp only [sound_mk] | apply Device.putMem_sound | apply Device.linkIrq_sound
    | apply Device.shedTake_sound | apply Device.setBuf_sound | apply And.intro | apply memSound_of
    | apply pwmSound_of | split | refine pairSound_mem ‹_› ?_

theorem Device.errandStore_sound {d : Device} {f : ErrFrame} (h0 : d.sound) : (Device.errandStore d f).sound := by
  unfold Device.errandStore
  with_reducible repeat' first
    | assumption | dsimp only | simp only [sound_mk] | intro _ | apply Device.storeNow_sound | apply sound_ite
    | apply And.intro | apply memSound_of | apply pwmSound_of

theorem Device.storesNow_sound {d : Device} (h0 : d.sound) : (Device.storesNow d).sound := by
  unfold Device.storesNow
  with_reducible repeat' first
    | assumption | dsimp only | simp only [sound_mk] | intro _ | apply Device.storeNow_sound | apply And.intro
    | apply memSound_of | apply pwmSound_of | apply sound_foldl | split

theorem Device.reqAct_sound {d : Device} {f : ErrFrame} {ok : Bool} (h0 : d.sound) :
    (Device.reqAct d f ok).1.sound := by
  unfold Device.reqAct
  with_reducible repeat' first
    | assumption | dsimp only | intro _ | apply Device.linkCount_sound | apply Device.shedTake_sound
    | apply Device.errandStore_sound | apply Device.errandRelease_sound | apply sound_ite | apply pairSound_ite | split

theorem Device.holdStop_sound {d : Device} {tag : Byte} (h0 : d.sound) : (Device.holdStop d tag).sound := by
  unfold Device.holdStop
  with_reducible repeat' first
    | assumption | apply Device.setErrand_sound

theorem Device.collectAct_sound {d : Device} {f : ErrFrame} {ok : Bool} (h0 : d.sound) : (Device.collectAct d f
    ok).1.sound := by
  unfold Device.collectAct
  with_reducible repeat' first
    | assumption | dsimp only | apply Device.holdStop_sound | apply Device.setErrand_sound
    | apply Device.bytesIn_sound | apply Device.linkCount_sound | apply Device.countWait_sound | split
    | refine pairSound_mem ‹_› ?_

theorem Device.dropAct_sound {d : Device} {f : ErrFrame} {ok : Bool} (h0 : d.sound) :
    (Device.dropAct d f ok).1.sound := by
  unfold Device.dropAct
  with_reducible repeat' first
    | assumption | dsimp only | intro _ | apply Device.linkCount_sound | apply Device.errandRelease_sound
    | apply sound_ite | split

theorem Device.errandAct_sound {d : Device} {f : ErrFrame} {ok : Bool} (h0 : d.sound) :
    (Device.errandAct d f ok).1.sound := by
  unfold Device.errandAct
  with_reducible repeat' first
    | assumption | dsimp only | intro _ | apply Device.linkFlag_sound | apply Device.linkCount_sound
    | apply Device.reqAct_sound | apply Device.collectAct_sound | apply Device.dropAct_sound | apply pairSound_ite

theorem Device.holdOver_sound {d : Device} {tag : Byte} (h0 : d.sound) : (Device.holdOver d tag).sound := by
  unfold Device.holdOver
  with_reducible repeat' first
    | assumption | apply Device.linkFlag_sound | apply Device.linkCount_sound | apply Device.errandRelease_sound

theorem Device.holdsOver_sound {d : Device} (h0 : d.sound) : (Device.holdsOver d).sound := by
  unfold Device.holdsOver
  with_reducible repeat' first
    | assumption | intro _ | apply Device.holdOver_sound | apply sound_ite | apply sound_foldl

theorem Device.hycfgWrite_sound {d : Device} {k : Nat} {v : Word} (h0 : d.sound) :
    (Device.hycfgWrite d k v).sound := by
  unfold Device.hycfgWrite
  with_reducible repeat' first
    | assumption | dsimp only | intro _ | apply Device.setLv_sound | apply Device.setHdue_sound | apply sound_ite

theorem Device.hperWrite_sound {d : Device} {k : Nat} {v : Word} (h0 : d.sound) : (Device.hperWrite d k v).sound := by
  unfold Device.hperWrite
  with_reducible repeat' first
    | assumption | dsimp only | intro _ | apply Device.setLv_sound | apply Device.setHdue_sound | apply sound_ite

theorem Device.stallOut_sound {d : Device} {k : Nat} {n : Nat} (h0 : d.sound) : (Device.stallOut d k n).1.sound := by
  unfold Device.stallOut
  with_reducible repeat' first
    | assumption | dsimp only | apply Device.bytesIn_sound | apply Device.fresh_sound | refine pairSound_mem ‹_› ?_ | split

theorem Device.headSend_sound {d : Device} {p : Port} {x : Sent} {n : Nat} (h0 : d.sound) :
    (Device.headSend d p x n).sound := by
  unfold Device.headSend
  with_reducible repeat' first
    | assumption | dsimp only | apply Device.sends_sound | apply Device.setPort_sound

theorem Device.probeNow_sound {d : Device} (h0 : d.sound) : (Device.probeNow d).sound := by
  unfold Device.probeNow
  with_reducible repeat' first
    | assumption | dsimp only | simp only [sound_mk] | apply Device.sends_sound | apply And.intro | apply memSound_of
    | apply pwmSound_of | split

theorem Device.yardSend_sound {d : Device} {k : Nat} {t : Nat} (h0 : d.sound) : (Device.yardSend d k t).sound := by
  unfold Device.yardSend
  with_reducible repeat' first
    | assumption | dsimp only | simp only [sound_mk] | intro _ | apply Device.probeNow_sound
    | apply Device.setHdue_sound | apply Device.advTo_sound | apply Device.stallOut_sound
    | apply Device.headSend_sound | apply Device.yardEventDue_sound | apply Device.linkIrq_sound | apply sound_ite
    | apply And.intro | apply memSound_of | apply pwmSound_of

theorem Device.yardReturn_sound {d : Device} {p : Port} {f : YardFrame} (h0 : d.sound) :
    (Device.yardReturn d p f).sound := by
  unfold Device.yardReturn
  with_reducible repeat' first
    | assumption | dsimp only | simp only [sound_mk] | intro _ | apply Device.linkFlag_sound
    | apply Device.linkCount_sound | apply Device.putMem_sound | apply sound_ite | apply And.intro | apply memSound_of
    | apply pwmSound_of

theorem Device.queWordCheck_sound {d : Device} {q : Nat} {i : Nat} (h0 : d.sound) :
    (Device.queWordCheck d q i).1.sound := by
  unfold Device.queWordCheck
  with_reducible repeat' first
    | assumption | dsimp only | apply Device.countCe_sound | apply Device.setEcc_sound | apply Device.countUe_sound
    | split

theorem Device.popBy_sound {d : Device} {q : Nat} {i : Nat} (h0 : d.sound) : (Device.popBy d q i).1.sound := by
  unfold Device.popBy
  with_reducible repeat' first
    | assumption | dsimp only | intro _ | apply Device.queWordCheck_sound | apply Device.quePop_sound
    | apply Device.queFlag_sound | apply sound_ite | apply pairSound_ite

theorem Device.errandLost_sound {d : Device} {h : Nat} (h0 : d.sound) : (Device.errandLost d h).sound := by
  unfold Device.errandLost
  with_reducible repeat' first
    | assumption | apply Device.linkPush_sound | apply Device.linkCount_sound | apply Device.linkFlag_sound

theorem Device.errandSend_sound {d : Device} (h0 : d.sound) : (Device.errandSend d).sound := by
  unfold Device.errandSend
  with_reducible repeat' first
    | assumption | simp only [sound_mk] | apply Device.errandLost_sound | apply Device.popBy_sound
    | apply Device.probeNow_sound | apply Device.headSend_sound | apply Device.bytesIn_sound | apply And.intro
    | apply memSound_of | apply pwmSound_of | split | refine pairSound_mem ‹_› ?_

theorem Device.returnOver_sound {d : Device} {x : HeadErr} (h0 : d.sound) : (Device.returnOver d x).sound := by
  unfold Device.returnOver
  with_reducible repeat' first
    | assumption | dsimp only | simp only [sound_mk] | intro _ | apply Device.linkPush_sound
    | apply Device.linkFlag_sound | apply Device.linkCount_sound | apply sound_ite | apply And.intro | apply memSound_of
    | apply pwmSound_of

theorem Device.yardEvent_sound {d : Device} {k : Nat} (h0 : d.sound) : (Device.yardEvent d k).sound := by
  unfold Device.yardEvent
  with_reducible repeat' first
    | assumption | apply Device.linkIrq_sound | apply Device.raiseEvent_sound

theorem Device.rcForward_sound {d : Device} {p : Port} {s1 : RcSet} {s2 : RcSet} (h0 : d.sound) :
    (Device.rcForward d p s1 s2).sound := by
  unfold Device.rcForward
  with_reducible repeat' first
    | assumption | dsimp only | intro _ | apply Device.sends_sound | apply sound_ite

theorem Device.hrstWrite_sound {d : Device} {v : Word} (h0 : d.sound) : (Device.hrstWrite d v).sound := by
  unfold Device.hrstWrite
  with_reducible repeat' first
    | assumption | dsimp only | intro _ | apply Device.sends_sound | apply sound_ite

theorem Device.linkWrite_sound {d : Device} {who : Who} {o : Nat} {v : Word} (h0 : d.sound) :
    OptSound (Device.linkWrite d who o v) := by
  unfold Device.linkWrite
  with_reducible repeat' first
    | assumption | dsimp only | simp only [sound_mk] | intro _ | apply Device.mixedWrite_sound
    | apply Device.linkErrfWrite_sound | apply Device.hycfgWrite_sound | apply Device.hperWrite_sound
    | apply Device.hrstWrite_sound | apply sound_ite | apply optSound_ite | apply optSound_none | apply optSound_some | apply And.intro
    | apply memSound_of | apply pwmSound_of

theorem Device.linkReset_sound {d : Device} (h0 : d.sound) : (Device.linkReset d).sound := by
  unfold Device.linkReset
  with_reducible repeat' first
    | assumption | dsimp only | simp only [sound_mk] | apply Device.errandsOut_sound | apply And.intro | apply memSound_of
    | apply pwmSound_of

/-! ### Machine/Swap -/

theorem Device.shadowTouched_sound {d : Device} (h0 : d.sound) : (Device.shadowTouched d).sound := by
  unfold Device.shadowTouched
  with_reducible repeat' first
    | assumption | dsimp only | simp only [sound_mk] | intro _ | apply sound_ite | apply And.intro | apply memSound_of
    | apply pwmSound_of

theorem Device.putShadow_sound {d : Device} {a : Nat} {v : Word} (h0 : d.sound) : (Device.putShadow d a v).sound := by
  unfold Device.putShadow
  with_reducible repeat' first
    | assumption | dsimp only | simp only [sound_mk] | intro _ | apply Device.note_sound | apply Device.setEcc_sound
    | apply Device.shadowTouched_sound | apply sound_ite | apply And.intro | apply memSound_of | apply pwmSound_of

theorem Device.setShadow_sound {d : Device} {a : Nat} {v : Word} (h0 : d.sound) : (Device.setShadow d a v).sound := by
  unfold Device.setShadow
  with_reducible repeat' first
    | assumption | dsimp only | intro _ | apply Device.putShadow_sound | apply sound_ite | apply sound_foldl | split

theorem Device.swapRefuse_sound {d : Device} {codes : List Nat} (h0 : d.sound) :
    (Device.swapRefuse d codes).sound := by
  unfold Device.swapRefuse
  with_reducible repeat' first
    | assumption | dsimp only | simp only [sound_mk] | apply Device.raiseIrq_sound | apply And.intro | apply memSound_of
    | apply pwmSound_of

theorem Device.swapArm_sound {d : Device} (h0 : d.sound) : (Device.swapArm d).sound := by
  unfold Device.swapArm
  with_reducible repeat' first
    | assumption | dsimp only | simp only [sound_mk] | intro _ | apply Device.swapRefuse_sound | apply sound_ite
    | apply And.intro | apply memSound_of | apply pwmSound_of

theorem Device.leEccCopy_sound {d : Device} {toActive : Bool} (h0 : d.sound) :
    (Device.leEccCopy d toActive).sound := by
  unfold Device.leEccCopy
  with_reducible repeat' first
    | assumption | dsimp only | simp only [sound_mk] | simp only [memSound_mk] | apply And.intro | apply cellsSound_of
    | apply pwmSound_of

theorem Device.swapDiscard_sound {d : Device} (h0 : d.sound) : (Device.swapDiscard d).sound := by
  unfold Device.swapDiscard
  with_reducible repeat' first
    | assumption | simp only [sound_mk] | apply Device.leEccCopy_sound | apply And.intro | apply memSound_of | apply pwmSound_of

theorem Device.swapRearm_sound {d : Device} (h0 : d.sound) : (Device.swapRearm d).sound := by
  unfold Device.swapRearm
  with_reducible repeat' first
    | assumption | dsimp only | simp only [sound_mk] | apply Device.hwFlag_sound | apply And.intro | apply memSound_of
    | apply pwmSound_of

theorem Device.swapCmd_sound {d : Device} {v : Word} (h0 : d.sound) : (Device.swapCmd d v).sound := by
  unfold Device.swapCmd
  with_reducible repeat' first
    | assumption | dsimp only | simp only [sound_mk] | intro _ | apply Device.swapArm_sound
    | apply Device.swapRearm_sound | apply Device.swapDiscard_sound | apply sound_ite | apply And.intro | apply memSound_of
    | apply pwmSound_of | split

theorem Device.bankMiss_sound {d : Device} (h0 : d.sound) : (Device.bankMiss d).1.sound := by
  unfold Device.bankMiss
  with_reducible repeat' first
    | assumption | dsimp only | intro _ | apply Device.bootHeader_sound | apply pairSound_ite

theorem Device.liveCodes_sound {d : Device} (h0 : d.sound) : (Device.liveCodes d).1.sound := by
  unfold Device.liveCodes
  with_reducible repeat' first
    | assumption | dsimp only | apply Device.bankMiss_sound

theorem Device.checkEcc_sound {d : Device} (h0 : d.sound) : (Device.checkEcc d).1.sound := by
  unfold Device.checkEcc
  with_reducible repeat' first
    | assumption | dsimp only | intro _ | apply Device.countCe_sound | apply Device.setEcc_sound
    | apply Device.countUe_sound | apply pairSound_foldl | split

theorem Device.checksDone_sound {d : Device} (h0 : d.sound) : (Device.checksDone d).sound := by
  unfold Device.checksDone
  with_reducible repeat' first
    | assumption | dsimp only | simp only [sound_mk] | intro _ | apply Device.liveCodes_sound
    | apply Device.checkEcc_sound | apply Device.swapRefuse_sound | apply sound_ite | apply And.intro | apply memSound_of
    | apply pwmSound_of

theorem Device.swapSns_sound {d : Device} {old : Nat → Word} {n : Nat} (h0 : d.sound) :
    (Device.swapSns d old n).sound := by
  unfold Device.swapSns
  with_reducible repeat' first
    | assumption | dsimp only | apply Device.setSns_sound | apply Device.cmpBoth_sound | apply Device.rawMoved_sound
    | apply Device.cmpSense_sound

theorem Device.swapTrk_sound {d : Device} {old : Nat → Word} {n : Nat} (h0 : d.sound) :
    (Device.swapTrk d old n).sound := by
  unfold Device.swapTrk
  with_reducible repeat' first
    | assumption | intro _ | apply Device.trkRef_sound | apply sound_ite

theorem Device.swapPwm_sound {d : Device} {old : Nat → Word} {n : Nat} (h0 : d.sound) :
    (Device.swapPwm d old n).sound := by
  unfold Device.swapPwm
  with_reducible repeat' first
    | assumption | dsimp only | intro _ | apply Device.toTrip_sound | apply Device.boundaryAgain_sound
    | apply Device.boundary_sound | apply sound_ite | split

theorem Device.swapSlot_sound {d : Device} {old : Nat → Word} {n : Nat} (h0 : d.sound) :
    (Device.swapSlot d old n).sound := by
  unfold Device.swapSlot
  with_reducible repeat' first
    | assumption | dsimp only | intro _ | apply Device.setSlot_sound | apply sound_ite

theorem Device.swapArena_sound {d : Device} {a : Nat} (h0 : d.sound) : (Device.swapArena d a).sound := by
  unfold Device.swapArena
  with_reducible repeat' first
    | assumption | dsimp only | intro _ | apply Device.arenaSelect_sound | apply Device.setSlot_sound | apply sound_ite

theorem Device.hwWrite_sound {d : Device} {a : Nat} {n : Nat} {v : Nat} (h0 : d.sound) :
    (Device.hwWrite d a n v).sound := by
  unfold Device.hwWrite
  with_reducible repeat' first
    | assumption | intro _ | apply Device.physWrite_sound | apply Device.killLine_sound | apply sound_ite

theorem Device.handRecord_sound {d : Device} {c : Nat} {how : Nat} (h0 : d.sound) :
    (Device.handRecord d c how).sound := by
  unfold Device.handRecord
  with_reducible repeat' first
    | assumption | dsimp only | apply Device.hwWrite_sound

theorem Device.exchange_sound {d : Device} {oldB : Nat} {newB : Nat} {entry : Word} {stack : Word} (h0 : d.sound) :
    (Device.exchange d oldB newB entry stack).sound := by
  unfold Device.exchange
  with_reducible repeat' first
    | assumption | dsimp only | intro _ | apply Device.hwWrite_sound | apply Device.handRecord_sound
    | apply Device.setLv_sound | apply Device.setCore_sound | apply sound_ite | apply sound_foldl

theorem Device.swapNow_sound {d : Device} (h0 : d.sound) : (Device.swapNow d).sound := by
  unfold Device.swapNow
  with_reducible repeat' first
    | assumption | simp only [sound_mk] | intro _ | apply Device.exchange_sound | apply Device.swapArena_sound
    | apply Device.swapSlot_sound | apply Device.swapPwm_sound | apply Device.swapTrk_sound
    | apply Device.swapSns_sound | apply Device.leEccCopy_sound | apply Device.bootHeader_sound
    | apply Device.swapRoutes_sound | apply Device.gpFollow_sound | apply Device.deliverOld_sound
    | apply Device.loseSync_sound | apply Device.raiseIrq_sound | apply Device.note_sound | apply And.intro
    | apply memSound_of | apply pwmSound_of | apply sound_foldl | split | refine pairSound_mem ‹_› ?_

theorem Device.swapPoint_sound {d : Device} {codes : List Nat} (h0 : d.sound) : (Device.swapPoint d codes).sound := by
  unfold Device.swapPoint
  with_reducible repeat' first
    | assumption | dsimp only | intro _ | apply Device.liveCodes_sound | apply Device.swapRefuse_sound
    | apply Device.swapNow_sound | apply sound_ite

theorem Device.swapDue_sound {d : Device} (h0 : d.sound) : (Device.swapDue d).sound := by
  unfold Device.swapDue
  with_reducible repeat' first
    | assumption | dsimp only | intro _ | apply Device.swapPoint_sound | apply sound_ite | split

theorem Device.shadowPut_sound {d : Device} {l : List (Nat × Word × Ecc)} (h0 : d.sound) :
    (Device.shadowPut d l).sound := by
  unfold Device.shadowPut
  with_reducible repeat' first
    | assumption | dsimp only | simp only [sound_mk] | intro _ | apply Device.setEcc_sound | apply sound_ite
    | apply And.intro | apply memSound_of | apply pwmSound_of | apply sound_foldl

theorem Device.unwritten_sound {d : Device} (h0 : d.sound) : (Device.unwritten d).sound := by
  unfold Device.unwritten
  with_reducible repeat' first
    | assumption | dsimp only | simp only [sound_mk] | apply Device.shadowPut_sound | apply And.intro | apply memSound_of
    | apply pwmSound_of

theorem Device.swapTick_sound {d : Device} (h0 : d.sound) : (Device.swapTick d).sound := by
  unfold Device.swapTick
  with_reducible repeat' first
    | assumption | dsimp only | intro _ | apply Device.swapDue_sound | apply Device.unwritten_sound
    | apply Device.shadowPut_sound | apply Device.lockRoute_sound | apply sound_ite | apply sound_foldl

theorem Device.swapIdle_sound {d : Device} (h0 : d.sound) : (Device.swapIdle d).sound := by
  unfold Device.swapIdle
  with_reducible repeat' first
    | assumption | intro _ | apply Device.swapTick_sound | apply sound_ite

theorem Device.yardRaise_sound {d : Device} {x : YardEv} (h0 : d.sound) : (Device.yardRaise d x).sound := by
  unfold Device.yardRaise
  with_reducible repeat' first
    | assumption | dsimp only | simp only [sound_mk] | intro _ | apply Device.yardEvent_sound
    | apply Device.linkFlag_sound | apply Device.note_sound | apply sound_ite | apply And.intro | apply memSound_of
    | apply pwmSound_of

theorem Device.swapWrite_sound {d : Device} {o : Nat} {v : Word} (h0 : d.sound) : OptSound (Device.swapWrite d o v) := by
  unfold Device.swapWrite
  with_reducible repeat' first
    | assumption | dsimp only | simp only [sound_mk] | intro _ | apply Device.swapCmd_sound | apply optSound_ite
    | apply optSound_none | apply optSound_some | apply And.intro | apply memSound_of | apply pwmSound_of

/-! ### Machine/Halt -/

theorem Device.owlSync_sound {d : Device} (h0 : d.sound) : (Device.owlSync d).sound := by
  unfold Device.owlSync
  with_reducible repeat' first
    | assumption | dsimp only | simp only [sound_mk] | apply And.intro | apply memSound_of | apply pwmSound_of

theorem Device.owlStart_sound {d : Device} (h0 : d.sound) : (Device.owlStart d).sound := by
  unfold Device.owlStart
  with_reducible repeat' first
    | assumption | dsimp only | simp only [sound_mk] | apply Device.raiseIf_sound | apply And.intro | apply memSound_of
    | apply pwmSound_of

theorem Device.dbgEvt_sound {d : Device} {i : Nat} (h0 : d.sound) : (Device.dbgEvt d i).sound := by
  unfold Device.dbgEvt
  with_reducible repeat' first
    | assumption | dsimp only | simp only [sound_mk] | apply Device.flagUp_sound | apply And.intro | apply memSound_of
    | apply pwmSound_of

theorem Device.freezeStart_sound {d : Device} (h0 : d.sound) : (Device.freezeStart d).sound := by
  unfold Device.freezeStart
  with_reducible repeat' first
    | assumption | dsimp only | simp only [sound_mk] | intro _ | apply Device.dbgEvt_sound | apply sound_ite
    | apply And.intro | apply memSound_of | apply pwmSound_of

theorem Device.freezeEnd_sound {d : Device} (h0 : d.sound) : (Device.freezeEnd d).sound := by
  unfold Device.freezeEnd
  with_reducible repeat' first
    | assumption | dsimp only | simp only [sound_mk] | simp only [chSound_mk] | intro _ | apply Device.pwmC_sound
    | apply Device.setPwm_sound | apply Device.toTrip_sound | apply Device.slotsResume_sound | apply sound_ite
    | apply And.intro | apply hlSound_of | apply memSound_of | apply pwmSound_of | apply sound_foldl

theorem Device.tapShow_sound {d : Device} {cells : Tab (BitVec 3)} (h0 : d.sound) : (Device.tapShow d cells).sound :=
    by
  unfold Device.tapShow
  with_reducible repeat' first
    | assumption | dsimp only | simp only [sound_mk] | simp only [memSound_mk] | apply Device.freezeStart_sound
    | apply And.intro | apply memSound_of | apply cellsSound_of | apply cellsSound_set | apply cellsSound_keep
    | apply pwmSound_of

theorem Device.tapApply_sound {d : Device} (h0 : d.sound) : (Device.tapApply d).sound := by
  unfold Device.tapApply
  with_reducible repeat' first
    | assumption | dsimp only | simp only [sound_mk] | simp only [memSound_mk] | intro _ | apply Device.tapShow_sound
    | apply And.intro | apply memSound_of | apply cellsSound_of | apply cellsSound_set | apply cellsSound_keep
    | apply pwmSound_of | split

theorem Device.tapAgain_sound {d : Device} (h0 : d.sound) : (Device.tapAgain d).sound := by
  unfold Device.tapAgain
  with_reducible repeat' first
    | assumption | intro _ | apply Device.tapApply_sound | apply sound_ite

theorem Device.haltCore_sound {d : Device} {c : Nat} {k : Nat} (h0 : d.sound) : (Device.haltCore d c k).sound := by
  unfold Device.haltCore
  with_reducible repeat' first
    | assumption | dsimp only | intro _ | apply Device.setCore_sound | apply Device.setDbgC_sound
    | apply Device.owlSync_sound | apply Device.dbgEvt_sound | apply Device.freezeStart_sound | apply sound_ite

theorem Device.startHalt_sound {d : Device} {c : Nat} (h0 : d.sound) : (Device.startHalt d c).sound := by
  unfold Device.startHalt
  with_reducible repeat' first
    | assumption | intro _ | apply Device.haltCore_sound | apply Device.owlSync_sound | apply sound_ite

/-! ### Machine/Rst -/

theorem Device.rwReset_sound {d : Device} {p : Nat → Bool} (h0 : d.sound) : (Device.rwReset d p).sound := by
  unfold Device.rwReset
  with_reducible repeat' first
    | assumption | simp only [sound_mk] | apply And.intro | apply memSound_of | apply pwmSound_of

theorem Device.setsReset_sound {d : Device} {p : Nat → Bool} (h0 : d.sound) : (Device.setsReset d p).sound := by
  unfold Device.setsReset
  with_reducible repeat' first
    | assumption | simp only [sound_mk] | apply And.intro | apply memSound_of | apply pwmSound_of

theorem Device.blockReset_sound {d : Device} {b : Nat} (h0 : d.sound) : (Device.blockReset d b).sound := by
  unfold Device.blockReset
  with_reducible repeat' first
    | assumption | dsimp only | apply Device.setsReset_sound | apply Device.rwReset_sound

theorem Device.snsReset_sound {d : Device} (h0 : d.sound) : (Device.snsReset d).sound := by
  unfold Device.snsReset
  with_reducible repeat' first
    | assumption | dsimp only | simp only [sound_mk] | apply And.intro | apply memSound_of | apply pwmSound_of

theorem Device.trkReset_sound {d : Device} (h0 : d.sound) : (Device.trkReset d).sound := by
  unfold Device.trkReset
  with_reducible repeat' first
    | assumption | dsimp only | simp only [sound_mk] | apply And.intro | apply memSound_of | apply pwmSound_of

theorem Device.pwmReset_sound {d : Device} {unit : Bool} (h0 : d.sound) : (Device.pwmReset d unit).sound := by
  unfold Device.pwmReset
  with_reducible repeat' first
    | assumption | simp only [sound_mk] | simp only [chSound_mk] | intro _ | apply And.intro | apply pwmSound_nil
    | apply pwmSound_set | apply hlSound_low | apply memSound_of | apply pwmSound_foldl

theorem Device.leReset_sound {d : Device} (h0 : d.sound) : (Device.leReset d).sound := by
  unfold Device.leReset
  with_reducible repeat' first
    | assumption | dsimp only | simp only [sound_mk] | intro _ | apply Device.slotsOff_sound
    | apply Device.tripAll_sound | apply sound_ite | apply And.intro | apply memSound_of | apply pwmSound_of

theorem Device.unitState_sound {d : Device} {u : Nat} (h0 : d.sound) : (Device.unitState d u).sound := by
  unfold Device.unitState
  with_reducible repeat' first
    | assumption | simp only [sound_mk] | apply Device.evrUnitReset_sound | apply Device.dmaUnitReset_sound
    | apply Device.levelsChanged_sound | apply Device.snsReset_sound | apply Device.trkReset_sound
    | apply Device.pwmReset_sound | apply Device.leReset_sound | apply Device.linkReset_sound | apply And.intro
    | apply memSound_of | apply pwmSound_of | split

theorem Device.unitReset1_sound {d : Device} {u : Nat} (h0 : d.sound) : (Device.unitReset1 d u).sound := by
  unfold Device.unitReset1
  with_reducible repeat' first
    | assumption | dsimp only | simp only [sound_mk] | intro _ | apply Device.note_sound
    | apply Device.unitState_sound | apply Device.blockReset_sound | apply Device.setPend_sound
    | apply Device.withdrawCheck_sound | apply sound_ite | apply And.intro | apply memSound_of | apply pwmSound_of | apply sound_foldl

theorem Device.unitResetWrite_sound {d : Device} {v : Word} (h0 : d.sound) : (Device.unitResetWrite d v).sound := by
  unfold Device.unitResetWrite
  with_reducible repeat' first
    | assumption | intro _ | apply Device.unitReset1_sound | apply sound_foldl

theorem Device.causeIn_sound {d : Device} {bits : Word} (h0 : d.sound) : (Device.causeIn d bits).sound := by
  unfold Device.causeIn
  with_reducible repeat' first
    | assumption | dsimp only | simp only [sound_mk] | apply And.intro | apply memSound_of | apply pwmSound_of

theorem Device.causeLate_sound {d : Device} {bits : Word} (h0 : d.sound) : (Device.causeLate d bits).sound := by
  unfold Device.causeLate
  with_reducible repeat' first
    | assumption | intro _ | apply Device.causeIn_sound | apply sound_ite

theorem Device.engDrop_sound {d : Device} {c : Nat} (h0 : d.sound) : (Device.engDrop d c).sound := by
  unfold Device.engDrop
  with_reducible repeat' first
    | assumption | simp only [sound_mk] | apply Device.engDone_sound | apply And.intro | apply memSound_of | apply pwmSound_of

theorem Device.coreReset1_sound {d : Device} {c : Nat} (h0 : d.sound) : (Device.coreReset1 d c).sound := by
  unfold Device.coreReset1
  with_reducible repeat' first
    | assumption | dsimp only | simp only [sound_mk] | intro _ | apply Device.causeLate_sound
    | apply Device.hwFlag_sound | apply Device.causeIn_sound | apply Device.intcCoreReset_sound
    | apply Device.dmaCoreReset_sound | apply Device.lockCoreReset_sound | apply Device.owlSync_sound
    | apply Device.engDrop_sound | apply Device.setCore_sound | apply sound_ite | apply And.intro | apply memSound_of
    | apply pwmSound_of

theorem Device.coreResets_sound {d : Device} {m : Nat} (h0 : d.sound) : (Device.coreResets d m).sound := by
  unfold Device.coreResets
  with_reducible repeat' first
    | assumption | intro _ | apply Device.coreReset1_sound | apply sound_foldl

theorem Device.startCore_sound {d : Device} {c : Nat} {pc : Word} {sp : Word} (h0 : d.sound) :
    (Device.startCore d c pc sp).sound := by
  unfold Device.startCore
  with_reducible repeat' first
    | assumption | apply Device.startHalt_sound | apply Device.setCore_sound

theorem Device.coreReset2_sound {d : Device} {c : Nat} (h0 : d.sound) : (Device.coreReset2 d c).sound := by
  unfold Device.coreReset2
  with_reducible repeat' first
    | assumption | dsimp only | apply Device.lockCoreReset_sound | apply Device.dmaCoreReset_sound
    | apply Device.cachesOut_sound | apply Device.intcCoreReset_sound | apply Device.setCore_sound

theorem Device.holdWrite_sound {d : Device} {x1 : BitVec 4} (h0 : d.sound) : (Device.holdWrite d x1).sound := by
  unfold Device.holdWrite
  with_reducible repeat' first
    | assumption | dsimp only | simp only [sound_mk] | intro _ | apply Device.startCore_sound | apply sound_ite
    | apply And.intro | apply memSound_of | apply pwmSound_of | apply sound_foldl

theorem Device.corectlWrite_sound {d : Device} {v : Word} (h0 : d.sound) : (Device.corectlWrite d v).sound := by
  unfold Device.corectlWrite
  with_reducible repeat' first
    | assumption | apply Device.coreResets_sound | apply Device.holdWrite_sound

theorem Device.unitsReset_sound {d : Device} (h0 : d.sound) : (Device.unitsReset d).sound := by
  unfold Device.unitsReset
  with_reducible repeat' first
    | assumption | dsimp only | simp only [sound_mk] | simp only [memSound_mk] | intro _ | apply Device.linkReset_sound
    | apply Device.evictsOut_sound | apply Device.setsReset_sound | apply Device.rwReset_sound
    | apply Device.leReset_sound | apply Device.pwmReset_sound | apply Device.trkReset_sound
    | apply Device.snsReset_sound | apply Device.evrUnitReset_sound | apply And.intro | apply cellsSound_of | apply pwmSound_of
    | apply sound_foldl

theorem Device.pwrReset_sound {d : Device} {wake : Bool} (h0 : d.sound) : (Device.pwrReset d wake).sound := by
  unfold Device.pwrReset
  with_reducible repeat' first
    | assumption | dsimp only | simp only [sound_mk] | apply And.intro | apply memSound_of | apply pwmSound_of

theorem Device.coresStop_sound {d : Device} (h0 : d.sound) : (Device.coresStop d).sound := by
  unfold Device.coresStop
  with_reducible repeat' first
    | assumption | dsimp only | intro _ | apply Device.setCore_sound | apply sound_foldl

theorem Device.warmStart_sound {d : Device} {bits : Word} {off : Bool} (h0 : d.sound) :
    (Device.warmStart d bits off).sound := by
  unfold Device.warmStart
  with_reducible repeat' first
    | assumption | dsimp only | simp only [sound_mk] | apply Device.owlSync_sound | apply Device.causeIn_sound
    | apply Device.flashAbortErase_sound | apply Device.mergeFlushAll_sound | apply Device.episodeEnd_sound
    | apply Device.setLv_sound | apply Device.leReset_sound | apply Device.pwmReset_sound
    | apply Device.coresStop_sound | apply Device.pwrReset_sound | apply And.intro | apply memSound_of | apply pwmSound_of

theorem Device.warmRequest_sound {d : Device} {bits : Word} (h0 : d.sound) : (Device.warmRequest d bits).sound := by
  unfold Device.warmRequest
  with_reducible repeat' first
    | assumption | apply Device.warmStart_sound | apply Device.causeIn_sound | apply Device.causeLate_sound | split

theorem Device.setBank_sound {d : Device} {b : Nat} (h0 : d.sound) : (Device.setBank d b).sound := by
  unfold Device.setBank
  with_reducible repeat' first
    | assumption | simp only [sound_mk] | apply And.intro | apply memSound_of | apply pwmSound_of

theorem Device.bootFrom_sound {d : Device} {b : Nat} {alt : Bool} {entry : Word} {stack : Word} (h0 : d.sound) :
    (Device.bootFrom d b alt entry stack).sound := by
  unfold Device.bootFrom
  with_reducible repeat' first
    | assumption | dsimp only | simp only [sound_mk] | apply Device.setLv_sound | apply Device.setBank_sound
    | apply Device.startCore_sound | apply And.intro | apply memSound_of | apply pwmSound_of

theorem Device.bootFail_sound {d : Device} {b : Nat} {alt : Bool} (h0 : d.sound) :
    (Device.bootFail d b alt).sound := by
  unfold Device.bootFail
  with_reducible repeat' first
    | assumption | dsimp only | simp only [sound_mk] | apply Device.setBank_sound | apply Device.setCore_sound
    | apply And.intro | apply memSound_of | apply pwmSound_of

theorem Device.boot_sound {d : Device} {b : Nat} (h0 : d.sound) : (Device.boot d b).sound := by
  unfold Device.boot
  with_reducible repeat' first
    | assumption | intro _ | apply Device.bootHeader_sound | apply Device.bootFrom_sound | apply Device.bootFail_sound
    | apply sound_ite | refine pairSound_mem ‹_› ?_ | split

theorem Device.owlBoot_sound {d : Device} (h0 : d.sound) : (Device.owlBoot d).sound := by
  unfold Device.owlBoot
  with_reducible repeat' first
    | assumption | intro _ | apply Device.owlStart_sound | apply Device.setLv_sound | apply sound_ite

theorem Device.resetEnd_sound {d : Device} {b : Nat} (h0 : d.sound) : (Device.resetEnd d b).sound := by
  unfold Device.resetEnd
  with_reducible repeat' first
    | assumption | dsimp only | simp only [sound_mk] | apply Device.owlBoot_sound | apply Device.boot_sound
    | apply Device.tapAgain_sound | apply Device.setLevel_sound | apply Device.softRefresh_sound
    | apply Device.safeTrips_sound | apply Device.levelsChanged_sound | apply Device.setLv_sound | apply And.intro
    | apply memSound_of | apply pwmSound_of

theorem Device.coldDevice_sound {d : Device} {cause : Word} (h0 : d.sound) : (Device.coldDevice d cause).sound := by
  unfold Device.coldDevice
  with_reducible repeat' first
    | assumption | dsimp only | simp only [sound_mk] | simp only [memSound_mk] | apply And.intro | apply cellsSound_keep
    | apply pwmSound_nil | apply cellsSound_of

theorem Device.fuseCut_sound {d : Device} (h0 : d.sound) : (Device.fuseCut d).sound := by
  unfold Device.fuseCut
  with_reducible repeat' first
    | assumption | dsimp only | simp only [sound_mk] | apply Device.fresh_sound | apply And.intro | apply memSound_of
    | apply pwmSound_of | split

theorem Device.coldStart_sound {d : Device} {bits : Word} (h0 : d.sound) : (Device.coldStart d bits).sound := by
  unfold Device.coldStart
  with_reducible repeat' first
    | assumption | apply Device.coldDevice_sound | apply Device.fuseCut_sound | apply Device.flashCut_sound
    | apply Device.episodeEnd_sound | apply Device.ledgerCut_sound | split

theorem Device.vcoreFault_sound {d : Device} (h0 : d.sound) : (Device.vcoreFault d).sound := by
  unfold Device.vcoreFault
  with_reducible repeat' first
    | assumption | intro _ | apply Device.coldStart_sound | apply sound_ite

theorem Device.coldSentinel_sound {d : Device} (h0 : d.sound) : (Device.coldSentinel d).sound := by
  unfold Device.coldSentinel
  with_reducible repeat' first
    | assumption | dsimp only | simp only [sound_mk] | intro _ | apply Device.sentinelCheck_sound | apply sound_ite
    | apply And.intro | apply memSound_of | apply pwmSound_of

theorem Device.coldClock_sound {d : Device} (h0 : d.sound) : (Device.coldClock d).sound := by
  unfold Device.coldClock
  with_reducible repeat' first
    | assumption | dsimp only | simp only [sound_mk] | intro _ | apply Device.raiseIrq_sound | apply sound_ite
    | apply And.intro | apply memSound_of | apply pwmSound_of

theorem Device.offUnits_sound {d : Device} (h0 : d.sound) : (Device.offUnits d).sound := by
  unfold Device.offUnits
  with_reducible repeat' first
    | assumption | dsimp only | simp only [sound_mk] | apply Device.leReset_sound | apply Device.pwmReset_sound
    | apply Device.trkReset_sound | apply Device.snsReset_sound | apply Device.linkReset_sound | apply And.intro
    | apply memSound_of | apply pwmSound_of

theorem Device.offEnter_sound {d : Device} (h0 : d.sound) : (Device.offEnter d).sound := by
  unfold Device.offEnter
  with_reducible repeat' first
    | assumption | dsimp only | simp only [sound_mk] | apply Device.offUnits_sound | apply Device.portsDown_sound
    | apply Device.tripAll_sound | apply Device.mergeFlushAll_sound | apply Device.episodeEnd_sound | apply And.intro
    | apply memSound_of | apply pwmSound_of

theorem Device.offLoses_sound {d : Device} (h0 : d.sound) : (Device.offLoses d).sound := by
  unfold Device.offLoses
  with_reducible repeat' first
    | assumption | dsimp only | simp only [sound_mk] | simp only [memSound_mk] | apply And.intro | apply cellsSound_keep
    | apply cellsSound_of | apply pwmSound_of

theorem Device.offEnd_sound {d : Device} {bits : Word} {src : Word} (h0 : d.sound) :
    (Device.offEnd d bits src).sound := by
  unfold Device.offEnd
  with_reducible repeat' first
    | assumption | dsimp only | simp only [sound_mk] | apply Device.offLoses_sound | apply Device.warmStart_sound
    | apply And.intro | apply memSound_of | apply pwmSound_of

theorem Device.swrstWrite_sound {d : Device} {v : Word} (h0 : d.sound) : (Device.swrstWrite d v).sound := by
  unfold Device.swrstWrite
  with_reducible repeat' first
    | assumption | intro _ | apply Device.warmRequest_sound | apply sound_ite

theorem Device.owlKick_sound {d : Device} {v : Word} (h0 : d.sound) : (Device.owlKick d v).sound := by
  unfold Device.owlKick
  with_reducible repeat' first
    | assumption | dsimp only | simp only [sound_mk] | intro _ | apply Device.warmRequest_sound
    | apply Device.owlStart_sound | apply sound_ite | apply And.intro | apply memSound_of | apply pwmSound_of

theorem Device.owlCtlWrite_sound {d : Device} {who : Who} {v : Word} (h0 : d.sound) :
    (Device.owlCtlWrite d who v).sound := by
  unfold Device.owlCtlWrite
  with_reducible repeat' first
    | assumption | dsimp only | simp only [sound_mk] | intro _ | apply Device.lockViolation_sound
    | apply Device.setLv_sound | apply Device.owlStart_sound | apply Device.owlSync_sound | apply sound_ite
    | apply And.intro | apply memSound_of | apply pwmSound_of

theorem Device.owlFieldWrite_sound {d : Device} {who : Who} {a : Nat} {v : Word} (h0 : d.sound) :
    (Device.owlFieldWrite d who a v).sound := by
  unfold Device.owlFieldWrite
  with_reducible repeat' first
    | assumption | intro _ | apply Device.lockViolation_sound | apply Device.setLv_sound | apply sound_ite

theorem Device.pincfgWrite_sound {d : Device} {p : Nat} {v : Word} (h0 : d.sound) :
    (Device.pincfgWrite d p v).sound := by
  unfold Device.pincfgWrite
  with_reducible repeat' first
    | assumption | dsimp only | simp only [sound_mk] | intro _ | apply Device.setLv_sound | apply sound_ite
    | apply And.intro | apply memSound_of | apply pwmSound_of

theorem Device.rstWrite_sound {d : Device} {who : Who} {o : Nat} {v : Word} (h0 : d.sound) :
    OptSound (Device.rstWrite d who o v) := by
  unfold Device.rstWrite
  with_reducible repeat' first
    | assumption | dsimp only | simp only [sound_mk] | intro _ | apply Device.swrstWrite_sound
    | apply Device.corectlWrite_sound | apply Device.unitResetWrite_sound | apply Device.owlCtlWrite_sound
    | apply Device.owlFieldWrite_sound | apply Device.owlKick_sound | apply Device.pincfgWrite_sound | apply sound_ite
    | apply optSound_ite | apply optSound_none | apply optSound_some | apply And.intro | apply memSound_of | apply pwmSound_of

/-! ### Machine/PwrEv -/

theorem Device.belowAction_sound {d : Device} (h0 : d.sound) : (Device.belowAction d).sound := by
  unfold Device.belowAction
  with_reducible repeat' first
    | assumption | dsimp only | simp only [sound_mk] | apply Device.parkRequest_sound | apply Device.note_sound
    | apply Device.safeTrips_sound | apply Device.warmRequest_sound | apply And.intro | apply memSound_of | apply pwmSound_of
    | split

theorem Device.rampLag_sound {d : Device} (h0 : d.sound) : (Device.rampLag d).sound := by
  unfold Device.rampLag
  with_reducible repeat' first
    | assumption | intro _ | apply Device.warmLag_sound | apply sound_ite

theorem Device.paceLoad_sound {d : Device} {count : Nat} {refc : Nat} {temp : Byte} (h0 : d.sound) :
    (Device.paceLoad d count refc temp).sound := by
  unfold Device.paceLoad
  with_reducible repeat' first
    | assumption | dsimp only | simp only [sound_mk] | apply And.intro | apply memSound_of | apply pwmSound_of

theorem Device.windowEnd_sound {d : Device} {count : Nat} {refc : Nat} {temp : Byte} (h0 : d.sound) :
    (Device.windowEnd d count refc temp).sound := by
  unfold Device.windowEnd
  with_reducible repeat' first
    | assumption | dsimp only | intro _ | apply Device.paceLoad_sound | apply Device.advTo_sound
    | apply Device.rampLag_sound | apply Device.rampStep_sound | apply Device.paceLoop_sound
    | apply Device.paceDetect_sound | apply Device.belowAction_sound | apply sound_ite

theorem Device.windowLate_sound {d : Device} {count : Nat} (h0 : d.sound) : (Device.windowLate d count).sound := by
  unfold Device.windowLate
  with_reducible repeat' first
    | assumption | dsimp only | simp only [sound_mk] | intro _ | apply Device.causeIn_sound | apply sound_ite
    | apply And.intro | apply memSound_of | apply pwmSound_of | split

theorem Device.sleepNoop_sound {d : Device} {c : Nat} {src : Word} (h0 : d.sound) :
    (Device.sleepNoop d c src).sound := by
  unfold Device.sleepNoop
  with_reducible repeat' first
    | assumption | dsimp only | simp only [sound_mk] | apply Device.hwFlag_sound | apply Device.owlSync_sound
    | apply Device.setCore_sound | apply And.intro | apply memSound_of | apply pwmSound_of

theorem Device.startHeld_sound {d : Device} (h0 : d.sound) : (Device.startHeld d).sound := by
  unfold Device.startHeld
  with_reducible repeat' first
    | assumption | intro _ | apply Device.startCore_sound | apply sound_ite | apply sound_foldl

end Sys2Proof.Machine
end

