-- ==== Sys2Proof/Laws/SoundCore.lean ====
section
/-! SUPPORT. Each operation of the cores, the debug port, the object dictionary, the register blocks and the tick keeps
the device sound: memory stays canonical and no channel drives both its outputs high. -/
namespace Sys2Proof.Machine

/-! ### Machine/CoreRegs -/

theorem Device.sysRead_sound {d : Device} {c : Nat} {n : Nat} (h0 : d.sound) : (Device.sysRead d c n).1.sound := by
  unfold Device.sysRead
  with_reducible repeat' first
    | assumption | dsimp only | intro _ | apply Device.setCore_sound | apply sound_ite

theorem Device.sysWrite_sound {d : Device} {c : Nat} {n : Nat} {v : Word} {dbg : Bool} (h0 : d.sound) :
    (Device.sysWrite d c n v dbg).sound := by
  unfold Device.sysWrite
  with_reducible repeat' first
    | assumption | intro _ | apply Device.cacheOp_sound | apply Device.setCore_sound | apply sound_ite

/-! ### Machine/Dbg -/

theorem Device.tapCode_sound {d : Device} {code : BitVec 5} (h0 : d.sound) : (Device.tapCode d code).sound := by
  unfold Device.tapCode
  with_reducible repeat' first
    | assumption | dsimp only | simp only [sound_mk] | apply And.intro | apply memSound_of | apply pwmSound_of

theorem Device.tapDrives_sound {d : Device} {code : BitVec 5} (h0 : d.sound) : (Device.tapDrives d code).sound := by
  unfold Device.tapDrives
  with_reducible repeat' first
    | assumption | dsimp only | simp only [sound_mk] | intro _ | apply Device.tapCode_sound
    | apply Device.tapApply_sound | apply sound_ite | apply And.intro | apply memSound_of | apply pwmSound_of

theorem Device.tapLoad_sound {d : Device} {code : BitVec 5} (h0 : d.sound) : (Device.tapLoad d code).sound := by
  unfold Device.tapLoad
  with_reducible repeat' first
    | assumption | dsimp only | simp only [sound_mk] | apply Device.tapCode_sound | apply And.intro
    | apply memSound_of | apply pwmSound_of

theorem Device.tool_sound {d : Device} {ok : Bool} {f : Device → Device} (h0 : d.sound)
    (h2 : ∀ y0, y0.sound → (f y0).sound) : (Device.tool d ok f).sound := by
  unfold Device.tool
  with_reducible repeat' first
    | assumption | dsimp only | simp only [sound_mk] | intro _ | apply h2 | apply sound_ite | apply And.intro
    | apply memSound_of | apply pwmSound_of

theorem Device.authStart_sound {d : Device} {lv : Nat} (h0 : d.sound) : (Device.authStart d lv).sound := by
  unfold Device.authStart
  with_reducible repeat' first
    | assumption | dsimp only | simp only [sound_mk] | intro _ | apply Device.fresh_sound | apply sound_ite
    | apply And.intro | apply memSound_of | apply pwmSound_of

theorem Device.newChal_sound {d : Device} (h0 : d.sound) : (Device.newChal d).sound := by
  unfold Device.newChal
  with_reducible repeat' first
    | assumption | dsimp only | simp only [sound_mk] | intro _ | apply Device.fresh_sound | apply sound_ite
    | apply And.intro | apply memSound_of | apply pwmSound_of

theorem Device.authDropNow_sound {d : Device} (h0 : d.sound) : (Device.authDropNow d).sound := by
  unfold Device.authDropNow
  with_reducible repeat' first
    | assumption | apply Device.setLevel_sound

theorem Device.authResult_sound {d : Device} {lv : Nat} {ok : Bool} (h0 : d.sound) :
    (Device.authResult d lv ok).sound := by
  unfold Device.authResult
  with_reducible repeat' first
    | assumption | dsimp only | simp only [sound_mk] | intro _ | apply Device.setLevel_sound
    | apply Device.dbgEvt_sound | apply Device.tapAgain_sound | apply sound_ite | apply And.intro | apply memSound_of
    | apply pwmSound_of

theorem Device.bpHalt_sound {d : Device} {c : Nat} {b : Nat} (h0 : d.sound) : (Device.bpHalt d c b).sound := by
  unfold Device.bpHalt
  with_reducible repeat' first
    | assumption | dsimp only | apply Device.haltCore_sound | apply Device.setDbgC_sound

theorem Device.haltOrBp_sound {d : Device} {c : Nat} {k : Nat} (h0 : d.sound) : (Device.haltOrBp d c k).sound := by
  unfold Device.haltOrBp
  with_reducible repeat' first
    | assumption | apply Device.bpHalt_sound | apply Device.haltCore_sound | split

theorem Device.haltAsk_sound {d : Device} {c : Nat} (h0 : d.sound) : (Device.haltAsk d c).sound := by
  unfold Device.haltAsk
  with_reducible repeat' first
    | assumption | dsimp only | intro _ | apply Device.haltOrBp_sound | apply Device.setCore_sound | apply sound_ite
    | split

theorem Device.resumeCore_sound {d : Device} {c : Nat} (h0 : d.sound) : (Device.resumeCore d c).sound := by
  unfold Device.resumeCore
  with_reducible repeat' first
    | assumption | dsimp only | intro _ | apply Device.owlSync_sound | apply Device.setCore_sound | apply sound_ite

theorem Device.stepCore_sound {d : Device} {c : Nat} (h0 : d.sound) : (Device.stepCore d c).sound := by
  unfold Device.stepCore
  with_reducible repeat' first
    | assumption | dsimp only | intro _ | apply Device.owlSync_sound | apply Device.setCore_sound | apply sound_ite

theorem Device.cctlWrite_sound {d : Device} {c : Nat} {v : Word} (h0 : d.sound) : (Device.cctlWrite d c v).sound := by
  unfold Device.cctlWrite
  with_reducible repeat' first
    | assumption | dsimp only | intro _ | apply Device.setLv_sound | apply Device.coreReset1_sound
    | apply Device.haltAsk_sound | apply Device.resumeCore_sound | apply Device.stepCore_sound | apply sound_ite

theorem Device.toolFull_sound {d : Device} {f : Device → Device} (h0 : d.sound) (h1 : ∀ y0, y0.sound → (f y0).sound) :
    (Device.toolFull d f).sound := by
  unfold Device.toolFull
  with_reducible repeat' first
    | assumption | apply Device.tool_sound

theorem Device.sysrst_sound {d : Device} {v : Word} (h0 : d.sound) : (Device.sysrst d v).sound := by
  unfold Device.sysrst
  with_reducible repeat' first
    | assumption | intro _ | apply Device.warmRequest_sound | apply sound_ite

theorem Device.sysrstLate_sound {d : Device} {v : Word} (h0 : d.sound) : (Device.sysrstLate d v).sound := by
  unfold Device.sysrstLate
  with_reducible repeat' first
    | assumption | intro _ | apply Device.tool_sound | apply Device.causeIn_sound | apply sound_ite

theorem Device.cregErr_sound {d : Device} {c : Nat} (h0 : d.sound) : (Device.cregErr d c).sound := by
  unfold Device.cregErr
  with_reducible repeat' first
    | assumption | dsimp only | apply Device.hwFlag_sound | apply Device.setDbgC_sound

theorem Device.cregRead_sound {d : Device} {c : Nat} (h0 : d.sound) : (Device.cregRead d c).1.sound := by
  unfold Device.cregRead
  with_reducible repeat' first
    | assumption | dsimp only | intro _ | apply Device.cregErr_sound | apply Device.sysRead_sound
    | apply Device.fresh_sound | apply pairSound_ite

theorem Device.cregWrite_sound {d : Device} {c : Nat} {v : Word} (h0 : d.sound) : (Device.cregWrite d c v).sound := by
  unfold Device.cregWrite
  with_reducible repeat' first
    | assumption | dsimp only | intro _ | apply Device.cregErr_sound | apply Device.setCore_sound
    | apply Device.engDrop_sound | apply Device.sysWrite_sound | apply sound_ite

theorem Device.toolData_sound {r : Device × Word} (h0 : r.1.sound) : (Device.toolData r).sound := by
  unfold Device.toolData
  with_reducible repeat' first
    | assumption | dsimp only | simp only [sound_mk] | apply And.intro | apply memSound_of | apply pwmSound_of

theorem Device.unfreezeNow_sound {d : Device} (h0 : d.sound) : (Device.unfreezeNow d).sound := by
  unfold Device.unfreezeNow
  with_reducible repeat' first
    | assumption | dsimp only | simp only [sound_mk] | intro _ | apply Device.freezeEnd_sound | apply sound_ite
    | apply And.intro | apply memSound_of | apply pwmSound_of

theorem Device.freezeNow_sound {d : Device} (h0 : d.sound) : (Device.freezeNow d).sound := by
  unfold Device.freezeNow
  with_reducible repeat' first
    | assumption | dsimp only | simp only [sound_mk] | apply Device.freezeStart_sound | apply And.intro | apply memSound_of
    | apply pwmSound_of

theorem Device.dbgFreezeWrite_sound {d : Device} {v : Word} (h0 : d.sound) : (Device.dbgFreezeWrite d v).sound := by
  unfold Device.dbgFreezeWrite
  with_reducible repeat' first
    | assumption | dsimp only | simp only [sound_mk] | intro _ | apply Device.freezeNow_sound
    | apply Device.unfreezeNow_sound | apply sound_ite | apply And.intro | apply memSound_of | apply pwmSound_of

theorem Device.mcmd_sound {d : Device} {cmd : Nat} {size : Nat} {inc : Bool} (h0 : d.sound) :
    (Device.mcmd d cmd size inc).sound := by
  unfold Device.mcmd
  with_reducible repeat' first
    | assumption | dsimp only | simp only [sound_mk] | intro _ | apply Device.hwFlag_sound
    | apply Device.engWait_sound | apply sound_ite | apply And.intro | apply memSound_of | apply pwmSound_of

theorem Device.toolWindow_sound {d : Device} {f : Device → Device} (h0 : d.sound)
    (h1 : ∀ y0, y0.sound → (f y0).sound) : (Device.toolWindow d f).sound := by
  unfold Device.toolWindow
  with_reducible repeat' first
    | assumption | apply Device.tool_sound

theorem Device.dbgWrite_sound {d : Device} {o : Nat} {v : Word} (h0 : d.sound) : OptSound (Device.dbgWrite d o v) := by
  unfold Device.dbgWrite
  with_reducible repeat' first
    | assumption | dsimp only | simp only [sound_mk] | intro _ | apply Device.authStart_sound
    | apply Device.newChal_sound | apply Device.authDropNow_sound | apply Device.dbgFreezeWrite_sound
    | apply Device.sysrst_sound | apply Device.flagKept_sound | apply Device.mcmd_sound | apply Device.cctlWrite_sound
    | apply Device.setDbgC_sound | apply Device.cregWrite_sound | apply optSound_ite | apply optSound_none | apply optSound_some
    | apply And.intro | apply memSound_of | apply pwmSound_of | split

theorem Device.dbgRead_sound {d : Device} {o : Nat} (h0 : d.sound) : OptPairSound (Device.dbgRead d o) := by
  unfold Device.dbgRead
  with_reducible repeat' first
    | assumption | dsimp only | intro _ | apply Device.cregRead_sound | apply optPairSound_ite | apply optPairSound_none
    | apply optPairSound_some | split

theorem Device.dbgPut_sound {d : Device} {o : Nat} {v : Word} (h0 : d.sound) : (Device.dbgPut d o v).sound := by
  unfold Device.dbgPut
  with_reducible repeat' first
    | assumption | apply Device.dbgWrite_sound | apply Device.setLv_sound | refine optSound_mem ‹_› ?_ | split

theorem Device.dbgGet_sound {d : Device} {o : Nat} (h0 : d.sound) : (Device.dbgGet d o).1.sound := by
  unfold Device.dbgGet
  with_reducible repeat' first
    | assumption | apply Device.dbgRead_sound | refine optPairSound_mem' ‹_› ?_ | split

/-! ### Machine/Pins -/

theorem Device.padShown_sound {d : Device} {p : Nat} {x : PinOut} (h0 : d.sound) : (Device.padShown d p x).sound :=
    by
  unfold Device.padShown
  with_reducible repeat' first
    | assumption | dsimp only | simp only [sound_mk] | intro _ | apply Device.padTakes_sound | apply sound_ite
    | apply And.intro | apply memSound_of | apply pwmSound_of

/-! ### Machine/Time -/

theorem Device.nextTick_sound {d : Device} (h0 : d.sound) : (Device.nextTick d).sound := by
  unfold Device.nextTick
  with_reducible repeat' first
    | assumption | dsimp only | intro _ | apply Device.padShown_sound | apply Device.hardNow_sound
    | apply Device.advTo_sound | apply sound_foldl

theorem Device.skipTo_sound {d : Device} {t : Nat} (h0 : d.sound) : (Device.skipTo d t).sound := by
  unfold Device.skipTo
  with_reducible repeat' first
    | assumption | dsimp only | intro _ | apply Device.nextTick_sound | apply Device.advTo_sound | apply sound_ite

/-! ### Machine/Od -/

theorem Device.odFlag_sound {d : Device} {i : Nat} (h0 : d.sound) : (Device.odFlag d i).sound := by
  unfold Device.odFlag
  with_reducible repeat' first
    | assumption | dsimp only | simp only [sound_mk] | apply Device.hwFlag_sound | apply And.intro | apply memSound_of
    | apply pwmSound_of

theorem Device.bufTo_sound {d : Device} {e : Errand} {o : Nat} (h0 : d.sound) : (Device.bufTo d e o).sound := by
  unfold Device.bufTo
  with_reducible repeat' first
    | assumption | dsimp only | intro _ | apply Device.setBuf_sound | apply sound_ite

theorem Device.odPass_sound {d : Device} {e : Errand} (h0 : d.sound) : (Device.odPass d e).sound := by
  unfold Device.odPass
  with_reducible repeat' first
    | assumption | apply Device.setErrand_sound | apply Device.bufTo_sound

theorem Device.odCount_sound {d : Device} (h0 : d.sound) : (Device.odCount d).sound := by
  unfold Device.odCount
  with_reducible repeat' first
    | assumption | dsimp only | simp only [sound_mk] | apply And.intro | apply memSound_of | apply pwmSound_of

theorem Device.odRefused_sound {d : Device} {e : Errand} {code : Nat} (h0 : d.sound) :
    (Device.odRefused d e code).sound := by
  unfold Device.odRefused
  with_reducible repeat' first
    | assumption | dsimp only | simp only [sound_mk] | apply Device.raiseIrq_sound | apply Device.odFlag_sound
    | apply And.intro | apply memSound_of | apply pwmSound_of

theorem Device.odReply_sound {d : Device} {e : Errand} {code : Nat} {out : List Byte} (h0 : d.sound) :
    (Device.odReply d e code out).sound := by
  unfold Device.odReply
  with_reducible repeat' first
    | assumption | dsimp only | intro _ | apply Device.putMem_sound | apply Device.odRefused_sound
    | apply Device.odCount_sound | apply Device.odPass_sound | apply sound_ite

theorem Device.forwardDone_sound {d : Device} {e : Errand} {drop : Bool} (h0 : d.sound) : (Device.forwardDone d e
    drop).sound := by
  unfold Device.forwardDone
  with_reducible repeat' first
    | assumption | dsimp only | simp only [sound_mk] | intro _ | apply Device.odReply_sound | apply Device.bufTo_sound
    | apply Device.odFlag_sound | apply Device.setErrand_sound | apply Device.raiseIrq_sound | apply sound_ite
    | apply And.intro | apply memSound_of | apply pwmSound_of

theorem Device.odForward_sound {d : Device} {e : Errand} (h0 : d.sound) : (Device.odForward d e).sound := by
  unfold Device.odForward
  with_reducible repeat' first
    | assumption | dsimp only | simp only [sound_mk] | intro _ | apply Device.forwardDone_sound
    | apply Device.bufTo_sound | apply Device.quePush_sound | apply Device.engDone_sound | apply Device.addJoin_sound
    | apply Device.engWait_sound | apply sound_ite | apply And.intro | apply memSound_of | apply pwmSound_of | split

theorem Device.answerTake_sound {d : Device} {e : Errand} (h0 : d.sound) : (Device.answerTake d e).sound := by
  unfold Device.answerTake
  with_reducible repeat' first
    | assumption | apply Device.odReply_sound | apply Device.odCount_sound | apply Device.odPass_sound
    | apply Device.bytesIn_sound | split | refine pairSound_mem ‹_› ?_

theorem Device.odAnswer_sound {d : Device} {who : Who} {v : Word} (h0 : d.sound) : (Device.odAnswer d who v).sound :=
    by
  unfold Device.odAnswer
  with_reducible repeat' first
    | assumption | dsimp only | simp only [sound_mk] | intro _ | apply Device.answerTake_sound
    | apply Device.odFlag_sound | apply Device.setErrand_sound | apply Device.workLater_sound | apply sound_ite
    | apply And.intro | apply memSound_of | apply pwmSound_of | split

theorem Device.workGo_sound {d : Device} {w : LinkWork} (h0 : d.sound) : (Device.workGo d w).sound := by
  unfold Device.workGo
  with_reducible repeat' first
    | assumption | dsimp only | simp only [sound_mk] | intro _ | apply Device.answerTake_sound
    | apply Device.errandStore_sound | apply Device.linkPush_sound | apply Device.bytesOut_sound | apply And.intro
    | apply memSound_of | apply pwmSound_of | split

theorem Device.workFree_sound {d : Device} {i : Nat} (h0 : d.sound) : (Device.workFree d i).sound := by
  unfold Device.workFree
  with_reducible repeat' first
    | assumption | dsimp only | simp only [sound_mk] | intro _ | apply Device.workGo_sound | apply sound_ite
    | apply And.intro | apply memSound_of | apply pwmSound_of | split

theorem Device.odTimeout_sound {d : Device} {e : Errand} (h0 : d.sound) : (Device.odTimeout d e).sound := by
  unfold Device.odTimeout
  with_reducible repeat' first
    | assumption | apply Device.odReply_sound | apply Device.odFlag_sound | apply Device.bufTo_sound

theorem Device.odWrite_sound {d : Device} {who : Who} {o : Nat} {v : Word} (h0 : d.sound) :
    OptSound (Device.odWrite d who o v) := by
  unfold Device.odWrite
  with_reducible repeat' first
    | assumption | dsimp only | simp only [sound_mk] | intro _ | apply Device.odAnswer_sound | apply optSound_ite
    | apply optSound_none | apply optSound_some | apply And.intro | apply memSound_of | apply pwmSound_of

/-! ### Machine/Regs -/

theorem Device.sysBlkWrite_sound {d : Device} {o : Nat} {v : Word} (h0 : d.sound) :
    OptSound (Device.sysBlkWrite d o v) := by
  unfold Device.sysBlkWrite
  with_reducible repeat' first
    | assumption | dsimp only | simp only [sound_mk] | intro _ | apply Device.swapWrite_sound | apply optSound_ite
    | apply optSound_none | apply optSound_some | apply And.intro | apply memSound_of | apply pwmSound_of

theorem Device.popReg_sound {d : Device} {who : Who} {q : Nat} (h0 : d.sound) : (Device.popReg d who q).1.sound := by
  unfold Device.popReg
  with_reducible repeat' first
    | assumption | dsimp only | apply Device.popBy_sound

theorem Device.peekReg_sound {d : Device} {who : Who} {q : Nat} (h0 : d.sound) : (Device.peekReg d who q).1.sound := by
  unfold Device.peekReg
  with_reducible repeat' first
    | assumption | dsimp only | intro _ | apply Device.queWordCheck_sound | apply Device.queFlag_sound | apply pairSound_ite

theorem Device.takeReg_sound {d : Device} {who : Who} {n : Nat} (h0 : d.sound) : (Device.takeReg d who n).1.sound := by
  unfold Device.takeReg
  with_reducible repeat' first
    | assumption | dsimp only | apply Device.lockTake_sound | split

theorem accOk_sound {r : Device × Word} (h0 : r.1.sound) : (accOk r).1.sound := by
  unfold accOk
  with_reducible assumption

theorem Device.effectRead_sound {d : Device} {who : Who} {b : Nat} {o : Nat} (h0 : d.sound) :
    OptPairSound (Device.effectRead d who b o) := by
  unfold Device.effectRead
  with_reducible repeat' first
    | assumption | dsimp only | intro _ | apply accOk_sound | apply Device.tbaseRead_sound | apply Device.popReg_sound
    | apply Device.peekReg_sound | apply Device.takeReg_sound | apply Device.shedAlloc_sound
    | apply Device.claim_sound | apply Device.capture_sound | apply Device.dbgGet_sound | apply optPairSound_ite
    | apply optPairSound_none | apply optPairSound_some | apply optPairSound_map

theorem Device.setRead_sound {d : Device} {who : Who} {s : Nat} {act : Bool} (h0 : d.sound) :
    (Device.setRead d who s act).1.sound := by
  unfold Device.setRead
  with_reducible repeat' first
    | assumption | dsimp only | intro _ | apply Device.countCe_sound | apply Device.setEcc_sound
    | apply Device.countUe_sound | apply pairSound_ite | split

theorem Device.valueRead_sound {d : Device} {b : Nat} {o : Nat} (h0 : d.sound) : (Device.valueRead d b o).1.sound := by
  unfold Device.valueRead
  with_reducible repeat' first
    | assumption | dsimp only | intro _ | apply Device.fresh_sound | apply pairSound_ite

theorem Device.regLoad_sound {d : Device} {who : Who} {a : Nat} (h0 : d.sound) : (Device.regLoad d who a).1.sound := by
  unfold Device.regLoad
  with_reducible repeat' first
    | assumption | dsimp only | intro _ | apply Device.setRead_sound | apply Device.effectRead_sound
    | apply Device.valueRead_sound | apply pairSound_ite | refine optPairSound_mem' ‹_› ?_ | split

theorem Device.intcPut_sound {d : Device} {o : Nat} {v : Word} (h0 : d.sound) : OptSound (Device.intcPut d o v) := by
  unfold Device.intcPut
  with_reducible repeat' first
    | assumption | dsimp only | simp only [sound_mk] | intro _ | apply Device.complete_sound
    | apply Device.raiseIf_sound | apply Device.intcWrite_sound | apply optSound_ite | apply optSound_some | apply And.intro
    | apply memSound_of | apply pwmSound_of

theorem Device.quePut_sound {d : Device} {o : Nat} {v : Word} (h0 : d.sound) : OptSound (Device.quePut d o v) := by
  unfold Device.quePut
  with_reducible repeat' first
    | assumption | intro _ | apply Device.quePush_sound | apply Device.queWrite_sound | apply optSound_ite | apply optSound_some

theorem Device.lockPut_sound {d : Device} {who : Who} {o : Nat} {v : Word} (h0 : d.sound) :
    OptSound (Device.lockPut d who o v) := by
  unfold Device.lockPut
  with_reducible repeat' first
    | assumption | dsimp only | simp only [sound_mk] | intro _ | apply Device.lockGive_sound | apply optSound_ite
    | apply optSound_none | apply optSound_some | apply And.intro | apply memSound_of | apply pwmSound_of | split

theorem Device.shedPut_sound {d : Device} {who : Who} {o : Nat} {v : Word} (h0 : d.sound) :
    OptSound (Device.shedPut d who o v) := by
  unfold Device.shedPut
  with_reducible repeat' first
    | assumption | intro _ | apply Device.shedFree_sound | apply Device.shedPass_sound | apply Device.shedFfree_sound
    | apply Device.shedWrite_sound | apply optSound_ite | apply optSound_some

theorem Device.fusePut_sound {d : Device} {o : Nat} {v : Word} (h0 : d.sound) : OptSound (Device.fusePut d o v) := by
  unfold Device.fusePut
  with_reducible repeat' first
    | assumption | intro _ | apply Device.fusePcmd_sound | apply optSound_ite | apply optSound_none | apply optSound_some

theorem Device.unitWrite_sound {d : Device} {who : Who} {b : Nat} {o : Nat} {v : Word} (h0 : d.sound) :
    OptSound (Device.unitWrite d who b o v) := by
  unfold Device.unitWrite
  with_reducible repeat' first
    | assumption | intro _ | apply Device.sysBlkWrite_sound | apply Device.pwrWrite_sound
    | apply Device.rstWrite_sound | apply Device.tbaseWrite_sound | apply Device.rtcWrite_sound
    | apply Device.intcPut_sound | apply Device.evrWrite_sound | apply Device.dmaWrite_sound
    | apply Device.quePut_sound | apply Device.shedPut_sound | apply Device.lockPut_sound
    | apply Device.memRegWrite_sound | apply Device.flashWrite_sound | apply Device.fusePut_sound
    | apply Device.snsWrite_sound | apply Device.trkWrite_sound | apply Device.pwmWrite_sound
    | apply Device.leWrite_sound | apply Device.linkWrite_sound | apply Device.odWrite_sound
    | apply Device.dbgPut_sound | apply optSound_ite | apply optSound_none | apply optSound_some

theorem Device.plainWrite_sound {d : Device} {b : Nat} {o : Nat} {v : Word} (h0 : d.sound) :
    (Device.plainWrite d b o v).sound := by
  unfold Device.plainWrite
  with_reducible repeat' first
    | assumption | apply Device.setLv_sound | split

theorem Device.regStore_sound {d : Device} {who : Who} {a : Nat} {v : Word} (h0 : d.sound) :
    (Device.regStore d who a v).sound := by
  unfold Device.regStore
  with_reducible repeat' first
    | assumption | dsimp only | intro _ | apply Device.lockViolation_sound | apply Device.setShadow_sound
    | apply Device.unitWrite_sound | apply Device.plainWrite_sound | apply sound_ite | refine optSound_mem ‹_› ?_ | split

theorem Device.putReg_sound {d : Device} {r : Req} {who : Who} {a : Nat} {v : Word} (h0 : d.sound) :
    (Device.putReg d r who a v).1.sound := by
  unfold Device.putReg
  with_reducible repeat' first
    | assumption | dsimp only | intro _ | apply Device.domViolation_sound | apply Device.regStore_sound
    | apply pairSound_ite | split

theorem Device.writeReg_sound {d : Device} {who : Who} {a : Nat} {v : Word} (h0 : d.sound) :
    (Device.writeReg d who a v).1.sound := by
  unfold Device.writeReg
  with_reducible repeat' first
    | assumption | apply Device.putReg_sound

theorem Device.getReg_sound {d : Device} {r : Req} {who : Who} {a : Nat} (h0 : d.sound) :
    (Device.getReg d r who a).1.sound := by
  unfold Device.getReg
  with_reducible repeat' first
    | assumption | dsimp only | intro _ | apply Device.domViolation_sound | apply Device.regLoad_sound | apply pairSound_ite
    | split

theorem Device.readReg_sound {d : Device} {who : Who} {a : Nat} (h0 : d.sound) : (Device.readReg d who a).1.sound := by
  unfold Device.readReg
  with_reducible repeat' first
    | assumption | apply Device.getReg_sound

/-! ### Machine/Bus -/

theorem Device.narrow_sound {d : Device} {who : Who} {a : Nat} {wr : Bool} (h0 : d.sound) :
    (Device.narrow d who a wr).1.sound := by
  unfold Device.narrow
  with_reducible repeat' first
    | assumption | dsimp only | intro _ | apply Device.domViolation_sound | apply pairSound_ite | split

theorem Device.busRead_sound {d : Device} {who : Who} {a : Nat} {n : Nat} (h0 : d.sound) :
    (Device.busRead d who a n).1.sound := by
  unfold Device.busRead
  with_reducible repeat' first
    | assumption | dsimp only | intro _ | apply Device.engDone_sound | apply Device.readReg_sound
    | apply Device.narrow_sound | apply Device.memRead_sound | apply pairSound_ite | split

theorem Device.busWrite_sound {d : Device} {who : Who} {a : Nat} {n : Nat} {v : Nat} (h0 : d.sound) :
    (Device.busWrite d who a n v).1.sound := by
  unfold Device.busWrite
  with_reducible repeat' first
    | assumption | dsimp only | intro _ | apply Device.engDone_sound | apply Device.writeReg_sound
    | apply Device.narrow_sound | apply Device.memWrite_sound | apply pairSound_ite | split

theorem Device.engHold_sound {d : Device} {i : Nat} {x2 : Hold} (h0 : d.sound) : (Device.engHold d i x2).sound := by
  unfold Device.engHold
  with_reducible repeat' first
    | assumption | apply Device.engWait_sound | apply Device.addJoin_sound | split

theorem Device.post_sound {d : Device} {who : Who} {a : Nat} {v : Word} (h0 : d.sound) : (Device.post d who a
    v).sound := by
  unfold Device.post
  with_reducible repeat' first
    | assumption | apply Device.postReq_sound

theorem Device.mirrorPut_sound {d : Device} {n : Nat} {a : Nat} {w0 : Word} {w1 : Word} (h0 : d.sound) :
    (Device.mirrorPut d n a w0 w1).sound := by
  unfold Device.mirrorPut
  with_reducible repeat' first
    | assumption | dsimp only | apply Device.setSlot_sound | apply Device.busWrite_sound | apply Device.leFlag_sound
    | refine pairSound_mem ‹_› ?_ | split

theorem Device.dmaFetch_sound {d : Device} {k : Fin 16} (h0 : d.sound) : (Device.dmaFetch d k).sound := by
  have hr : (d.busRead (.dma k) (d.dmaC k).readAt (esize (d.dmaC k).cfg)).1.sound := Device.busRead_sound h0
  unfold Device.dmaFetch
  dsimp only
  generalize d.busRead (.dma k) (d.dmaC k).readAt (esize (d.dmaC k).cfg) = p at hr ⊢
  obtain ⟨e, a⟩ := p
  cases a with
  | wait => exact h0
  | ok v => exact Device.setDma_sound hr
  | bus s => exact Device.setDma_sound hr
  | dom s => exact Device.setDma_sound hr

theorem Device.dmaFill_sound {d : Device} {k : Fin 16} {room : Nat} {x3 : Nat} (h0 : d.sound) :
    (Device.dmaFill d k room x3).sound := by
  induction x3 generalizing d with
  | zero => unfold Device.dmaFill; exact h0
  | succ n ih =>
    unfold Device.dmaFill
    apply sound_ite <;> intro _
    · exact ih (Device.dmaFetch_sound h0)
    · exact h0

theorem Device.dmaPut_sound {d : Device} {k : Fin 16} {v : Word} (h0 : d.sound) : (Device.dmaPut d k v).sound := by
  unfold Device.dmaPut
  dsimp only
  have hr := Device.busWrite_sound (who := .dma k) (a := (d.dmaC k).cdst.toNat) (n := esize (d.dmaC k).cfg) (v := v.toNat)
    (Device.setDma_sound (k := k.val) (c := { d.dmaC k with buf := (d.dmaC k).buf.drop 1 }) h0)
  generalize Device.busWrite _ _ _ _ _ = p at hr ⊢
  obtain ⟨e, a⟩ := p
  cases a with
  | wait =>
    dsimp only
    split
    · exact Device.addJoin_sound h0
    · exact h0
  | ok x => exact sound_ite (fun _ => Device.dmaError_sound hr) (fun _ => Device.dmaAdvance_sound hr)
  | bus s => exact Device.dmaError_sound hr
  | dom s => exact Device.dmaError_sound hr

theorem Device.dmaOut_sound {d : Device} {k : Fin 16} (h0 : d.sound) : (Device.dmaOut d k).sound := by
  unfold Device.dmaOut
  with_reducible repeat' first
    | assumption | dsimp only | simp only [sound_mk] | intro _ | apply Device.dmaPut_sound
    | apply Device.engHold_sound | apply Device.dmaError_sound | apply Device.dmaFailed_sound
    | apply Device.dmaStopped_sound | apply Device.dmaTakeBack_sound | apply Device.setDma_sound
    | apply Device.engWait_sound | apply sound_ite | apply And.intro | apply memSound_of | apply pwmSound_of | split

theorem Device.dmaFlush_sound {d : Device} {k : Fin 16} {n : Nat} (h0 : d.sound) : (d.dmaFlush k n).sound := by
  induction n generalizing d with
  | zero => exact h0
  | succ n ih =>
    unfold Device.dmaFlush
    apply sound_ite <;> intro _
    · exact ih (Device.dmaOut_sound h0)
    · exact h0

theorem Device.dmaStep_sound {d : Device} {k : Fin 16} (h0 : d.sound) : (Device.dmaStep d k).sound := by
  unfold Device.dmaStep
  with_reducible repeat' first
    | assumption | apply Device.fresh_sound | apply Device.dmaFlush_sound | apply Device.dmaOut_sound
    | apply Device.dmaFill_sound | apply Device.engBegin_sound

theorem Device.dmaDrain_sound {d : Device} (h0 : d.sound) : (Device.dmaDrain d).sound := by
  unfold Device.dmaDrain
  with_reducible repeat' first
    | assumption | dsimp only | simp only [sound_mk] | intro _ | apply Device.dmaOut_sound
    | apply Device.dmaFill_sound | apply Device.dmaUnitReset_sound | apply sound_ite | apply And.intro
    | apply memSound_of | apply pwmSound_of | apply sound_foldl | split

theorem Device.windowDone_sound {d : Device} {e : Nat} {n : Nat} {inc : Bool} (h0 : d.sound) :
    (Device.windowDone d e n inc).sound := by
  unfold Device.windowDone
  with_reducible repeat' first
    | assumption | dsimp only | simp only [sound_mk] | apply Device.engDone_sound | apply And.intro | apply memSound_of
    | apply pwmSound_of

theorem Device.windowRead_sound {d : Device} {a : Nat} {n : Nat} {inc : Bool} (h0 : d.sound) :
    (Device.windowRead d a n inc).sound := by
  unfold Device.windowRead
  with_reducible repeat' first
    | assumption | dsimp only | simp only [sound_mk] | apply Device.busRead_sound | apply Device.engHold_sound
    | apply Device.windowDone_sound | apply And.intro | apply memSound_of | apply pwmSound_of | refine pairSound_mem ‹_› ?_ | split

theorem Device.windowWrite_sound {d : Device} {a : Nat} {n : Nat} {v : Word} {inc : Bool} (h0 : d.sound) :
    (Device.windowWrite d a n v inc).sound := by
  unfold Device.windowWrite
  with_reducible repeat' first
    | assumption | intro _ | apply Device.busWrite_sound | apply Device.windowDone_sound | apply Device.post_sound
    | apply Device.engWait_sound | apply sound_ite | refine pairSound_mem ‹_› ?_ | split

/-! ### Machine/LinkEv -/

theorem Device.outValue_sound {d : Device} {e : MapEnt} (h0 : d.sound) : (Device.outValue d e).1.sound := by
  have hr : (if d.noTag 5 = true then (d.countWait 5, Acc.wait) else d.readReg .link e.addr).1.sound :=
    pairSound_ite (fun _ => Device.countWait_sound h0) (fun _ => Device.readReg_sound h0)
  unfold Device.outValue
  generalize (if d.noTag 5 = true then (d.countWait 5, Acc.wait) else d.readReg .link e.addr) = p at hr ⊢
  obtain ⟨d, a⟩ := p
  cases a with
  | ok v => exact hr
  | wait => exact Device.linkFlag_sound hr
  | bus s => exact Device.fresh_sound hr
  | dom s => exact Device.fresh_sound hr

theorem outEntry_sound {base : Nat} {s : Device × List Byte} {e : MapEnt} (h1 : s.1.sound) :
    (outEntry base s e).1.sound := by
  unfold outEntry
  with_reducible repeat' first
    | assumption | dsimp only | apply Device.outValue_sound

theorem Device.inEntry_sound {d : Device} {x : Nat × Word} (h0 : d.sound) : (Device.inEntry d x).sound := by
  unfold Device.inEntry
  with_reducible repeat' first
    | assumption | intro _ | apply Device.post_sound | apply Device.writeReg_sound | apply sound_ite
    | refine pairSound_mem ‹_› ?_ | split

theorem Device.yardSeq_sound {d : Device} {k : Nat} {seq : BitVec 16} (h0 : d.sound) :
    (Device.yardSeq d k seq).sound := by
  unfold Device.yardSeq
  with_reducible repeat' first
    | assumption | dsimp only | simp only [sound_mk] | intro _ | apply Device.linkFlag_sound
    | apply Device.linkCount_sound | apply sound_ite | apply And.intro | apply memSound_of | apply pwmSound_of

theorem Device.yardTime_sound {d : Device} {p : Port} {f : YardFrame} {ta : Nat} (h0 : d.sound) :
    (Device.yardTime d p f ta).sound := by
  unfold Device.yardTime
  with_reducible repeat' first
    | assumption | dsimp only | simp only [sound_mk] | apply Device.fresh_sound | apply And.intro | apply memSound_of
    | apply pwmSound_of

theorem Device.yardPos_sound {d : Device} {p : Port} {f : YardFrame} (h0 : d.sound) :
    (Device.yardPos d p f).sound := by
  unfold Device.yardPos
  with_reducible repeat' first
    | assumption | dsimp only | simp only [sound_mk] | intro _ | apply sound_ite | apply And.intro | apply memSound_of
    | apply pwmSound_of

theorem Device.yardFlags_sound {d : Device} {f : YardFrame} (h0 : d.sound) : (Device.yardFlags d f).sound := by
  unfold Device.yardFlags
  with_reducible repeat' first
    | assumption | dsimp only | intro _ | apply Device.linkFlag_sound | apply sound_ite

theorem Device.yardEvt_sound {d : Device} {f : YardFrame} (h0 : d.sound) : (Device.yardEvt d f).sound := by
  unfold Device.yardEvt
  with_reducible repeat' first
    | assumption | dsimp only | apply Device.yardEventDue_sound

theorem Device.yardOut_sound {d : Device} {f : YardFrame} (h0 : d.sound) : (Device.yardOut d f).1.sound := by
  unfold Device.yardOut
  with_reducible repeat' first
    | assumption | dsimp only | intro _ | apply outEntry_sound | apply pairSound_ite | apply pairSound_foldl

theorem Device.yardEnd_sound {d : Device} {x : YardEnd} (h0 : d.sound) : (Device.yardEnd d x).sound := by
  unfold Device.yardEnd
  with_reducible repeat' first
    | assumption | intro _ | apply Device.raiseEvent_sound | apply Device.inEntry_sound | apply Device.linkFlag_sound
    | apply Device.linkCount_sound | apply sound_ite | apply sound_foldl | split

theorem Device.yardEnds_sound {d : Device} {p : Port} {f : YardFrame} {ins : Option (List (Nat × Word))}
    (h0 : d.sound) : (Device.yardEnds d p f ins).sound := by
  unfold Device.yardEnds
  with_reducible repeat' first
    | assumption | dsimp only | simp only [sound_mk] | apply And.intro | apply memSound_of | apply pwmSound_of

theorem Device.endNow_sound {d : Device} {x : YardEnd} (h0 : d.sound) : (Device.endNow d x).sound := by
  unfold Device.endNow
  with_reducible repeat' first
    | assumption | dsimp only | simp only [sound_mk] | apply Device.yardEnd_sound | apply And.intro
    | apply memSound_of | apply pwmSound_of

theorem Device.endsBefore_sound {d : Device} {t n : Nat} (h0 : d.sound) : (d.endsBefore t n).sound := by
  induction n generalizing d with
  | zero => exact h0
  | succ n ih =>
    unfold Device.endsBefore
    split
    · exact ih (Device.endNow_sound (Device.skipTo_sound h0))
    · exact h0

theorem Device.passTo_sound {d : Device} {t : Nat} (h0 : d.sound) : (Device.passTo d t).sound := by
  unfold Device.passTo
  with_reducible repeat' first
    | assumption | intro _ | apply Device.endsBefore_sound | apply Device.skipTo_sound | apply Device.advTo_sound
    | apply sound_ite

theorem Device.endsCome_sound {d : Device} {q : YardEnd → Bool} (h0 : d.sound) : (Device.endsCome d q).sound := by
  unfold Device.endsCome
  with_reducible repeat' first
    | assumption | dsimp only | intro _ | apply Device.passTo_sound | apply Device.endNow_sound | apply sound_foldl

theorem Device.frameStart_sound {d : Device} {p : Port} (h0 : d.sound) : (Device.frameStart d p).sound := by
  unfold Device.frameStart
  with_reducible repeat' first
    | assumption | apply Device.addrTake_sound | apply Device.endsCome_sound

theorem Device.yardSend1_sound {d : Device} {p : Port} {g : YardFrame} {ok : Bool} (h0 : d.sound) :
    (Device.yardSend1 d p g ok).sound := by
  unfold Device.yardSend1
  with_reducible repeat' first
    | assumption | apply Device.fresh_sound | apply Device.forward_sound

theorem Device.yardGood_sound {d : Device} {p : Port} {vern : Nat} {f : YardFrame} (h0 : d.sound) :
    (Device.yardGood d p vern f).sound := by
  unfold Device.yardGood
  with_reducible repeat' first
    | assumption | dsimp only | apply Device.yardOut_sound | apply Device.yardSend1_sound | apply Device.yardPos_sound
    | apply Device.yardTime_sound | apply Device.yardSeq_sound | apply Device.yardEnds_sound
    | apply Device.yardEvt_sound | apply Device.yardFlags_sound

theorem Device.yardBad_sound {d : Device} {p : Port} {f : YardFrame} (h0 : d.sound) :
    (Device.yardBad d p f).sound := by
  unfold Device.yardBad
  with_reducible repeat' first
    | assumption | dsimp only | simp only [sound_mk] | apply Device.yardSend1_sound | apply Device.yardEnds_sound
    | apply Device.linkFlag_sound | apply Device.linkCount_sound | apply And.intro | apply memSound_of | apply pwmSound_of

theorem Device.uturnEnd_sound {d : Device} {f : YardFrame} (h0 : d.sound) : (Device.uturnEnd d f).sound := by
  unfold Device.uturnEnd
  with_reducible repeat' first
    | assumption | dsimp only | simp only [sound_mk] | intro _ | apply Device.linkIrq_sound | apply sound_ite
    | apply And.intro | apply memSound_of | apply pwmSound_of

theorem Device.yardAt_sound {d : Device} {p : Port} {vern : Nat} {f : YardFrame} (h0 : d.sound) :
    (Device.yardAt d p vern f).sound := by
  unfold Device.yardAt
  with_reducible repeat' first
    | assumption | dsimp only | intro _ | apply Device.forward_sound | apply Device.yardGood_sound
    | apply Device.yardBad_sound | apply Device.uturnEnd_sound | apply sound_ite

theorem Device.errandStart_sound {d : Device} {p : Port} (h0 : d.sound) : (Device.errandStart d p).sound := by
  unfold Device.errandStart
  with_reducible repeat' first
    | assumption | apply Device.frameStart_sound | apply Device.holdsOver_sound

theorem Device.errandFrame_sound {d : Device} {p : Port} {f : ErrFrame} {kind : Nat} (h0 : d.sound) :
    (Device.errandFrame d p f kind).sound := by
  unfold Device.errandFrame
  with_reducible repeat' first
    | assumption | dsimp only | simp only [sound_mk] | intro _ | apply Device.errandStart_sound
    | apply Device.errandAct_sound | apply Device.forward_sound | apply Device.linkCount_sound
    | apply Device.linkFlag_sound | apply Device.fresh_sound | apply sound_ite | apply And.intro | apply memSound_of
    | apply pwmSound_of

theorem Device.rcAct_sound {d : Device} (h0 : d.sound) : (Device.rcAct d).sound := by
  unfold Device.rcAct
  with_reducible repeat' first
    | assumption | dsimp only | simp only [sound_mk] | apply Device.offEnd_sound | apply Device.warmRequest_sound
    | apply And.intro | apply memSound_of | apply pwmSound_of | split

/-! ### Machine/OdEv -/

theorem Device.odReads_sound {d : Device} {x1 : List Nat} (h0 : d.sound) : (Device.odReads d x1).1.sound := by
  induction x1 generalizing d with
  | nil => unfold Device.odReads; exact h0
  | cons a t ih =>
    unfold Device.odReads
    split
    · split
      · exact pairSound_mem ‹_› (ih (pairSound_mem ‹_› (Device.readReg_sound h0)))
      · exact pairSound_mem ‹_› (ih (pairSound_mem ‹_› (Device.readReg_sound h0)))
    · exact pairSound_mem ‹_› (Device.readReg_sound h0)

theorem Device.odWrites_sound {d : Device} {x1 : List (Nat × Nat)} (h0 : d.sound) :
    (Device.odWrites d x1).1.sound := by
  induction x1 generalizing d with
  | nil => unfold Device.odWrites; exact h0
  | cons p t ih =>
    unfold Device.odWrites
    split
    · exact ih (pairSound_mem ‹_› (Device.writeReg_sound h0))
    · exact pairSound_mem ‹_› (Device.writeReg_sound h0)

theorem Device.odValue_sound {d : Device} {e : OdEnt} {act : Bool} (h0 : d.sound) :
    (Device.odValue d e act).1.sound := by
  unfold Device.odValue
  with_reducible repeat' first
    | assumption | dsimp only | apply Device.odReads_sound | split

theorem Device.setIntent_sound {d : Device} {slot : Bool} {n : Nat} {b : Bool} (h0 : d.sound) :
    (Device.setIntent d slot n b).sound := by
  unfold Device.setIntent
  with_reducible repeat' first
    | assumption | dsimp only | simp only [sound_mk] | apply And.intro | apply memSound_of | apply pwmSound_of

theorem Device.intentFirst_sound {d : Device} {t : OdTgt} {v : Nat} (h0 : d.sound) :
    (Device.intentFirst d t v).sound := by
  unfold Device.intentFirst
  with_reducible repeat' first
    | assumption | apply Device.setIntent_sound | split

theorem Device.odWriteTo_sound {d : Device} {e : Errand} {en : OdEnt} {data : List Byte} (h0 : d.sound) :
    (Device.odWriteTo d e en data).sound := by
  unfold Device.odWriteTo
  with_reducible repeat' first
    | assumption | dsimp only | intro _ | apply Device.odReply_sound | apply Device.odWrites_sound
    | apply Device.intentFirst_sound | apply sound_ite | refine pairSound_mem ‹_› ?_ | split

theorem Device.odWriteOp_sound {d : Device} {e : Errand} {en : OdEnt} {len : Nat} (h0 : d.sound) :
    (Device.odWriteOp d e en len).sound := by
  unfold Device.odWriteOp
  with_reducible repeat' first
    | assumption | intro _ | apply Device.odReply_sound | apply Device.bytesIn_sound | apply Device.odWriteTo_sound
    | apply sound_ite | refine pairSound_mem ‹_› ?_ | split

theorem Device.odReadOp_sound {d : Device} {e : Errand} {en : OdEnt} {act : Bool} (h0 : d.sound) :
    (Device.odReadOp d e en act).sound := by
  unfold Device.odReadOp
  with_reducible repeat' first
    | assumption | apply Device.odValue_sound | apply Device.odReply_sound | refine pairSound_mem ‹_› ?_ | split

theorem Device.odOp_sound {d : Device} {e : Errand} {en : OdEnt} {op : Nat} {len : Nat} (h0 : d.sound) :
    (Device.odOp d e en op len).sound := by
  unfold Device.odOp
  with_reducible repeat' first
    | assumption | intro _ | apply Device.odReply_sound | apply Device.engWait_sound | apply Device.odWriteOp_sound
    | apply Device.engDone_sound | apply Device.odReadOp_sound | apply sound_ite

theorem Device.odRequest_sound {d : Device} {e : Errand} {x2 : List Byte} (h0 : d.sound) :
    (Device.odRequest d e x2).sound := by
  unfold Device.odRequest
  with_reducible repeat' first
    | assumption | dsimp only | intro _ | apply Device.odForward_sound | apply Device.odReply_sound
    | apply Device.odOp_sound | apply sound_ite | split

theorem Device.odServe_sound {d : Device} {e : Errand} (h0 : d.sound) : (Device.odServe d e).sound := by
  unfold Device.odServe
  with_reducible repeat' first
    | assumption | apply Device.bytesIn_sound | apply Device.odRequest_sound | apply Device.odReply_sound
    | refine pairSound_mem ‹_› ?_ | split

/-! ### Machine/Exc -/

theorem Device.fetchAt_sound {d : Device} {c : Nat} {a : Nat} {trusted : Bool} (h0 : d.sound) :
    (Device.fetchAt d c a trusted).1.sound := by
  unfold Device.fetchAt
  with_reducible repeat' first
    | assumption | dsimp only | intro _ | apply Device.fetchLine_sound | apply pairSound_ite | refine pairSound_mem ‹_› ?_
    | split

theorem Device.onCore_sound {d : Device} {c : Nat} {f : Core → Core} (h0 : d.sound) : (Device.onCore d c f).sound := by
  unfold Device.onCore
  with_reducible repeat' first
    | assumption | intro _ | apply Device.setCore_sound | apply sound_ite

theorem Device.lockup_sound {d : Device} {c : Nat} {vec : Nat} {why : Nat} {ipc : Word} (h0 : d.sound) :
    (Device.lockup d c vec why ipc).sound := by
  unfold Device.lockup
  with_reducible repeat' first
    | assumption | dsimp only | simp only [sound_mk] | apply Device.coreReset1_sound | apply And.intro | apply memSound_of
    | apply pwmSound_of

theorem Device.tsbCheck_sound {d : Device} {c : Nat} {a : Nat} {trusted : Bool} (h0 : d.sound) :
    (Device.tsbCheck d c a trusted).1.sound := by
  unfold Device.tsbCheck
  with_reducible repeat' first
    | assumption | dsimp only | intro _ | apply Device.domViolation_sound | apply pairSound_ite | split

theorem Device.tsbWrite_sound {d : Device} {c : Nat} {a : Nat} {ws : List Word} (h0 : d.sound) :
    (Device.tsbWrite d c a ws).sound := by
  unfold Device.tsbWrite
  with_reducible repeat' first
    | assumption | intro _ | apply Device.memWrite_sound | apply sound_foldl

theorem Device.afterEntry_sound {d : Device} {c : Nat} {vec : Nat} (h0 : d.sound) :
    (Device.afterEntry d c vec).sound := by
  unfold Device.afterEntry
  with_reducible repeat' first
    | assumption | dsimp only | intro _ | apply Device.haltCore_sound | apply Device.haltOrBp_sound | apply sound_ite

theorem Device.enter_sound {d : Device} {c : Nat} {t : Trap} {sync : Bool} {spc : Word} {ipc : Word} {entry : Word}
    {trusted : Bool} (h0 : d.sound) : ExceptSound (Device.enter d c t sync spc ipc entry trusted) := by
  unfold Device.enter
  with_reducible repeat' first
    | assumption | dsimp only | intro _ | apply Device.lockup_sound | apply Device.tsbCheck_sound
    | apply Device.fetchAt_sound | apply Device.tsbWrite_sound | apply Device.onCore_sound
    | apply Device.afterEntry_sound | apply sound_ite | apply pairSound_ite | apply exceptSound_ok | apply exceptSound_error | apply exceptSound_ite
    | refine pairSound_mem ‹_› ?_ | split

theorem Device.takeExc_sound {d : Device} {c : Nat} {t : Trap} {sync : Bool} {spc : Word} {ipc : Word}
    (h0 : d.sound) : ExceptSound (Device.takeExc d c t sync spc ipc) := by
  unfold Device.takeExc
  with_reducible repeat' first
    | assumption | dsimp only | intro _ | apply Device.lockup_sound | apply Device.memRead_sound
    | apply Device.enter_sound | apply exceptSound_ok | apply exceptSound_error | apply exceptSound_ite | refine pairSound_mem ‹_› ?_ | split

theorem Device.afterInstr_sound {d : Device} {c : Nat} {l : List Access} (h0 : d.sound) :
    (Device.afterInstr d c l).sound := by
  unfold Device.afterInstr
  with_reducible repeat' first
    | assumption | dsimp only | intro _ | apply Device.haltCore_sound | apply Device.setDbgC_sound
    | apply Device.haltOrBp_sound | apply sound_ite | split

theorem Device.retire_sound {d : Device} {c : Nat} {n : Nat} {pc : Word} (h0 : d.sound) :
    (Device.retire d c n pc).sound := by
  unfold Device.retire
  with_reducible repeat' first
    | assumption | apply Device.onCore_sound

theorem Device.plain_sound {d : Device} {c : Nat} {fetch : Device → Device × Fetch} {g : BitVec 4} {bad : Bool}
    {body : Device → Res} (h0 : d.sound) (h2 : ∀ y0, y0.sound → (fetch y0).1.sound)
    (h5 : ∀ y0, y0.sound → ResSound (body y0)) : ExceptSound (Device.plain d c fetch g bad body) := by
  unfold Device.plain
  with_reducible repeat' first
    | assumption | dsimp only | apply h2 | apply h5 | apply Device.takeExc_sound | apply Device.afterInstr_sound
    | apply Device.retire_sound | apply Device.onCore_sound | refine resSound_done_mem ‹_› ?_
    | refine resSound_moved_mem ‹_› ?_ | refine resSound_pre_mem ‹_› ?_ | refine resSound_trap_mem ‹_› ?_
    | refine resSound_sys_mem ‹_› ?_ | apply exceptSound_ok | apply exceptSound_error | refine pairSound_mem ‹_› ?_
    | split

theorem Device.repNext_sound {d : Device} {c : Nat} {l : List Access} (h0 : d.sound) :
    (Device.repNext d c l).sound := by
  unfold Device.repNext
  with_reducible repeat' first
    | assumption | dsimp only | apply Device.onCore_sound | apply Device.afterInstr_sound

theorem Device.runRep_sound {d : Device} {c : Nat} {g : BitVec 4} {left : Nat} {body : Device → Res} (h0 : d.sound)
    (h4 : ∀ y0, y0.sound → ResSound (body y0)) : ExceptSound (Device.runRep d c g left body) := by
  unfold Device.runRep
  with_reducible repeat' first
    | assumption | dsimp only | intro _ | apply h4 | apply Device.repNext_sound | apply Device.takeExc_sound
    | apply Device.onCore_sound | refine resSound_done_mem ‹_› ?_ | refine resSound_trap_mem ‹_› ?_ | apply exceptSound_ok
    | apply exceptSound_error | apply exceptSound_ite | split

theorem Device.repTrap_sound {d : Device} {c : Nat} {r : Rep} {pc : Word} {vec : Nat} {sub : Nat} {faddr : Word}
    (h0 : d.sound) : ExceptSound (Device.repTrap d c r pc vec sub faddr) := by
  unfold Device.repTrap
  with_reducible repeat' first
    | assumption | intro _ | apply Device.takeExc_sound | apply Device.onCore_sound | apply exceptSound_ite

theorem Device.firstRep_sound {d : Device} {c : Nat} {fetch : Device → Device × Fetch} {g : BitVec 4} {bad : Bool}
    {cls : Cls} {i : Option Instr} {r : Rep} {body : Device → Res} (h0 : d.sound)
    (h2 : ∀ y0, y0.sound → (fetch y0).1.sound) (h8 : ∀ y0, y0.sound → ResSound (body y0)) :
    ExceptSound (Device.firstRep d c fetch g bad cls i r body) := by
  unfold Device.firstRep
  with_reducible repeat' first
    | assumption | dsimp only | intro _ | apply h2 | apply Device.repTrap_sound | apply Device.afterInstr_sound
    | apply Device.retire_sound | apply Device.onCore_sound | apply Device.runRep_sound | apply exceptSound_ok
    | apply exceptSound_error | apply exceptSound_ite | refine pairSound_mem ‹_› ?_ | split

theorem Device.ran_sound {d : Device} {c : Nat} {x2 : Except Hold Device} (h0 : d.sound) (h2 : ExceptSound x2) :
    (Device.ran d c x2).sound := by
  cases x2 with
  | ok e => exact Device.engDone_sound (h2.mem e rfl)
  | error w => exact Device.engHold_sound h0

theorem Device.runInstr_sound {d : Device} {c : Nat} {fetch : Device → Device × Fetch} {g : BitVec 4} {bad : Bool}
    {cls : Cls} {i : Option Instr} {body : Device → Res} (h0 : d.sound) (h2 : ∀ y0, y0.sound → (fetch y0).1.sound)
    (h7 : ∀ y0, y0.sound → ResSound (body y0)) : (Device.runInstr d c fetch g bad cls i body).sound := by
  unfold Device.runInstr
  with_reducible repeat' first
    | assumption | dsimp only | intro _ | apply Device.bpHalt_sound | apply Device.engBegin_sound
    | apply Device.setCore_sound | apply Device.ran_sound | apply Device.plain_sound | apply Device.firstRep_sound
    | apply Device.runRep_sound | apply sound_ite | split

theorem Device.fetchPc_sound {c : Nat} {d : Device} (h1 : d.sound) : (Device.fetchPc c d).1.sound := by
  unfold Device.fetchPc
  with_reducible repeat' first
    | assumption | dsimp only | apply Device.fetchAt_sound

theorem Device.coreInstr_sound {d : Device} {c : Nat} {g : BitVec 4} {cls : Cls} {i : Instr} {body : Device → Res}
    (h0 : d.sound) (h5 : ∀ y0, y0.sound → ResSound (body y0)) : (Device.coreInstr d c g cls i body).sound := by
  unfold Device.coreInstr
  with_reducible repeat' first
    | assumption | intro _ | apply Device.runInstr_sound | apply Device.fetchPc_sound

theorem Device.asSup_sound {d : Device} {c : Nat} {sup : Bool} {f : Device → Res} (h0 : d.sound)
    (h3 : ∀ y0, y0.sound → ResSound (f y0)) : ResSound (Device.asSup d c sup f) := by
  unfold Device.asSup
  with_reducible repeat' first
    | assumption | intro _ | apply h3 | apply resSound_trap | apply resSound_ite

/-! ### Machine/Alu -/

theorem aluBody_sound {c : Nat} {dst : Fin 32} {f : Core → Word} {d : Device} (h3 : d.sound) :
    ResSound (aluBody c dst f d) := by
  unfold aluBody
  with_reducible repeat' first
    | assumption | apply Device.onCore_sound | apply resSound_done

theorem mulBody_sound {c : Nat} {dst : Fin 32} {p : Core → DWord} {d : Device} (h3 : d.sound) :
    ResSound (mulBody c dst p d) := by
  unfold mulBody
  with_reducible repeat' first
    | assumption | dsimp only | apply Device.onCore_sound | apply resSound_done

theorem macBody_sound {c : Nat} {a : Fin 32} {b : Fin 32} {d : Device} (h3 : d.sound) : ResSound (macBody c a b d) := by
  unfold macBody
  with_reducible repeat' first
    | assumption | apply Device.onCore_sound | apply resSound_done

/-! ### Machine/LoadStore -/

theorem loadBody_sound {c : Nat} {n : Nat} {dst : Fin 32} {am : AddrMode} {f : Word → Word} {d : Device}
    (h5 : d.sound) : ResSound (loadBody c n dst am f d) := by
  unfold loadBody
  with_reducible repeat' first
    | assumption | dsimp only | intro _ | apply Device.busRead_sound | apply Device.onCore_sound | apply resSound_done
    | apply resSound_trap | apply resSound_wait | apply resSound_ite | refine pairSound_mem ‹_› ?_ | split

theorem storeBody_sound {c : Nat} {n : Nat} {src : Fin 32} {am : AddrMode} {d : Device} (h4 : d.sound) :
    ResSound (storeBody c n src am d) := by
  unfold storeBody
  with_reducible repeat' first
    | assumption | dsimp only | intro _ | apply Device.busWrite_sound | apply Device.onCore_sound | apply resSound_done
    | apply resSound_trap | apply resSound_wait | apply resSound_ite | refine pairSound_mem ‹_› ?_ | split

theorem Device.loadDomain_sound {d : Device} {c : Nat} {a : Word} (h0 : d.sound) :
    (Device.loadDomain d c a).1.sound := by
  unfold Device.loadDomain
  with_reducible repeat' first
    | assumption | dsimp only | intro _ | apply Device.narrow_sound | apply Device.domViolation_sound | apply pairSound_ite
    | refine pairSound_mem ‹_› ?_ | split

theorem machSecond_sound {c : Nat} {a : Fin 32} {b : Fin 32} {x : Word} {y : Word} {h1 : Word} {d : Device}
    (h6 : d.sound) : ResSound (machSecond c a b x y h1 d) := by
  unfold machSecond
  with_reducible repeat' first
    | assumption | apply Device.busRead_sound | apply Device.onCore_sound | apply resSound_done | apply resSound_trap
    | apply resSound_wait | refine pairSound_mem ‹_› ?_ | split

theorem machLoads_sound {c : Nat} {a : Fin 32} {b : Fin 32} {x : Word} {y : Word} {d : Device} (h5 : d.sound) :
    ResSound (machLoads c a b x y d) := by
  unfold machLoads
  with_reducible repeat' first
    | assumption | apply Device.busRead_sound | apply machSecond_sound | apply resSound_trap | apply resSound_wait
    | refine pairSound_mem ‹_› ?_ | split

theorem machBody_sound {c : Nat} {a : Fin 32} {b : Fin 32} {d : Device} (h3 : d.sound) : ResSound (machBody c a b d) := by
  unfold machBody
  with_reducible repeat' first
    | assumption | dsimp only | intro _ | apply Device.loadDomain_sound | apply machLoads_sound | apply resSound_trap
    | apply resSound_ite | refine pairSound_mem ‹_› ?_ | split

/-! ### Machine/Branch -/

theorem jumpTo_sound {c : Nat} {t : Word} {link : Bool} {d : Device} (h3 : d.sound) : ResSound (jumpTo c t link d) := by
  unfold jumpTo
  with_reducible repeat' first
    | assumption | dsimp only | apply Device.onCore_sound | apply resSound_moved | apply resSound_trap | split

/-! ### Machine/SysIns -/

theorem mfsBody_sound {c : Nat} {dst : Fin 32} {n : Nat} {d : Device} (h3 : d.sound) : ResSound (mfsBody c dst n d) := by
  unfold mfsBody
  with_reducible repeat' first
    | assumption | dsimp only | intro _ | apply Device.asSup_sound | apply Device.sysRead_sound
    | apply Device.onCore_sound | apply resSound_done

theorem mtsBody_sound {c : Nat} {n : Nat} {src : Fin 32} {d : Device} (h3 : d.sound) : ResSound (mtsBody c n src d) := by
  unfold mtsBody
  with_reducible repeat' first
    | assumption | intro _ | apply Device.asSup_sound | apply Device.sysWrite_sound | apply resSound_done

theorem cacheBody_sound {c : Nat} {src : Fin 32} {d : Device} (h2 : d.sound) : ResSound (cacheBody c src d) := by
  unfold cacheBody
  with_reducible repeat' first
    | assumption | intro _ | apply Device.asSup_sound | apply Device.cacheOp_sound | apply resSound_done

theorem Device.cacheInstr_sound {d : Device} {c : Nat} {g : BitVec 4} {op : Nat} {src : Fin 32} {i : Instr}
    (h0 : d.sound) : (Device.cacheInstr d c g op src i).sound := by
  unfold Device.cacheInstr
  with_reducible repeat' first
    | assumption | dsimp only | intro _ | apply Device.coreInstr_sound | apply cacheBody_sound | apply sound_ite

theorem sleepBody_sound {c : Nat} {d : Device} (h1 : d.sound) : ResSound (sleepBody c d) := by
  unfold sleepBody
  with_reducible repeat' first
    | assumption | dsimp only | simp only [sound_mk] | intro _ | apply Device.asSup_sound | apply Device.owlSync_sound
    | apply Device.setCore_sound | apply And.intro | apply memSound_of | apply pwmSound_of | apply resSound_done | apply resSound_moved
    | apply resSound_ite

theorem fenceBody_sound {c : Nat} {d : Device} (h1 : d.sound) : ResSound (fenceBody c d) := by
  unfold fenceBody
  with_reducible repeat' first
    | assumption | intro _ | apply Device.mergeFlushAll_sound | apply resSound_done | apply resSound_wait | apply resSound_ite

theorem readNext_sound {c : Nat} {b : Word} {s : Device × Reads} {o : Nat} (h2 : s.1.sound) :
    (readNext c b s o).1.sound := by
  unfold readNext
  with_reducible repeat' first
    | assumption | dsimp only | apply Device.busRead_sound | refine pairSound_mem ‹_› ?_ | split

theorem Device.tsbRead_sound {d : Device} {c : Nat} (h0 : d.sound) : (Device.tsbRead d c).1.sound := by
  unfold Device.tsbRead
  with_reducible repeat' first
    | assumption | intro _ | apply readNext_sound | apply pairSound_foldl

theorem rfeLoad_sound {c : Nat} {status : Word} {f : Core → Core} {d : Device} (h3 : d.sound) :
    ResSound (rfeLoad c status f d) := by
  unfold rfeLoad
  with_reducible repeat' first
    | assumption | intro _ | apply Device.domViolation_sound | apply Device.onCore_sound | apply resSound_moved
    | apply resSound_trap | apply resSound_ite

theorem rfeBody_sound {c : Nat} {d : Device} (h1 : d.sound) : ResSound (rfeBody c d) := by
  unfold rfeBody
  with_reducible repeat' first
    | assumption | dsimp only | intro _ | apply Device.asSup_sound | apply rfeLoad_sound | apply Device.tsbRead_sound
    | apply resSound_trap | apply resSound_wait | apply resSound_ite | refine pairSound_mem ‹_› ?_ | split

theorem repBody_sound {c : Nat} {isI : Bool} {rg : Bool} {cr : Fin 32} {n : BitVec 8} {d : Device} (h5 : d.sound) :
    ResSound (repBody c isI rg cr n d) := by
  unfold repBody
  with_reducible repeat' first
    | assumption | apply Device.onCore_sound | apply resSound_pre

/-! ### Machine/CoreEv -/

theorem Device.fetchBad_sound {c : Nat} {d : Device} (h1 : d.sound) : (Device.fetchBad c d).1.sound := by
  unfold Device.fetchBad
  with_reducible repeat' first
    | assumption | dsimp only | apply Device.fetchPc_sound | apply Device.countUe_sound | split

theorem Device.busErrorFetch_sound {d : Device} {c : Nat} {unc : Bool} (h0 : d.sound) :
    (Device.busErrorFetch d c unc).sound := by
  unfold Device.busErrorFetch
  with_reducible repeat' first
    | assumption | intro _ | apply Device.runInstr_sound | apply Device.fetchBad_sound | apply Device.fetchPc_sound
    | apply sound_ite | apply resSound_wait | split

theorem Device.acceptIrq_sound {d : Device} {c : Nat} {s : Nat} (h0 : d.sound) : ExceptSound (Device.acceptIrq d c s) := by
  unfold Device.acceptIrq
  with_reducible repeat' first
    | assumption | dsimp only | apply Device.setCore_sound | apply Device.reserve_sound | apply Device.takeExc_sound
    | apply Device.owlSync_sound

theorem Device.awake_sound {d : Device} {c : Nat} (h0 : d.sound) : (Device.awake d c).sound := by
  unfold Device.awake
  with_reducible repeat' first
    | assumption | dsimp only | apply Device.owlSync_sound | apply Device.setCore_sound

theorem Device.irqBoundary_sound {d : Device} {c : Nat} (h0 : d.sound) : (Device.irqBoundary d c).sound := by
  unfold Device.irqBoundary
  with_reducible repeat' first
    | assumption | dsimp only | intro _ | apply Device.bpHalt_sound | apply Device.acceptIrq_sound
    | apply Device.engDone_sound | apply Device.engHold_sound | apply Device.awake_sound | apply sound_ite
    | refine exceptSound_mem ‹_› ?_ | split

theorem Device.handStop_sound {d : Device} {c : Nat} (h0 : d.sound) : (Device.handStop d c).sound := by
  unfold Device.handStop
  with_reducible repeat' first
    | assumption | dsimp only | intro _ | apply Device.handRecord_sound | apply Device.setCore_sound | apply sound_ite

theorem Device.handover_sound {d : Device} {c : Nat} {entry : Word} {stack : Word} (h0 : d.sound) :
    (Device.handover d c entry stack).sound := by
  unfold Device.handover
  with_reducible repeat' first
    | assumption | dsimp only | apply Device.startHalt_sound | apply Device.engDrop_sound | apply Device.setCore_sound

theorem Device.restartAll_sound {d : Device} (h0 : d.sound) : (Device.restartAll d).sound := by
  unfold Device.restartAll
  with_reducible repeat' first
    | assumption | intro _ | apply Device.handover_sound | apply sound_ite | apply sound_foldl | split

/-! ### Machine/RegCmds -/

theorem Device.writeDone_sound {d : Device} {who : Who} {r : Resp} (h0 : d.sound) :
    (Device.writeDone d who r).sound := by
  unfold Device.writeDone
  with_reducible repeat' first
    | assumption | simp only [sound_mk] | apply And.intro | apply memSound_of | apply pwmSound_of

theorem Device.answered_sound {d : Device} {w : Wait} {x : Acc} (h0 : d.sound) : (Device.answered d w x).sound := by
  unfold Device.answered
  with_reducible repeat' first
    | assumption | intro _ | apply Device.setEng_sound | apply Device.writeDone_sound | apply Device.answer_sound
    | apply sound_ite | split

theorem Device.putGo_sound {d : Device} {w : Wait} {v : Word} (h0 : d.sound) : (Device.putGo d w v).sound := by
  unfold Device.putGo
  with_reducible repeat' first
    | assumption | simp only [sound_mk] | apply Device.answered_sound | apply Device.putReg_sound
    | apply Device.quePush_sound | apply And.intro | apply memSound_of | apply pwmSound_of | split
    | refine pairSound_mem ‹_› ?_

theorem Device.getGo_sound {d : Device} {w : Wait} (h0 : d.sound) : (Device.getGo d w).sound := by
  unfold Device.getGo
  with_reducible repeat' first
    | assumption | simp only [sound_mk] | apply Device.getReg_sound | apply Device.answered_sound | apply And.intro
    | apply memSound_of | apply pwmSound_of | refine pairSound_mem ‹_› ?_ | split

theorem Device.grant_sound {d : Device} {w : Wait} (h0 : d.sound) : (Device.grant d w).sound := by
  unfold Device.grant
  with_reducible repeat' first
    | assumption | apply Device.putGo_sound | apply Device.getGo_sound | split

theorem Device.issue_sound {d : Device} {w : Wait} (h0 : d.sound) : (Device.issue d w).sound := by
  unfold Device.issue
  with_reducible repeat' first
    | assumption | dsimp only | simp only [sound_mk] | intro _ | apply Device.countWait_sound
    | apply Device.grant_sound | apply sound_ite | apply And.intro | apply memSound_of | apply pwmSound_of

theorem Device.lateReset_sound {d : Device} {who : Who} {a : Nat} {v : Word} (h0 : d.sound) :
    (Device.lateReset d who a v).sound := by
  unfold Device.lateReset
  with_reducible repeat' first
    | assumption | intro _ | apply Device.swrstWrite_sound | apply Device.coreResets_sound
    | apply Device.owlKick_sound | apply sound_ite

theorem Device.regWrite_sound {d : Device} {who : Who} {a : Nat} {v : Word} (h0 : d.sound) :
    (Device.regWrite d who a v).sound := by
  unfold Device.regWrite
  with_reducible repeat' first
    | assumption | intro _ | apply Device.lateReset_sound | apply Device.writeDone_sound | apply Device.issue_sound
    | apply sound_ite

theorem Device.regRead_sound {d : Device} {who : Who} {a : Nat} (h0 : d.sound) : (Device.regRead d who a).sound := by
  unfold Device.regRead
  with_reducible repeat' first
    | assumption | intro _ | apply Device.answer_sound | apply Device.issue_sound | apply sound_ite

theorem Device.tagFree_sound {d : Device} {i : Nat} (h0 : d.sound) : (Device.tagFree d i).sound := by
  unfold Device.tagFree
  with_reducible repeat' first
    | assumption | dsimp only | simp only [sound_mk] | intro _ | apply Device.grant_sound
    | apply Device.workFree_sound | apply sound_ite | apply And.intro | apply memSound_of | apply pwmSound_of | split

theorem Device.pump_sound {d : Device} {n : Nat} (h0 : d.sound) : (Device.pump d n).sound := by
  unfold Device.pump
  with_reducible repeat' first
    | assumption | intro _ | apply Device.tagFree_sound | apply sound_foldl

theorem Device.unitFree_sound {d : Device} {u : Nat} (h0 : d.sound) : (Device.unitFree d u).sound := by
  unfold Device.unitFree
  with_reducible repeat' first
    | assumption | dsimp only | simp only [sound_mk] | intro _ | apply Device.pump_sound | apply Device.grant_sound
    | apply Device.storesNow_sound | apply Device.softRefresh_sound | apply Device.safeTrips_sound | apply sound_ite
    | apply And.intro | apply memSound_of | apply pwmSound_of | apply sound_foldl

/-! ### Machine/Warm -/

theorem Device.acceptedDone_sound {d : Device} (h0 : d.sound) : (Device.acceptedDone d).sound := by
  unfold Device.acceptedDone
  with_reducible repeat' first
    | assumption | simp only [sound_mk] | intro _ | apply Device.dmaDrain_sound | apply Device.grant_sound
    | apply And.intro | apply memSound_of | apply pwmSound_of | apply sound_foldl

theorem Device.warm400_sound {d : Device} (h0 : d.sound) : (Device.warm400 d).sound := by
  unfold Device.warm400
  with_reducible repeat' first
    | assumption | dsimp only | simp only [sound_mk] | intro _ | apply Device.acceptedDone_sound
    | apply Device.advTo_sound | apply Device.setLv_sound | apply Device.unitsReset_sound | apply sound_ite
    | apply And.intro | apply memSound_of | apply pwmSound_of

theorem Device.warmReload_sound {d : Device} (h0 : d.sound) : (Device.warmReload d).sound := by
  unfold Device.warmReload
  with_reducible repeat' first
    | assumption | dsimp only | simp only [sound_mk] | intro _ | apply Device.advTo_sound
    | apply Device.fuseLoadAll_sound | apply sound_ite | apply And.intro | apply memSound_of | apply pwmSound_of

theorem Device.warmEnd_sound {d : Device} (h0 : d.sound) : (Device.warmEnd d).sound := by
  unfold Device.warmEnd
  with_reducible repeat' first
    | assumption | dsimp only | intro _ | apply Device.warmReload_sound | apply Device.warm400_sound
    | apply Device.resetEnd_sound | apply Device.setCore_sound | apply Device.advTo_sound | apply sound_ite

/-! ### Machine/Timed -/

theorem Device.pass_sound {d : Device} {t : Option Nat} (h0 : d.sound) : (Device.pass d t).sound := by
  unfold Device.pass
  with_reducible repeat' first
    | assumption | dsimp only | simp only [sound_mk] | intro _ | apply Device.passTo_sound | apply And.intro
    | apply memSound_of | apply pwmSound_of | split

theorem Device.passWhen_sound {d : Device} {at' : Device → Option Nat} {f : Device → Device} (h0 : d.sound)
    (h2 : ∀ e, e.sound → (f e).sound) : (Device.passWhen d at' f).sound := by
  unfold Device.passWhen
  with_reducible repeat' first
    | assumption | dsimp only | simp only [sound_mk] | intro _ | apply h2 | apply Device.passTo_sound
    | apply sound_ite | apply And.intro | apply memSound_of | apply pwmSound_of | split

theorem Device.cmpCommand_sound {d : Device} {n : Nat} {high : Bool} {b : Bool} {v : Nat} {vref : Nat} (h0 : d.sound)
    : (Device.cmpCommand d n high b v vref).sound := by
  unfold Device.cmpCommand
  with_reducible repeat' first
    | assumption | dsimp only | intro _ | apply Device.passWhen_sound | apply Device.cmpInput_sound
    | apply Device.cmpPast_sound | apply Device.cmpBoth_sound | apply sound_ite

theorem Device.trkInput_sound {d : Device} {n : Nat} {la : Bool} {lb : Bool} {lz : Bool} (h0 : d.sound) :
    (Device.trkInput d n la lb lz).sound := by
  unfold Device.trkInput
  with_reducible repeat' first
    | assumption | dsimp only | intro _ | apply Device.passWhen_sound | apply Device.trkFollow_sound
    | apply Device.trkPins_sound | apply sound_ite

theorem Device.deliverTick_sound {d : Device} {x : Nat} (h0 : d.sound) : (Device.deliverTick d x).sound := by
  unfold Device.deliverTick
  with_reducible repeat' first
    | assumption | intro _ | apply Device.passTo_sound | apply Device.deliverAll_sound
    | apply Device.deliverWhere_sound

/-! ### Machine/Tick -/

theorem Device.whenDue_sound {α : Type} {d : Device} {l : List α} {due : Device → α → Bool}
    {f : α → Device → Device} (h1 : d.sound) (h4 : ∀ y0 y1, y1.sound → (f y0 y1).sound) :
    (Device.whenDue d l due f).sound := by
  unfold Device.whenDue
  with_reducible repeat' first
    | assumption | intro _ | apply h4 | apply sound_ite | apply sound_foldl

theorem Device.yardNow_sound {d : Device} {x : YardEv} (h0 : d.sound) : (Device.yardNow d x).sound := by
  unfold Device.yardNow
  with_reducible repeat' first
    | assumption | dsimp only | simp only [sound_mk] | apply Device.yardRaise_sound | apply And.intro | apply memSound_of
    | apply pwmSound_of

theorem Device.headNow_sound {d : Device} (h0 : d.sound) : (Device.headNow d).sound := by
  unfold Device.headNow
  with_reducible repeat' first
    | assumption | dsimp only | intro _ | apply Device.probeNow_sound | apply Device.yardSend_sound | apply sound_ite
    | split

theorem Device.timeouts_sound {d : Device} (h0 : d.sound) : (Device.timeouts d).sound := by
  unfold Device.timeouts
  with_reducible repeat' first
    | assumption | dsimp only | simp only [sound_mk] | intro _ | apply Device.whenDue_sound
    | apply Device.odTimeout_sound | apply Device.returnOver_sound | apply Device.holdsOver_sound
    | apply Device.syncLost_sound | apply sound_ite | apply And.intro | apply memSound_of | apply pwmSound_of | split

theorem Device.unitEvents_sound {d : Device} (h0 : d.sound) : (Device.unitEvents d).sound := by
  unfold Device.unitEvents
  with_reducible repeat' first
    | assumption | dsimp only | intro _ | apply Device.whenDue_sound | apply Device.cmpMatch_sound
    | apply Device.hardNow_sound | apply Device.cmpSettled_sound | apply Device.cmpBoth_sound
    | apply Device.boundary_sound | apply Device.calExpire_sound | apply Device.trkFollow_sound
    | apply Device.gpFollow_sound | apply Device.mergeFlushE_sound | apply Device.yardNow_sound
    | apply Device.timeouts_sound | apply Device.headNow_sound | apply Device.endsCome_sound | apply sound_foldl

theorem Device.slowEvents_sound {d : Device} (h0 : d.sound) : (Device.slowEvents d).sound := by
  unfold Device.slowEvents
  with_reducible repeat' first
    | assumption | dsimp only | simp only [sound_mk] | intro _ | apply Device.warm400_sound
    | apply Device.warmReload_sound | apply sound_ite | apply And.intro | apply memSound_of | apply pwmSound_of

theorem Device.tickEvents_sound {d : Device} (h0 : d.sound) : (Device.tickEvents d).sound := by
  unfold Device.tickEvents
  with_reducible repeat' first
    | assumption | apply Device.slowEvents_sound | apply Device.deliverUpTo_sound | apply Device.swapIdle_sound
    | apply Device.unitEvents_sound

theorem Device.tick_sound {d : Device} (h0 : d.sound) : (Device.tick d).sound := by
  unfold Device.tick
  with_reducible repeat' first
    | assumption | dsimp only | simp only [sound_mk] | intro _ | apply Device.tickEvents_sound
    | apply Device.nextTick_sound | apply sound_ite | apply And.intro | apply memSound_of | apply pwmSound_of

end Sys2Proof.Machine
end

