-- ==== Sys2Proof/WellFormed.lean ====
section
/-! DEFINITION. Which commands are well formed: what the data of a command must meet to be an event or an access that
the spec describes. A meaning does not rest on it: what an ill-formed command does is log 3's. -/
namespace Sys2Proof

open Sys2Proof.Machine

/-- A yard frame carries YLEN bytes, at most 2,048 (R735, R765). -/
def YardFrame.wf (f : YardFrame) : Bool := decide (f.stall.length = f.ylen.toNat) && decide (f.ylen.toNat ≤ 2048)

/-- An errand frame carries LEN data bytes, at most 112 (R758). -/
def ErrFrame.wf (f : ErrFrame) : Bool := decide (f.data.length = f.len.toNat) && decide (f.len.toNat ≤ 112)

/-- A count of REP without I fits its field (R485). -/
def repWf (rg : Bool) (cnt : BitVec 8) : Bool := rg || decide (cnt.toNat ≤ 63)

/-- The averaged conversions of a sequence (R212), each with a reference voltage (R895). -/
def acqsWf (l : List Acq) : Bool := [1, 2, 4, 8].elem l.length && l.all (fun x => decide (0 < x.vref))

/-- A pin of the pin table (R188). -/
def pinWf (p : Nat) : Bool := isPin p

/-- The key of a wrong Owl kick is none of the two of R183. -/
def kickWf (v : Word) : Bool := v != 0x3C96 && v != 0xC369

/-- An object with an owner register: source 0 is none (R554). -/
def OwnObj.wf : OwnObj → Bool
  | .irq i => decide (i.val ≠ 0)
  | .route _ | .queue _ | .lock _ | .dma _ => true

/-- The command is well formed. -/
def Instr.wf : Instr → Bool
  | .yard _ _ f | .headYardReturn _ _ f => f.wf
  | .errandReturn _ f | .errandReq _ f | .errandCollect _ f | .errandDrop _ f => f.wf
  | .rep _ _ rg _ cnt => repWf rg cnt
  | .endOfConversion _ acqs => acqsWf acqs
  | .auxConversionEnd _ acq => decide (0 < acq.vref)
  | .comparatorAssert _ inp | .comparatorDeassert _ inp => decide (0 < inp.vref)
  | .comparatorSettleEnd _ _ vref => decide (0 < vref)
  | .pinClaim _ p v => pinWf p.val && wb v 16
  | .owlKickWrong _ v => kickWf v
  | .ownerWrite _ obj _ => obj.wf
  | .interruptPset _ src | .interruptPclr _ src => decide (src.val ≠ 0)
  | .illegalInstruction _ word => undefinedWord word
  | .samplePreload cells => cells.all (fun x => pinWf x.1)
  | .delayReply _ trip t => decide (t.toNat ≤ trip)
  | .debugMemRead size _ | .debugMemWrite size _ => decide (size.toNat ≠ 3)
  | .authCheck level => decide (level.toNat = 1) || decide (level.toNat = 2)
  | _ => true

end Sys2Proof
end

