-- ==== Sys2Proof/Tests/Slice0.lean ====
section
/-! SUPPORT. Our own tests: each check of WellFormed refuses an ill-formed command; for every statement a state and
operands that meet its hypotheses, clause by clause; and single commands on small states against the spec's words. -/
namespace Sys2Proof.Tests

open Sys2Proof.Machine

-- One test after another: in parallel they would ask for more memory than the check allows.
set_option Elab.async false

/-! ### Well-formed commands -/

/-- A hold of both inputs at `v` of 4,096 steps of the reference, by a converter without deviation. -/
def acq (v : Nat) : Acq := { sns := v, aux := v, vref := 4096, dev := 0 }

/-- A yard without a stall area. -/
def plainYard : YardFrame :=
  { flags := 0, hop := 0, ylen := 0, seq := 0, ty := 0, accdly := 0, rsv := 0, hchk := 0, stall := [], crc := 0 }
def plainErr : ErrFrame :=
  { addr := 0, op := 0, tag := 0, stat := 0, index := 0, sub := 0, code := 0, len := 0, rlen := 0, data := [], crc := 0 }

theorem wf_accepts : ∀ i ∈ [Instr.yard .la 0 plainYard, .errandReq .la plainErr, .rep 0 0 false 0 63,
    .endOfConversion 0 [acq 1, acq 2], .pinClaim (.core 0) 3 0x10000, .owlKickWrong (.core 0) 5, .ownerWrite (.core 0) (.irq 1) 0,
    .interruptPset (.core 0) 1, .illegalInstruction 0 0x80000000, .samplePreload [(3, 0)], .delayReply .la 9 4,
    .debugMemRead 2 false, .authCheck 2], i.wf = true := by decide
theorem wf_refuses_yard_length : (Instr.yard .la 0 { plainYard with ylen := 1 }).wf = false := by decide
theorem wf_refuses_errand_length : (Instr.errandReq .la { plainErr with len := 1 }).wf = false := by decide
theorem wf_refuses_rep_count : (Instr.rep 0 0 false 0 64).wf = false := by decide
theorem wf_refuses_code_count : (Instr.endOfConversion 0 [acq 1, acq 2, acq 3]).wf = false := by decide
theorem wf_refuses_claim_without_claim : (Instr.pinClaim (.core 0) 3 0).wf = false := by decide
theorem wf_refuses_kick_of_the_sequence : (Instr.owlKickWrong (.core 0) 0x3C96).wf = false := by decide
theorem wf_refuses_owner_of_source_0 : (Instr.ownerWrite (.core 0) (.irq 0) 0).wf = false := by decide
theorem wf_refuses_pset_of_source_0 : (Instr.interruptPset (.core 0) 0).wf = false := by decide
theorem wf_refuses_defined_word : (Instr.illegalInstruction 0 0x00400000).wf = false := by decide
theorem wf_refuses_cell_of_no_pin : (Instr.samplePreload [(31, 0)]).wf = false := by decide
theorem wf_refuses_trip_below_turnaround : (Instr.delayReply .la 3 4).wf = false := by decide
theorem wf_refuses_size_3 : (Instr.debugMemRead 3 false).wf = false := by decide
theorem wf_refuses_level_0 : (Instr.authCheck 0).wf = false := by decide

/-- The table gives its rows no bits. -/
theorem no_word_spells_a_command : ∀ n ∈ [8, 16, 32], decodeTableWord n 0 = none := by decide

/-! ### States for the core -/

/-- The device after reset. -/
def r0 : Device := State.reset.dev
/-- The state with device `d` and no command waiting. -/
def st (d : Device) : State := { dev := d, pending := [] }
/-- The device after command `c`. -/
def after (c : Instr) (d : Device) : Device := match exec c (st d) with | .next t => t.dev | _ => d
/-- A running core whose line at its pc is in its I-cache. -/
def k0 : Core := { st := .running, pc := 0x1000, ic := [(lineOf 0x1000, some 0)] }
/-- The device with core 0 put to `k`. -/
def with0 (k : Core) : Device := r0.setCore 0 k
/-- Core 0 runs with g1 = `x` and g2 = `y`. -/
def regs (x y : Word) : Core := (k0.put 1 x).put 2 y

/-- The word `w` lies at `a`. -/
def word (d : Device) (a : Nat) (w : Word) : Device :=
  { d with mem := { d.mem with cells := (List.range 4).foldl (fun t i =>
      Tab.set byte0 t (a + i) (BitVec.ofNat 8 (w.toNat / 256 ^ i))) d.mem.cells } }

theorem witness_AluInstructions : (with0 k0).ready 0 0 = true := by decide
def macAt (v : Int) (x y : Word) : Core := { regs x y with acc := BitVec.ofInt 64 v }
def macV (k : Core) : Int := k.acc.toInt + (k.reg 1).toInt * (k.reg 2).toInt
theorem witness_MultiplyAccumulate :
    (with0 (macAt 5 2 3)).ready 0 0 = true ∧ (with0 (macAt (2 ^ 63 - 1) 1 1)).ready 0 0 = true ∧
    (with0 (macAt (-2 ^ 63) 1 (-1))).ready 0 0 = true ∧
    macV (macAt 5 2 3) = 11 ∧ macV (macAt (2 ^ 63 - 1) 1 1) = 2 ^ 63 ∧ macV (macAt (-2 ^ 63) 1 (-1)) = -2 ^ 63 - 1 ∧
    rnd (macAt 5 0 0).acc.toInt 0 = 5 ∧ (2 : Int) ^ 31 ≤ rnd (macAt (2 ^ 31) 0 0).acc.toInt 0 ∧
    rnd (macAt (-2 ^ 31 - 1) 0 0).acc.toInt 0 < -2 ^ 31 := by decide
/-- g1 and g2 address the local SRAM of core 0. -/
def dS : Device := with0 (regs 0x10100008 0x10100010)
/-- A line of the D-cache in state `t`, and the line number of 0x10000008. -/
def line (t : LineSt) : DLine := { st := t, data := 0x8070605040302010FFEEDDCCBBAA9988, bad := 0 }
/-- g1 addresses `a`; the D-cache of core 0 holds its line as `l`, and that of core 1 as `m`. -/
def held (a : Word) (l m : Option DLine) : Device :=
  (with0 { regs a 0x11223344 with dc := Tab.set (fun _ => none) [] (lineOf a.toNat) l }).setCore 1
    { k0 with dc := Tab.set (fun _ => none) [] (lineOf a.toNat) m }
theorem witness_LoadInstructions :
    (∃ f, loadForm 0 0 5 (.offset 1 0) (.ldh 0 0 5 (.offset 1 0)) 2 f) ∧
    (held 0x10110008 none none).memPasses 0 0x10110008 4 false = true ∧ isCached 0x10110008 = false ∧
    (held 0x10110008 none none).eccOf 0x10110008 = .good ∧ (held 0x10110008 none none).ready 0 0 = true ∧
    (held 0x10000008 (line .s) none).memPasses 0 0x10000008 4 false = true ∧ isCached 0x10000008 = true ∧
    (held 0x10000008 (line .s) none).dline 0 0x800000 = some (line .s) ∧
    (held 0x10000008 none none).memPasses 0 0x10000008 4 false = true ∧
    ((held 0x10000008 none none).setLines 0 0x800000).length < 4 ∧ (held 0x10000008 none none).flashBusy 0x10000008 = false ∧
    (∀ j, j < 4 → (held 0x10000008 none none).dline j 0x800000 = none) ∧
    (∀ j, j < 4 → (held 0x10000008 none none).eccOf (32 * 0x800000 + 8 * j) = .good) ∧
    (held 0x10000008 none (line .m)).dline 1 0x800000 = some (line .m) ∧ isShared 0x10000008 = true ∧
    (∀ j, j < 4 → j ≠ 1 → (held 0x10000008 none (line .m)).dline j 0x800000 = none) ∧
    isRegSpace bTBASE = true ∧ (with0 (regs (wd bTBASE) 0)).coreWaits 0 = false ∧ (with0 (regs (wd bTBASE) 0)).tagBars 0 = false ∧
    (((with0 (regs (wd bTBASE) 0)).begun 0).readReg (.core 0) bTBASE).2 = .ok 0 ∧
    (((with0 (regs (wd bTBASE) 0)).begun 0).readReg (.core 0) bTBASE).1.core = ((with0 (regs (wd bTBASE) 0)).begun 0).core := by
  refine ⟨⟨_, Or.inr (Or.inr (Or.inl ⟨rfl, rfl, rfl⟩))⟩, ?_⟩
  decide +kernel
theorem witness_LoadInstructions_local :
    dS.ready 0 0 = true ∧ dS.unwatched 0 = true ∧ dS.localWord 0 ((dS.coreC 0).ea (.pre 1) 1).toNat 1 = true ∧
    dS.localWord 0 ((dS.coreC 0).ea (.offset 1 2) 2).toNat 2 = true ∧
    dS.localWord 0 ((dS.coreC 0).ea (.index 1 0 0) 4).toNat 4 = true := by decide
theorem witness_StoreInstructions :
    dS.ready 0 0 = true ∧ dS.unwatched 0 = true ∧ dS.memPasses 0 ((dS.coreC 0).ea (.post 1) 1).toNat 1 true = true ∧
    dS.memPasses 0 ((dS.coreC 0).ea (.post 1) 2).toNat 2 true = true ∧ isCached 0x10100008 = false ∧
    dS.eccOf 0x10100008 = .good ∧ (held 0x10110008 none none).memPasses 0 0x10110008 4 true = true ∧
    (held 0x10000008 (line .e) none).memPasses 0 0x10000008 4 true = true ∧ (line .e).st ≠ .s ∧
    (held 0x10000008 (line .s) (line .s)).dline 1 0x800000 = some (line .s) ∧
    (∀ j y, j < 4 → (held 0x10000008 (line .s) (line .s)).dline j 0x800000 = some y → y.st = .s) ∧
    (held 0x10000008 none none).ready 0 0 = true ∧ (with0 (regs (wd (aEntry 0)) 5)).coreWaits 0 = false ∧
    (((with0 (regs (wd (aEntry 0)) 5)).begun 0).writeReg (.core 0) (aEntry 0) 5).2 = .ok 0 ∧
    (((with0 (regs (wd (aEntry 0)) 5)).begun 0).writeReg (.core 0) (aEntry 0) 5).1.core = ((with0 (regs (wd (aEntry 0)) 5)).begun 0).core := by
  refine ⟨by decide, by decide, by decide, by decide, by decide, by decide, by decide, by decide +kernel, by decide, by decide, ?_, by decide +kernel⟩
  intro j y h
  match j, h with
  | 0, _ => intro e; cases e; rfl
  | 1, _ => intro e; cases e; rfl
  | 2, _ => intro e; cases e
  | 3, _ => intro e; cases e
theorem witness_MachLoadsAndAdds :
    dS.ready 0 0 = true ∧ dS.unwatched 0 = true ∧ dS.localWord 0 0x10100008 2 = true ∧
    dS.localWord 0 0x10100010 2 = true ∧ (dS.coreC 0).acc.toInt = 0 ∧ dS.rdByte 0x10100008 = 0 ∧
    dS.rdByte 0x10100009 = 0 ∧ dS.rdByte 0x10100010 = 0 ∧ dS.rdByte 0x10100011 = 0 := by decide
/-- The halfwords at g1 and g2 are `x` and `y`. -/
def machDev (v : Int) (x y : Word) : Device :=
  word (word (with0 { regs 0x10100008 0x10100010 with acc := BitVec.ofInt 64 v }) 0x10100008 x) 0x10100010 y
theorem witness_MachLoadsAndAdds_overflow :
    (machDev (2 ^ 63 - 1) 1 1).ready 0 0 = true ∧ (machDev (2 ^ 63 - 1) 1 1).localWord 0 0x10100008 2 = true ∧
    ((machDev (2 ^ 63 - 1) 1 1).coreC 0).acc.toInt = 2 ^ 63 - 1 ∧ (machDev (2 ^ 63 - 1) 1 1).rdByte 0x10100008 = 1 ∧
    ((machDev (-2 ^ 63) 1 0xFFFF).coreC 0).acc.toInt = -2 ^ 63 ∧ (machDev (-2 ^ 63) 1 0xFFFF).rdByte 0x10100011 = 0xFF := by decide
/-- Core 0 runs in the open domain and addresses its trusted local SRAM; and the local SRAM of core 0 is marked idle. -/
def dTrust : Device := (with0 { regs 0x10100008 0x10100010 with status := 1 }).setLv (aAttr 0) 0xFFFFFFFE
def idle4 (d : Device) : Device := { d with mem := { d.mem with idle := 0x10 } }
def dOdd : Device := with0 (regs 0x10100001 0x10100010)
theorem witness_FailingAccessesTrap :
    accessForm 0 0 5 (.offset 1 0) (.stb 0 0 5 (.offset 1 0)) 1 true ∧
    dTrust.ready 0 0 = true ∧ memRegion 0x10100008 = some 4 ∧ dTrust.memTrusted 0x10100008 = true ∧ (dTrust.coreC 0).trusted = false ∧
    (with0 (regs 0x30000000 0)).ready 0 0 = true ∧ memRegion 0x30000000 = none ∧ isRegSpace 0x30000000 = false ∧
    (with0 (regs 0x30000000 0)).tagBars 0 = false ∧ (idle4 dS).ready 0 0 = true ∧ (idle4 dS).memIdle 0x10100008 = true ∧
    (with0 (regs 0x2000 0)).ready 0 0 = true ∧ (0x2000 : Nat) < 0x400000 ∧
    (dS.setEcc 0x10100008 .bad).eccOf 0x10100008 = .bad ∧ (dS.setEcc 0x10100008 .bad).ready 0 0 = true ∧
    (with0 (regs (wd bSNS) 0)).ready 0 0 = true ∧ blocks.elem (blkOf bSNS) = true ∧ blocks.elem (blkOf 0x404F0000) = false ∧
    (with0 (regs (wd bSNS) 0)).regDom (.core 0) bSNS true 0 = none ∧ isRegSpace 0x404F0000 = true ∧
    unalignedMem 0x10100010 2 = false ∧ unalignedMem 0x10100011 2 = true := by
  refine ⟨Or.inr ⟨rfl, Or.inl ⟨rfl, rfl⟩⟩, ?_⟩
  decide
theorem witness_FailingAccessesTrap_unaligned :
    dOdd.ready 0 0 = true ∧ unalignedMem ((dOdd.coreC 0).ea (.offset 1 0) 2).toNat 2 = true ∧
    unalignedMem ((dOdd.coreC 0).ea (.offset 1 0) 4).toNat 4 = true ∧
    unalignedMem ((dOdd.coreC 0).reg 1).toNat 2 = true := by decide
def dJ : Device := with0 (regs 0x1000 0x1001)
theorem witness_BranchesGoToTheirTargets :
    dJ.ready 0 0 = true ∧ dJ.targetTrap 0 ((dJ.coreC 0).pc + 4 * (1 : BitVec 22).signExtend 32) = none ∧
    dJ.targetTrap 0 ((dJ.coreC 0).reg 1) = none ∧
    dJ.targetTrap 0 ((dJ.coreC 0).pc + 4 * (1 : BitVec 17).signExtend 32) = none ∧
    (dJ.coreC 0).reg 0 = 0 ∧ (dJ.coreC 0).reg 1 ≠ 0 ∧
    fetchable 0 ((dJ.coreC 0).pc + 4 * (BitVec.ofInt 22 (-2048)).signExtend 32).toNat = false ∧
    fetchable 0 ((dJ.coreC 0).reg 2).toNat = false := by decide
/-- The 32 Kbyte of flash from 0 are in the open domain. -/
def openFlash (d : Device) : Device := d.setLv (aAttr 0) 0xFFFFFFFE
def dOpen : Device := openFlash (with0 { k0 with status := 1 })
def dUser : Device := with0 { k0 with status := 2 }
theorem witness_SystemRegisterAccesses :
    (with0 k0).ready 0 0 = true ∧ (k0.sup = true) ∧ k0.trusted = true ∧ supNum 0x21 = false ∧
    dOpen.ready 0 0 = true ∧ (dOpen.coreC 0).trusted = false ∧ (dOpen.coreC 0).sup = true := by decide
theorem witness_UserModeIsRefused :
    dUser.ready 0 0 = true ∧ (dUser.coreC 0).sup = false ∧ supNum 0 = true := by decide
/-- The D-cache of core 0 holds a dirty line with an uncorrectable doubleword at the line that g1 names with operation `op`. -/
def dirty (op : Nat) : Device :=
  with0 { regs (wd (0x10000000 + op)) 0 with dc := [(0x800000, some { line .m with bad := 2, one := 1 }), (0x800001, some (line .e))] }
theorem witness_CacheOperations_dirty : ∀ op ∈ [3, 4, 5, 6], (dirty op).ready 0 0 = true ∧
    wf ((dirty op).coreC 0 |>.reg 1) 2 0 = op ∧ wf ((dirty op).coreC 0 |>.reg 1) 31 5 = 0x800000 ∧ ((dirty op).coreC 0).sup = true ∧
    (dirty op).dline 0 0x800000 = some { line .m with bad := 2, one := 1 } ∧ isShared (32 * 0x800000) = true ∧
    (dirty op).memIdle (32 * 0x800000) = false ∧
    ({ dirty op with mem := { (dirty op).mem with idle := 4 } } : Device).memIdle (32 * 0x800000) = true ∧
    ((dirty op).coreC 0).ice = [] := by decide
theorem witness_CacheOperations : ∀ op ∈ [1, 2, 3, 4, 5, 6],
    (with0 (regs (wd op) 0)).ready 0 0 = true ∧ wf ((regs (wd op) 0).reg 1) 2 0 = op ∧ (regs (wd op) 0).sup = true := by
  decide
/-- Two entries wait in the merge buffer, and in the other device a register access of core 0 is under way. -/
def gathered : Device := { with0 k0 with mem := { r0.mem with merge :=
  [{ addr := 0x10000008, data := 0x1122, mask := 3, last := 0 }, { addr := 0x10000010, data := 0x33, mask := 1, last := 0 }] } }
def underway : Device := { with0 k0 with waits := [⟨.core 0, bSNS, some 5, true, ⟨true, true⟩, false⟩] }
theorem witness_FenceEmptiesTheMergeBuffer :
    gathered.ready 0 0 = true ∧ gathered.coreWaits 0 = false ∧ (gathered.mem.merge.map (fun m => m.addr)).Nodup ∧
    (∀ m ∈ gathered.mem.merge, isShared m.addr = true ∧ m.addr % 8 = 0 ∧ gathered.memIdle m.addr = false) ∧
    underway.ready 0 0 = true ∧ underway.coreWaits 0 = true := by decide
/-- Core 0 has a vector table in its local SRAM whose vectors 8 and 16 enter the handler at 0x1000 in the trusted domain, and
vector 2 in the open domain. -/
def vec (k : Core) (w : Word) : Device := word (with0 { k with vbase := 0x10100001 }) 0x10100020 w
theorem witness_SysEntersThroughTheShadowBank :
    (vec k0 0x1003).ready 0 0 = true ∧ (vec k0 0x1003).shadowVector 0 8 = true ∧
    (vec k0 0x1003).entryTrusted 0 8 = true ∧
    (openFlash (vec { k0 with status := 1 } 0x1001)).ready 0 0 = true ∧
    (openFlash (vec { k0 with status := 1 } 0x1001)).shadowVector 0 8 = true ∧
    ((openFlash (vec { k0 with status := 1 } 0x1001)).coreC 0).trusted = false := by decide
theorem witness_ExceptionEntryAndLockup :
    ((vec k0 0x1003).coreC 0).st = .running ∧ (vec k0 0x1003).shadowVector 0 8 = true ∧
    (vec k0 0x1003).entryTrusted 0 8 = true ∧
    (openFlash (vec k0 0x1001)).shadowVector 0 8 = true ∧ (openFlash (vec k0 0x1001)).entryTrusted 0 8 = false ∧
    ((openFlash (vec k0 0x1001)).coreC 0).trusted = true ∧ wb ((with0 k0).coreC 0).vbase 0 = false ∧
    (with0 k0).resetsTaken = true ∧ ((with0 k0).coreC 0).st ≠ .inReset := by decide
/-- Core 0 has a task-state block at 0x10100100 and, with `w` at vector 8, an entry word that SHADOW or SB sends to it. -/
def block (k : Core) (w : Word) : Device := vec { k with tsbp := 0x10100100 } w
theorem witness_ExceptionEntryAndLockup_block :
    ((vec { k0 with vbase := 0 } 0).coreC 0).st = .running ∧
    fetchable 0 ((with0 { k0 with vbase := 0x10110001 }).coreC 0 |>.entryAddr 8) = false ∧
    (idle4 (vec k0 0x1003)).memIdle (((idle4 (vec k0 0x1003)).coreC 0).entryAddr 8) = true ∧
    (block k0 0x1002).vectorHere 0 8 = true ∧ (block k0 0x1002).entryTrusted 0 8 = true ∧ wb ((block k0 0x1002).entryWord 0 8) 0 = false ∧
    (block k0 0x1002).tsbHome 0 0x10100100 = true ∧ (block k0 0x1002).handlerHeld 0 8 = true ∧ memRegion 0x10100100 = some 4 ∧
    (block { k0 with status := 0xB } 0x1003).vectorHere 0 8 = true ∧ ((block { k0 with status := 0xB } 0x1003).coreC 0).sb = true ∧
    (vec k0 0x1002).tsbHome 0 0 = false ∧ (vec k0 0x1002).vectorHere 0 8 = true ∧
    (block k0 0x30000002).vectorHere 0 8 = true ∧ fetchable 0 ((block k0 0x30000002).handler 0 8).toNat = false ∧
    (block { k0 with status := 1 } 0x1000).vectorHere 0 8 = true ∧ (block { k0 with status := 1 } 0x1000).entryTrusted 0 8 = false ∧
    (block { k0 with status := 1 } 0x1000).memTrusted 0x10100100 = true := by decide +kernel
/-- The block at 0x10100100 holds the words `l` from word 31 on. -/
def returns (k : Core) (l : List Word) : Device :=
  (l.zipIdx).foldl (fun d x => word d (0x10100100 + 4 * (31 + x.2)) x.1) (with0 { k with tsbp := 0x10100100 })
theorem witness_ReturnFromException_block :
    let d := returns k0 [0x2000, 0xB, 7, 1, 2, 0x101, 0, 5, 0x3000]
    d.ready 0 0 = true ∧ (d.coreC 0).sup = true ∧ (d.coreC 0).sb = false ∧ d.tsbHome 0 0x10100100 = true ∧
    (d.coreC 0).trusted = true ∧ (∀ i, i < 20 → d.eccOf (0x10100100 + 8 * i) = .good) ∧ d.rdLe (0x10100100 + 4 * 32) 4 = 0xB ∧
    (with0 { k0 with tsbp := 0x30000000 }).ready 0 0 = true ∧ memRegion 0x30000000 = none ∧
    (with0 { k0 with tsbp := 0x30000000 }).tagBars 0 = false := by decide +kernel
def inSb (e rpc : Word) : Device := with0 { k0 with status := 0xB, estat := e, epc := 0x2000, rpc := rpc }
theorem witness_ReturnFromException :
    (inSb 3 0).ready 0 0 = true ∧ ((inSb 3 0).coreC 0).sup = true ∧ ((inSb 3 0).coreC 0).sb = true ∧
    ((inSb 3 0).coreC 0).trusted = true ∧ (inSb 1 5).ready 0 0 = true ∧ ((inSb 1 5).coreC 0).rpc ≠ 0 ∧
    (openFlash (with0 { k0 with status := 9, estat := 3 })).ready 0 0 = true ∧
    ((openFlash (with0 { k0 with status := 9, estat := 3 })).coreC 0).trusted = false ∧
    ((openFlash (with0 { k0 with status := 9, estat := 3 })).coreC 0).sb = true := by decide
/-- Source 32 is pending with priority 5 for core 0, trusted. -/
def irq32 (d : Device) : Device := ((d.setLv (aScfg 32) 0x105).setLv (aIown 32) 0x103).setPend 32 true
theorem witness_SleepHaltsOrGoesOn :
    (with0 k0).ready 0 0 = true ∧ (with0 k0).pendingFor 0 = false ∧ (irq32 (with0 k0)).ready 0 0 = true ∧
    (irq32 (with0 k0)).pendingFor 0 = true ∧ k0.sup = true := by decide
def inRep (left : Nat) (f : Option Instr) : Core :=
  { k0 with rep := some { left := left, isI := true, repPc := 0xFFC, resumed := false, follower := f } }
/-- Core 0 is to repeat `i`, `n` times more, with g1 and g2 in its local SRAM. -/
def again (n : Nat) (isI : Bool) (i : Instr) (k : Core) : Device :=
  with0 { k with rep := some { left := n, isI := isI, repPc := 0xFFC, resumed := false, follower := some i } }
def rep3 (i : Instr) : Rep := { left := 3, isI := true, repPc := 0xFFC, resumed := false, follower := some i }
theorem witness_Repetition_followers :
    (∀ i ∈ [Instr.mac 0 0 1 2, .mach 0 0 1 2, .ldw 0 0 5 (.post 1), .stw 0 0 5 (.post 1), .add 0 1 5 1 1],
      (again 3 true i (regs 0x10100008 0x10100010)).repeats 0 i (rep3 i) = true) ∧ (regs 0 0).guardOk 1 = false ∧
    (again 3 true (.ldw 0 0 5 (.post 1)) (regs 0x10100008 0x10100010)).localWord 0 0x10100008 4 = true ∧
    (again 3 true (.ldw 0 0 5 (.post 1)) (regs 0x10100009 0x10100010)).repeats 0 (.ldw 0 0 5 (.post 1)) (rep3 (.ldw 0 0 5 (.post 1))) = true ∧
    unalignedMem 0x10100009 4 = true ∧
    (irq32 (again 3 true (.add 0 0 5 1 1) { k0 with status := 7 })).offerOf 0 = some 32 ∧
    (irq32 (again 3 false (.add 0 0 5 1 1) { k0 with status := 7 })).offerOf 0 = some 32 ∧
    (irq32 (again 3 true (.add 0 0 5 1 1) { k0 with status := 7 })).accepted 0 = false := by decide +kernel
theorem witness_Repetition :
    (with0 k0).ready 0 0 = true ∧
    ((with0 (inRep 3 (some (.addi 0 0 1 1 1)))).coreC 0).live = true ∧ k0.guardOk 0 = true ∧
    (with0 (inRep 1 (some (.addi 0 0 1 1 1)))).bpAt 0 = none ∧
    (with0 (inRep 3 none)).bpAt 0 = none ∧ (with0 (inRep 3 none)).fetched 0 = true := by decide
theorem witness_UndefinedWordsAndFailingFetches :
    (with0 k0).executing 0 = true ∧ undefinedWord 0x80000000 = true ∧ guardOf (.fence 0 8) = some (0, 8) ∧
    (63 : Nat) < (64 : BitVec 8).toNat ∧ fetchable 0 1 = false ∧ (with0 { k0 with pc := 1 }).bpAt 0 = none := by decide
theorem witness_InterruptEntry :
    let d := irq32 (with0 { k0 with status := 7 })
    (d.coreC 0).halted = false ∧ (d.coreC 0).hand = none ∧ (d.coreC 0).rep = none ∧ d.offerOf 0 = some 32 ∧
    d.accepted 0 = false ∧ (d.coreC 0).live = true ∧ d.bpAt 0 = none ∧ guardOf (.sys 0 0 0) = some (0, 0) := by decide
def dHand : Device := with0 { k0 with hand := some (0x2000, 0x20000000) }
/-- Core 1 has not reached its boundary yet. -/
def dHand2 : Device := dHand.setCore 1 { k0 with hand := some (0x2000, 0x20000000) }
theorem witness_HandoverRestartsTheCore :
    (dHand.coreC 0).hand = some (0x2000, 0x20000000) ∧ (dHand.coreC 0).halted = false ∧ (dHand.coreC 0).rep = none ∧
    wb (dHand.lv (aDbgC 0 0)) 8 = false ∧ (∀ j, j < 4 → j ≠ 0 → (dHand.coreC j).hand = none) ∧
    (dHand2.coreC 0).hand = some (0x2000, 0x20000000) ∧ (dHand2.coreC 0).halted = false ∧ (dHand2.coreC 0).rep = none ∧
    (dHand2.coreC 1).hand ≠ none ∧ (dHand2.coreC 1).handed = false ∧ (dHand2.coreC 1).halted = false := by decide
theorem witness_FailedGuardsDoNothing :
    guardOf (.sys 0 1 0) = some (0, 1) ∧ (with0 k0).executing 0 = true ∧ k0.guardOk 1 = false := by decide

/-! ### The block -/

/-- The device in normal operation, no command waiting. -/
def dRun : Device := { r0 with rst := { r0.rst with phase := .run } }
def dFb : Device := { r0 with time := { r0.time with src := true, qual := false } }
/-- Compare 0 is enabled and periodic with value 100, period 7. -/
def dCmp (ctl : Word) (per : Word) : Device := (r0.setCmp 0 { val := 100, ctl := ctl }).setLv (bTBASE + 0x108) per
def late (d : Device) : Device := { d with time := { d.time with now := 200 } }

theorem witness_RegisterWritesAreChecked :
    r0.regsUp = true ∧ r0.levelBars (.core 0) true 0x40900000 = false ∧
    blocks.elem (blkOf 0x40900000) = false ∧ blocks.elem (blkOf bRST) = true ∧
    (with0 { k0 with status := 2 }).regDom (.core 0) bRST true 0 = some 3 ∧
    r0.regDom (.core 0) (bRST + 2) true 0 = none ∧ (bRST + 2) % 4 ≠ 0 ∧
    ({ r0 with rst := { r0.rst with unitBusy := 0x7FF } }).blockBusy bSNS = true ∧
    r0.regDom (.core 0) bSNS true 0 = none ∧ r0.blockBusy bSNS = false ∧
    setWord (aPwm 0 0) 5 = some 5 ∧ r0.ofLockedRoute (aPwm 0 0) = false ∧ r0.regDom (.core 0) (aPwm 0 0) true 5 = none ∧
    isSet (aRtCfg 0) = true ∧ ({ r0 with evr := { r0.evr with lock := 1 } }).ofLockedRoute (aRtCfg 0) = true ∧
    ({ r0 with evr := { r0.evr with lock := 1 } }).regDom (.core 0) (aRtCfg 0) true 0 = none ∧
    isSet (aPwm 0 0) = true ∧ r0.regDom (.core 0) (aPwm 0 0 + 0x8000) true 5 = none ∧
    blocks.elem (blkOf (aPwm 0 0 + 0x8000)) = true ∧ r0.blockBusy (blkOf (aPwm 0 0 + 0x8000)) = false ∧
    r0.tagFreeFor (.core 0) = true ∧ ({ r0 with waits := underway.waits } : Device).ordered 0 = true ∧ r0.ordered 0 = false ∧
    r0.ordered 5 = false ∧ ({ r0 with waits := [⟨.link, bSNS, some 5, false, ⟨true, true⟩, false⟩] } : Device).noTag 5 = true := by
  decide
theorem witness_CadenceOfTheDevice :
    r0.reaches (.core 0) bTBASE = true ∧
    wb ((dCmp 0 7).cmpC 0).ctl 0 = false ∧ wb ((dCmp 3 7).cmpC 0).ctl 0 = true ∧ wb ((dCmp 3 7).cmpC 0).ctl 1 = true ∧
    ((dCmp 3 7).nowN < ((5 : Word) ++ ((dCmp 3 7).cmpC 0).held : DWord).toNat) ∧
    (((0 : Word) ++ ((late (dCmp 3 7)).cmpC 0).held : DWord).toNat ≤ (late (dCmp 3 7)).nowN) ∧
    (dCmp 0 7).nowN < ((dCmp 0 7).cmpC 0).val.toNat ∧ ((late (dCmp 0 7)).cmpC 0).val.toNat ≤ (late (dCmp 0 7)).nowN ∧
    dFb.time.src = true ∧ r0.time.src = false ∧ ((dCmp 3 7).cmpC 0).late = none ∧ dRun.rst.phase ≠ .coldHold ∧ r0.here.restore = none ∧
    (dCmp 3 7).nowN ≤ ((dCmp 3 7).cmpC 0).val.toNat ∧ ((dCmp 3 7).lv (bTBASE + 0x108)).toNat ≠ 0 ∧
    wb ((dCmp 1 7).cmpC 0).ctl 1 = false := by decide
def leapDay : Cal := { year := 2024, mon := 2, day := 28, hour := 23, min := 59, sec := 59 }
def lastSecond : Cal := { year := 2199, mon := 12, day := 31, hour := 23, min := 59, sec := 59 }
theorem witness_CalendarCountsSeconds :
    leapDay.valid ∧ leapDay.isLast = false ∧ lastSecond.isLast = true ∧
    stagedCal leapDay.timeWord leapDay.dateWord = some leapDay := by
  unfold Cal.valid
  decide
def dRtc (cmd : Option Nat) : Device := { r0 with rtc := { r0.rtc with cmd := cmd, cal := leapDay } }
def staged (d : Device) : Device := (d.setLv (bRTC + 0x20) leapDay.timeWord).setLv (bRTC + 0x24) leapDay.dateWord
def tickMode (d : Device) : Device := d.setLv bRTC 3
theorem witness_CalendarAndRtc :
    (dRtc none).reaches (.core 0) bRTC = true ∧ (dRtc (some 1)).rtc.cmd ≠ none ∧
    stagedCal 0xFF ((dRtc (some 2)).lv (bRTC + 0x24)) = none ∧
    stagedCal ((staged (dRtc (some 2))).lv (bRTC + 0x20)) ((staged (dRtc (some 2))).lv (bRTC + 0x24)) = some leapDay ∧
    (dRtc (some 3)).tickMode = false ∧ leapDay.valid ∧ leapDay.addHour.valid ∧ leapDay.subHour.valid ∧
    (tickMode (dRtc (some 4))).tickMode = true ∧ (dRtc none).powered = true ∧ (1900 : Nat) ≤ 3000 ∧
    (dRtc none).rtc.cal.isLast = false ∧ (tickMode (dRtc none)).almEn = true ∧
    (tickMode ((dRtc none).setLv (bRTC + 0x40) 9)).rtc.ticks.toNat ≤
      (tickMode ((dRtc none).setLv (bRTC + 0x40) 9)).almTicks.toNat := by
  unfold Cal.valid
  decide
def inMode (m : PMode) (req : Nat) (ramp : Bool) : Device := { dRun with pwr := { dRun.pwr with mode := m, req := req, ramp := ramp } }
def slotRun (m : PMode) : Device := (inMode m 0 false).setSlot 3 { st := .running, run := some { desc := [], page := [], m := [], r := 0, lose := false, ovrd := false, bump := false, stop := false, map := 0, trigAt := 0 } }
theorem witness_PowerCommands :
    dRun.reaches (.core 0) bPWR = true ∧ dRun.pwr.mode = .run ∧ dRun.lanesBusy = [] ∧ (slotRun .run).lanesBusy ≠ [] ∧
    (inMode .park 1 false).pwr.mode ≠ .run ∧ (inMode .park 1 true).pwr.ramp = true ∧ (inMode .park 0 false).pwr.req = 0 ∧
    (inMode .park 1 false).reaches (.core 0) bPWR = true ∧ (inMode .park 1 false).pwr.mode = .park ∧
    (inMode .park 1 false).pwr.ramp = false ∧ (inMode .park 1 false).le.bistBusy = false ∧ dRun.here.park = none ∧
    ((inMode .park 1 false).note (fun h => { h with park := some true })).here.park = some true ∧
    ((inMode .park 1 false).note (fun h => { h with park := some true })).reaches (.core 0) bPWR = true ∧
    ((inMode .park 1 false).note (fun h => { h with park := some false })).here.park = some false := by decide
/-- Every core sleeps or is held, and the mode request is `req`. -/
def asleep (req : Nat) (en : Word) : Device := ((inMode .run req false).setCore 0 { k0 with st := .asleep }).setLv (bPWR + 0xC) en
/-- Core 0's halt is the one that asks for the mode. -/
def asks (d : Device) : Device := { d with pwr := { d.pwr with asks := some 0 } }
def sleeping : Device := (inMode .sleep 2 false).setLv (bPWR + 0xC) 1
def off (w : Word) : Device := { (r0.setLv (bPWR + 0xC) w).setLv bLINK 1 with rst := { r0.rst with phase := .off } }
theorem witness_SleepAndWake :
    (asks (asleep 2 1)).sleepAsks 0 = true ∧ (asks (asleep 3 1)).sleepAsks 0 = true ∧ sleeping.pwr.asks = none ∧ (asleep 2 1).pwr.req = 2 ∧
    (0 : Word) &&& (asleep 2 1).lv (bPWR + 0xC) &&& sleepWakes = 0 ∧
    (1 : Word) &&& (asleep 2 1).lv (bPWR + 0xC) &&& sleepWakes ≠ 0 ∧
    sleeping.resetsTaken = true ∧ sleeping.pwr.mode = .sleep ∧ wb (sleeping.lv (bPWR + 0xC) &&& sleepWakes) 0 = true ∧
    (off 1).rst.phase = .off ∧ wb ((off 1).lv (bPWR + 0xC)) 0 = true ∧ wb ((off 0).lv bLINK) 0 = true := by decide
def pace (p : Pwr) : Device := { dRun with pwr := p }
theorem witness_PaceAndLedger :
    dRun.powered = true ∧ dRun.floorCmp ≤ (2000 : BitVec 16).toNat ∧
    ((wf (dRun.lv aPwrCtl) 14 6 : Int) < (dRun.paceTarget : Int) - (2000 : BitVec 16).toNat) ∧
    gainN (dRun.lv aPwrCtl) ≤ (pace { dRun.pwr with hiRun := 40 }).pwr.hiRun + 1 ∧
    ((dRun.paceTarget : Int) - (4000 : BitVec 16).toNat < -(wf (dRun.lv aPwrCtl) 14 6 : Int)) ∧
    gainN (dRun.lv aPwrCtl) ≤ (pace { dRun.pwr with loRun := 40 }).pwr.loRun + 1 ∧
    (-(wf (dRun.lv aPwrCtl) 14 6 : Int) ≤ (dRun.paceTarget : Int) - (2300 : BitVec 16).toNat) ∧
    ((dRun.paceTarget : Int) - (2300 : BitVec 16).toNat ≤ (wf (dRun.lv aPwrCtl) 14 6 : Int)) ∧
    (3 : Nat) ≤ (pace { dRun.pwr with underRun := 3 }).pwr.underRun ∧ (0 : BitVec 16).toNat < dRun.floorCmp ∧
    wf (dRun.lv aPwrCtl) 1 0 = 0 ∧ (pace { dRun.pwr with avgOn := true, avgCnt := 256 }).pwr.avgCnt = 256 ∧
    dRun.flashRuns = false ∧ (dRun.getPage dRun.newerIs1).length / 4 < 512 := by decide
/-- SLEEP ends in the tick in which a window ends. -/
def wakesNow : Device := (dRun.advTo dRun.nextWindow).note (fun h => { h with woke := true })
theorem witness_PaceAndLedger_more :
    (dRun.advTo dRun.nextWindow).here.woke = false ∧ dRun.pwr.ramp = false ∧ dRun.pwr.mode ≠ .sleep ∧ dRun.resetsTaken = true ∧
    dRun.pwr.episode = false ∧ (wakesNow.advTo wakesNow.nextWindow).here.woke = true ∧ wakesNow.powered = true ∧
    dRun.pwr.vcode < 60 ∧ 0 < dRun.pwr.vcode ∧ (pace { dRun.pwr with avgOn := true, avgCnt := 256 }).pwr.avgOn = true ∧
    (pace { dRun.pwr with due := [.aging 1200] }).pwr.due = [.aging 1200] ∧ (pace { dRun.pwr with due := [.aging 1200] }).flashRuns = false := by
  decide
def inPhase (p : Phase) : Device := { r0 with rst := { r0.rst with phase := p } }
theorem witness_SupplyAndDeviceResets :
    dRun.rst.phase = .run ∧ (inPhase .coldHold).pwr.vdd33ok = true ∧ (inPhase .fuseLoaded).rst.rstLow = false ∧
    (inPhase .fuseLoaded).time.qual = true ∧ (inPhase .warm).pwr.ramp = false ∧ (inPhase .warm).flash.cmd = none ∧
    (inPhase .warm).fuse.prog = none ∧ dRun.pwr.vddaForce = false ∧
    ({ dRun with pwr := { dRun.pwr with vddalo := true } }).pwr.vddalo = true := by decide
def owlOn (o : Owl) : Device := { (dRun.setLv aOwlCtl 1).setLv aOwlTo 0x100 with owl := o }
theorem witness_ResetsOfUnitsAndDevice :
    dRun.reaches (.core 0) bRST = true ∧ dRun.spent.get (fun _ => false) aOwlCtl = false ∧
    ({ dRun with spent := [(aOwlCtl, true)] }).spent.get (fun _ => false) aOwlCtl = true ∧
    (owlOn {}).owlEn = true ∧ (owlOn {}).reaches (.core 0) bRST = true ∧
    wf ((owlOn {}).lv aOwlWin) 15 0 ≤ (owlOn { isOpen := true }).owlCount ∧ isPin 3 = true ∧
    ((dRun.setCore 0 { st := .inReset }).coreC 0).st = .inReset ∧ dRun.rst.hold.getLsbD 1 = true ∧
    ((dRun.setCore 1 { st := .inReset }).coreC 1).st = .inReset ∧ dRun.rst.unitBusy.getLsbD 6 = false ∧
    ({ dRun with rst := { dRun.rst with unitBusy := 0x7FF } } : Device).rst.unitBusy.getLsbD 5 = true ∧
    dRun.waits.filter (waitsFor 5) = [] ∧ (List.range 11).any (fun u => waitsFor u ⟨.core 0, bSNS, some 5, true, ⟨true, true⟩, false⟩) = true ∧
    dRun.rst.hold.getLsbD 0 = false ∧ (owlOn { on := true }).owlCounts = true ∧
    (owlOn { on := true }).owlEw < (owlOn { on := true }).owlTo ∧
    (owlOn { on := true }).owlCount ≤ (owlOn { on := true }).owlTo - (owlOn { on := true }).owlEw := by decide

/-! ### The units of the drive path -/

/-- Register `a` of the sets has value `v` in the active set. -/
def inForce (d : Device) (a : Nat) (v : Word) : Device := { d with active := d.active.set setReset a v }
/-- Converter 3 is enabled for source `src`. -/
def conv (src : Nat) (c : SnsCh) : Device := (inForce dRun (aSnsCfg 3) (wd (1 + 2 * src))).setSns 3 c
def seq (done : Bool) : SnsRun :=
  { start := 0, avg := 1, alt := true, fmt := false, ofs := 0, gain := 0x8000, short := false, vlo := false,
    auxVlo := false, mainDone := done, auxDone := false, inp := false }
def sampling : PwmCh := { en := true, per := 100, smp := 0x10005 }
theorem witness_SenseCommands :
    (conv 2 {}).reaches (.core 0) bSNS = true ∧ (8 : Word).getLsbD 3 = true ∧ wb ((conv 2 {}).snsCfg 3) 0 = true ∧
    wf ((conv 2 {}).snsCfg 3) 2 1 = 2 ∧ (conv 2 {}).parked = false ∧ (conv 2 {}).snsBusy 3 = false ∧
    (conv 2 { run := some (seq false) }).snsBusy 3 = true ∧ ((conv 2 {}).snsC 3).cal = none ∧
    ((conv 2 { cal := some {} }).snsC 3).cal ≠ none ∧
    (((conv 0 {}).setPwm 3 sampling).pwmC 3).sampleOfs = some 5 ∧ (conv 0 {}).frozen = false ∧
    wf ((conv 0 {}).snsCfg 3) 2 1 = 0 ∧ ((conv 0 {}).snsC 3).run = none := by decide
/-- Comparator 3 has configuration `k`. -/
def comp (k : Word) (c : SnsCh) : Device := (inForce dRun (aSnsCmp 3) k).setSns 3 c
/-- The same with thresholds HI 2048 and LO 1024. -/
def compAt (k : Word) (c : SnsCh) : Device := inForce (comp k c) (aSnsThr 3) 0x08000400
theorem witness_ConversionsAndComparators :
    ((conv 2 { run := some (seq false) }).snsC 3).run = some (seq false) ∧ (seq false).mainDone = false ∧
    [acq 5].length = (seq false).avg ∧ (0 : Nat) < 1 ∧ (seq true).mainDone = true ∧ (seq true).alt = true ∧
    (seq true).auxDone = false ∧ wb ((comp 15 {}).snsCmp 3) 0 = true ∧ wb ((comp 15 {}).snsCmp 3) 1 = true ∧
    wb ((comp 15 {}).snsCmp 3) 2 = true ∧ wb ((comp 15 {}).snsCmp 3) 3 = true ∧ ((comp 15 {}).snsC 3).settle = none ∧
    (comp 15 {}).pwr.vddaForce = false ∧ ((comp 3 { settle := some 7 }).snsC 3).settle = some 7 ∧
    wf ((comp 3 { settle := some 7 }).snsCmp 3) 11 8 ≤ 1 ∧ ((comp 15 {}).snsC 3).hAt ≤ (comp 15 {}).nowN ∧
    wf ((compAt 15 {}).act (aSnsThr 3)) 27 16 = 2048 ∧ wf ((compAt 15 {}).act (aSnsThr 3)) 11 0 = 1024 ∧
    hystCodes 15 = 0 ∧ 1 < wf ((compAt 0x305 {}).snsCmp 3) 11 8 ∧ wb ((compAt 0x305 {}).snsCmp 3) 1 = false ∧
    rawOutputs true false 0x08000400 0 3000 4096 = (true, false) ∧ ((compAt 15 {}).snsC 3).lAt ≤ (compAt 15 {}).nowN ∧
    (1024 : Int) * 4096 < 2048 * 4096 ∧ ((compAt 0x305 { rawH := true }).snsC 3).rawH = true ∧
    ((compAt 15 {}).pwmC 3).hardAt = none ∧ ((compAt 0x305 { rawH := true }).snsC 3).hAt + (wf ((compAt 0x305 {}).snsCmp 3) 11 8 - 1) < 2 ^ 64 ∧
    (compAt 0x305 {}).nowN ≤ ((compAt 0x305 { rawH := true }).snsC 3).hAt + (wf ((compAt 0x305 {}).snsCmp 3) 11 8 - 1) := by decide
/-- A threshold is met at its code in the sense of R223: just above HI, at it, just below HI − 8 codes, below LO. -/
theorem test_thresholds :
    rawOutputs false false 0x08000400 8 2049 4096 = (true, false) ∧ rawOutputs false false 0x08000400 8 2048 4096 = (false, false) ∧
    rawOutputs true false 0x08000400 8 2040 4096 = (true, false) ∧ rawOutputs true false 0x08000400 8 2039 4096 = (false, false) ∧
    rawOutputs false false 0x08000400 8 1023 4096 = (false, true) ∧ rawOutputs false true 0x08000400 8 1033 4096 = (false, false) := by
  decide
/-- R224, R280: with FILT 3 the filtered output asserts in the tick of the third sample, and HARD is to be set a tick later. -/
theorem test_comparator_filter :
    let d := after (.comparatorAssert 3 ⟨true, 3000, 4096⟩) (compAt 0x305 {})
    let e := after (.comparatorAssert 3 ⟨true, 3000, 4096⟩) d
    (d.snsC 3).filtH = false ∧ (e.snsC 3).filtH = true ∧ e.nowN = d.nowN + 2 ∧ wb (e.pwmC 3).trip 1 = false ∧
    (e.pwmC 3).hardAt = some (e.nowN + 1) := by decide +kernel
/-- Converter 3 in step `n` of its calibration. -/
def calib (n : Nat) (g r : Nat) (t : Option Nat) : SnsCal := { step := n, sumG := g, sumR := r, running := t, expire := 9 }
theorem witness_Calibration :
    ((conv 3 { cal := some (calib 0 0 0 none) }).snsC 3).cal = some (calib 0 0 0 none) ∧
    (conv 3 { cal := some (calib 0 0 0 none) }).calFree 3 = true ∧
    ((conv 3 { cal := some (calib 0 0 0 none) }).advTo 9).calFree 3 = true ∧
    ((conv 3 { cal := some (calib 0 0 0 none), run := some (seq false) }).advTo 9).calFree 3 = false ∧
    (conv 3 {}).nowN ≤ (calib 0 0 0 none).expire ∧ (calib 4 0 0 (some 1)).step < 31 ∧
    (0x7000 : Nat) ≤ calGain 0 (46080 + realCode 3072 0) ∧ calGain 0 (46080 + realCode 3072 0) ≤ 0x9000 ∧
    calGain 0 (realCode 3072 (-5)) > 0x9000 := by decide
/-- Tracker 3 has configuration `cfg` and modulus `m`. -/
def track (cfg m : Word) (c : TrkCh) : Device := (inForce (inForce dRun (aTrkCfg 3) cfg) (aTrkMod 3) m).setTrk 3 c
theorem witness_TrackersCount :
    (track 1 0 {}).reaches (.core 0) bTRK = true ∧ wb ((track 1 0 {}).trkCfg 3) 0 = true ∧
    wf ((track 1 0 {}).trkCfg 3) 2 1 = 0 ∧ wb ((track 1 0 {}).trkCfg 3) 3 = false ∧
    quadPos true false = (quadPos false false + 1) % 4 ∧ quadPos false false = (quadPos false true + 1) % 4 ∧
    wf ((track 5 7 {}).trkCfg 3) 2 1 = 2 ∧ ((track 5 7 {}).trkC 3).a = false ∧
    wb ((track 0 0 {}).trkCfg 3) 0 = false ∧ wf ((track 1 0 {}).trkCfg 3) 11 10 = 0 ∧
    ((track 1 0 {}).trkC 3).z = false ∧ wb ((track 1 0 {}).trkC 3).stat 0 = false ∧
    ((track 1 0 {}).trkHere 3).count = none ∧ ((track 1 0 {}).trkHere 3).index = false ∧ ((track 1 0 {}).trkHere 3).idx = false ∧
    ((track 1 0 { did := { tick := dRun.nowN, count := some false } }).trkHere 3).count = some false ∧
    ((track 0x100 0 { did := { tick := dRun.nowN, index := true } }).trkHere 3).index = true ∧ wb ((track 0x100 0 {}).trkCfg 3) 8 = true ∧
    ((track 1 0 {}).trkC 3).due = [] ∧
    (track 1 0 {}).trkWaits 3 = [] ∧ (track 1 0 { pins := 1 }).trkWaits 3 = [0] ∧ (track 1 0 { pins := 3 }).trkWaits 3 = [0, 1] ∧
    (track 1 0 { pins := 3 }).trkReady 3 0 = 3 ∧ (track 1 0 { pins := 3 }).trkReady 3 1 = 3 ∧ dRun.nowN ≤ 3 ∧
    ((track 1 0 {}).trkC 3).refAt ≠ some 3 ∧ wf ((track 3 0 {}).trkCfg 3) 2 1 = 1 ∧ hallValid 1 = true ∧
    hallState true false false = 1 ∧ hallPos (hallState true true false) = (hallPos 1 + 1) % 6 ∧
    hallPos 1 = (hallPos (hallState true false true) + 1) % 6 ∧ hallValid (hallState true true true) = false := by decide
/-- R236: with FILT 2 the level follows five ticks after the pin. -/
theorem test_tracker_delay :
    let d := after (.trackerCount 3 true false false) (track 0x21 0 {})
    let e := after (.trackerCount 3 true false false) d
    (d.trkC 3).pos = 0 ∧ d.nowN = dRun.nowN ∧ (e.trkC 3).pos = 1 ∧ e.nowN = dRun.nowN + 5 := by decide +kernel
/-- R255: a write in the tick of a count comes first, and the count is applied to it. -/
theorem test_write_before_count :
    let d := after (.trackerCount 3 true false false) (after (.trackerCount 3 true false false) (track 1 0 {}))
    ((after (.trkPosWrite (.core 0) 3 70) d).trkC 3).pos = 71 := by decide +kernel
/-- Channel 3 is `c`, with the registers of the sets at their reset values but for PER 100 and CFG `cfg`. -/
def chan (cfg : Word) (c : PwmCh) : Device := (inForce (inForce dRun (aPwm 3 1) 100) (aPwm 3 0) cfg).setPwm 3 c
theorem witness_PwmChannels :
    (chan 0 {}).reaches (.core 0) bPWM = true ∧ (8 : Word).getLsbD 3 = true ∧ ((chan 0 {}).pwmC 3).en = false ∧
    ((chan 0 { en := true }).pwmC 3).en = true ∧ (1 : Word).getLsbD (3 / 4) = true ∧
    ((chan 0 { en := true, cfg := 0x10 }).pwmC 3).xfer = true ∧
    wb ((inForce dRun (aPwm 3 6) 0x40).tripCfg 3) 6 = true ∧ wb ((inForce dRun (aPwm 3 6) 0).tripCfg 3) 6 = false ∧
    (chan 0 {}).cmpAsserted 3 = false ∧ (chan 0 {}).safeIn = false ∧ (chan 0 {}).softReq 3 = false ∧
    ((comp 7 { filtH := true }).cmpAsserted 3 = true) ∧
    ({ dRun with rst := { dRun.rst with safeLow := true } }).safeIn = true ∧
    isWriter ((chan 0 {}).writerOf 3) (.core 0) = true ∧ isWriter ((chan 0 {}).writerOf 3) .loop = false ∧
    ((chan 0 { en := true, first := some 5 }).pwmC 3).first = some 5 ∧ (chan 0 {}).frozen = false ∧
    ((chan 0x10 { en := true, per := 100, running := true }).pwmC 3).counting = true ∧
    wb ((chan 0x10 {}).act (aPwm 3 0)) 4 = true ∧ wf ((chan 0 {}).act (aPwm 3 1)) 15 0 ≠ 0 ∧
    (50 : Nat) < ((chan 0 { en := true, per := 100, running := true }).pwmC 3).steps ∧
    (chan 0 {}).hwBits (aPwm 3 13) = 0 ∧ (after (.softTrip (.core 0) 8) (inForce dRun (aPwm 3 6) 0x40)).softReq 3 = true ∧
    wb ((after (.softTrip (.core 0) 8) (inForce dRun (aPwm 3 6) 0x40)).hwBits (aPwm 3 13)) 3 = true ∧
    dRun.pwmUp = true ∧ ({ dRun with rst := { dRun.rst with phase := .warm } }).pwmUp = false := by decide
theorem witness_PwmChannels_more :
    ((chan 0 { en := true, hardAt := some 0 }).pwmC 3).hardAt = some 0 ∧ 0 ≤ (chan 0 {}).nowN ∧ ((chan 0 {}).pwmC 3).hardAt = none ∧
    ((chan 0x10 { en := true, per := 100, running := true, pend := some 5 }).pwmC 3).pend = some 5 ∧
    ((chan 0x10 { en := true, per := 100, running := true }).pwmC 3).edgePos ≤ 50 ∧
    ((chan 0x10 { en := true, per := 100, running := true }).pwmC 3).running = true ∧
    ((chan 0 { en := true, first := some 5 }).pwmC 3).en = true ∧
    ({ chan 0 {} with dbg := { dRun.dbg with inForce := true, frzAt := 0 } } : Device).frozen = true := by decide
/-- R43: a duty written in the boundary tick takes effect at the boundary after it. -/
theorem test_duty_of_the_boundary_tick :
    let c : PwmCh := { en := true, per := 100, duty := 5 }
    let d := after (.dutyWrite (.core 0) 3 9) { chan 0 c with time := { dRun.time with now := 100 } }
    let e := after (.periodBoundary 3) d
    (e.pwmC 3).raw = 5 ∧ ((after (.periodBoundary 3) e).pwmC 3).raw = 9 := by decide +kernel
/-- R272: after a period of shape high, H_ref of a centre-aligned period falls at the boundary. -/
theorem test_centre_falls_at_the_boundary :
    (PwmCh.edgeTo { cfg := 1, per := 10, shape := .normal, t := 100, href := true, running := true } 0).href = false := by decide
def slot (c : LeSlot) : Device := dRun.setSlot 3 c
def evalRun : LeRun :=
  { desc := List.replicate 16 0, page := [], m := [0], r := 0, lose := false, ovrd := false, bump := false, stop := false,
    map := 0, trigAt := 0 }
theorem witness_LoopSlots :
    (slot {}).reaches (.core 0) bLE = true ∧ ((slot {}).slotC 3).st = .off ∧
    slotConflict (slot {}).act (((slot {}).slotsOn.filter (fun j => decide (j ≠ 3))) ++ [3]) 3 = false ∧
    slotConflict (inForce (slot {}) (aDesc 3 0) 0x01000020).act [3] 3 = true ∧ ((slot { st := .idle }).slotC 3).st = .idle ∧
    ((slot { st := .held }).slotC 3).st = .held ∧ wb ((inForce (slot {}) (aDesc 3 0) 0x20000).desc 3 0) 17 = true ∧
    wb ((slot {}).desc 3 0) 17 = false ∧ (slot {}).parked = false ∧ (slot {}).frozen = false ∧
    (slot {}).le.bistBusy = false ∧ (inMode .park 1 false).pwr.mode = .park ∧ (inMode .park 1 false).lanesBusy = [] ∧
    (slot { st := .queued }).freeLane = some 0 ∧
    ((List.range 32).find? (fun n => decide (((slot { st := .queued }).slotC n).st = .queued)
      && ((slot { st := .queued }).slotC n).run.isNone)) = some 3 ∧
    (List.range 16).all (fun i => decide ((slot { st := .queued }).eccOf (aDesc 3 i + 0x8000) = .good)) = true ∧
    descBad ((List.range 16).map (fun i => (slot {}).desc 3 i)) = false ∧ ((slot {}).slotInput 3 [] 0).2 = false ∧
    descBad ((List.range 16).map (fun i => (inForce (slot {}) (aDesc 3 0) 2).desc 3 i)) = true ∧
    evalRun.stop = false ∧ wb (nth evalRun.desc 0) 24 = false ∧ wf (nth evalRun.desc 5) 15 0 = 0 ∧
    (slot { mirror := some (0x10000000, 1, 2) }).tagsOf 4 < tagCap 4 ∧
    ({ dRun with waits := List.replicate 8 ⟨.loop, 0, none, true, ⟨true, true⟩, false⟩ }).tagBars 4 = true := by decide
/-- A mirror record of slot 3, for an address of main SRAM that the open domain reaches. -/
def mirrors : Device := (slot { mirror := some (0x10000008, 0x12345678, 0x9ABCDEF0) }).setLv (aAttr 4) 0xFFFFFFFE
def triggered : Device := after (.leTrig (.core 0) 8) (slot { st := .idle })
theorem witness_LoopSlots_more :
    (slot {}).here.trigs = [] ∧ (triggered.here.trigs.map (fun x => (x.1, x.2.1.st))) = [(3, .idle)] ∧
    triggered.reaches (.core 0) bLE = true ∧ ((slot { st := .running }).slotC 3).st = .running ∧
    (mirrors.slotC 3).mirror = some (0x10000008, 0x12345678, 0x9ABCDEF0) ∧ mirrors.tagBars 4 = false ∧
    mirrors.memIdle 0x10000008 = false ∧ mirrors.memTrusted 0x10000008 = false ∧
    ({ dRun with le := { dRun.le with bistBusy := true } } : Device).le.bistBusy = true ∧
    ({ dRun with dbg := { dRun.dbg with inForce := true } } : Device).frozen = true ∧ dRun.pwr.mode ≠ .park := by decide
/-- Descriptor words of slot 3 in the active set. -/
def descOf (d : Device) (i : Nat) (v : Word) : Device := inForce d (aDesc 3 i) v
/-- Slot 3 is queued and reads converter 3, whose value was taken at VDDALO. -/
def lowInput : Device := descOf ((slot { st := .queued }).setSns 3 { handed := 5, handedVlo := true }) 1 3
theorem witness_LanesStartEvaluations :
    (slot { st := .queued }).parked = false ∧ (slot { st := .queued }).frozen = false ∧ (slot { st := .queued }).freeLane = some 0 ∧
    ((List.range 32).find? (fun n => decide (((slot { st := .queued }).slotC n).st = .queued)
      && ((slot { st := .queued }).slotC n).run.isNone)) = some 3 ∧
    (∀ i, i < 16 → (slot {}).eccOf (aDesc 3 i + 0x8000) = .good) ∧ descBad ((List.range 16).map (fun i => (slot {}).desc 3 i)) = false ∧
    dLaw ((List.range 16).map (fun i => (descOf (slot {}) 0 1).desc 3 i)) = 1 ∧
    (∀ i, i < 64 → (descOf (slot {}) 0 1).eccOf (aPage 0 i + 0x8000) = .good) ∧
    (lowInput.slotInput 3 ((List.range 16).map (fun i => lowInput.desc 3 i)) 0).2 = true ∧
    wb ((descOf lowInput 0 0x40000).desc 3 0) 18 = true ∧
    descBad ((List.range 16).map (fun i => (descOf (slot {}) 0 2).desc 3 i)) = true ∧
    ((slot { st := .queued }).setEcc (aDesc 3 2 + 0x8000) .bad).eccOf (aDesc 3 2 + 0x8000) = .bad := by decide
/-- An evaluation of slot 3 of descriptor words 0, 2, 4 and 5, which began with the trigger in tick 0. -/
def runs (w0 w2 w4 w5 : Word) : LeRun := { evalRun with r := 9, desc := [w0, 0, w2, 0, w4, w5] ++ List.replicate 10 0 }
def runsOn (x : LeRun) : Device := descOf (slot { st := .running, run := some x }) 2 0x8005
theorem witness_EvaluationsComplete :
    ((runsOn (runs 0 0x8005 0 0)).slotC 3).run = some (runs 0 0x8005 0 0) ∧ wb (nth (runs 0 0x8005 0 0).desc 0) 24 = false ∧
    (runs 0 0x8005 0 0).stop = false ∧ ((runsOn (runs 0 0x8005 0 0)).slotC 3).st = .running ∧
    ((slot {}).setLv (aLe 3 7) 0x10000008).lv (aLe 3 7) = wd 0x10000008 ∧ (0x10000008 % 8 = 0 ∧ 0x10000004 % 8 ≠ 0) ∧
    entries (nth (runs 0 0x8005 0 0).desc 2) (nth (runs 0 0x8005 0 0).desc 3) = [(5, 0, 0)] ∧
    (runsOn (runs 0 0x8005 0 0)).slotWrites 3 5 = true ∧ (slot { st := .running, run := some (runs 0 0x8005 0 0) }).slotWrites 3 5 = false ∧
    5 < (late (slot {})).nowN - ((slot {}).slotC 3).trigAt ∧ wb (nth (runs 0x2000000 0x8005 0 5).desc 0) 25 = true ∧
    wf (nth (runs 0 0 0x1010001 0).desc 4) 23 16 ≤ (runs 0 0 0x1010001 0).count 0 false ∧ wf (nth (runs 0 0 0x1010001 0).desc 4) 23 16 ≠ 0 ∧
    wf (nth (runs 0 0 0x1010001 0).desc 4) 25 24 = 1 ∧ wf (nth (runs 0 0 0x2010001 0).desc 4) 25 24 = 2 ∧
    wf (nth (runs 0 0 0x3010001 0).desc 4) 25 24 = 3 ∧
    ((slot { st := .off, run := some { evalRun with stop := true } }).slotC 3).st = .off := by decide
/-- Route 5 is owned by core 0 and waits for the rising edge of software event 2. -/
def waits : Device := inForce dRun (aRtCfg 5) 0x800000E2
def flying : Device := { dRun with evr := { dRun.evr with fly := [⟨5, .rise, 9, 5, 2⟩] } }
theorem witness_EventRouter :
    waits.reaches (.core 0) bEVR = true ∧ waits.evr.sw.getLsbD 2 = false ∧ waits.rtCfg 5 = 0x800000E2 ∧
    (4 : Word).getLsbD 2 = true ∧ waits.routeLocked 5 = false ∧
    ownFail (waits.lv (aRtOwn 5)) (.core 0) (waits.reqOf (.core 0)) = none ∧
    (waits.setCore 1 { st := .running }).reaches (.core 1) bEVR = true ∧ wf (waits.lv (aRtOwn 5)) 1 0 ≠ 1 ∧
    waits.reaches (.core 0) (blkOf (ownReg (.lock 3))) = true ∧ waits.ofLockedRoute (ownReg (.lock 3)) = false ∧
    popFlight 5 flying.evr.fly = some (⟨5, .rise, 9, 5, 2⟩, []) ∧ popFlight 5 waits.evr.fly = none ∧ flying.nowN ≤ 9 ∧
    (Flight.due ⟨5, .rise, 9, 5, 2⟩ = 9) ∧ Flight.due ⟨5, .rise, 9, 4, 2⟩ = 10 ∧
    ({ flying with time := { flying.time with now := 20 } }).nowN = 20 ∧ waits.evr.dl.get (fun _ => none) 5 = none ∧
    waits.gpReady 3 < 2 ^ 64 ∧ waits.gpFilterN 3 ≤ 1 ∧ 1 < (inForce dRun (bEVR + 0x20) 0x3000).gpFilterN 3 ∧
    waits.gpWaits 3 = false ∧ (2 : Word).getLsbD 1 = true ∧
    flying.destIn 5 1 = false ∧ ((flying.setDma 1 { st := .armed, rem := 3 }).dmaC 1).st = .armed ∧
    waits.codeReaches (.core 0) bEVR = true ∧ waits.reaches .link bEVR = true ∧ waits.codeReaches .link bEVR = false ∧
    waits.codeReaches (.core 0) (blkOf (ownReg (.lock 3))) = true ∧ waits.reaches .link (blkOf (ownReg (.lock 3))) = true ∧
    waits.codeReaches .link (blkOf (ownReg (.lock 3))) = false ∧ (∀ g ∈ flying.evr.fly, Flight.due ⟨5, .rise, 9, 5, 2⟩ ≤ g.due) := by
  decide

/-- R393: a pulse reaches a cadence destination in the tick after its route tick, and ends one tick later. -/
theorem test_route_delay :
    let d := after (.swEventPulse (.core 0) 4) (inForce (inForce dRun (aRtCfg 5) 0x840000E2) (aRtMask 5) 1)
    d.evr.fly.map (fun f => (f.out, f.due)) = [(.rise, dRun.nowN + 1), (.fall, dRun.nowN + 2)] ∧
    (after (.routeDelivery 5) d).nowN = dRun.nowN + 1 := by decide +kernel

/-! ### Interrupts, sharing, memory -/

def resv (w : Bool) : Device := { dRun with intc := { dRun.intc with resv := [(0, some ⟨32, w⟩)] } }
def active (c : Nat) : Device := { dRun with intc := { dRun.intc with act := [(32, some (c, 5))] } }
theorem witness_InterruptCommands :
    dRun.reaches (.core 0) bINTC = true ∧ dRun.resvOf 0 = none ∧ (resv true).resvOf 0 = some ⟨32, true⟩ ∧
    (resv false).resvOf 0 = some ⟨32, false⟩ ∧ (active 0).actOf 32 = some (0, 5) ∧
    ((active 1).actOf 32).map (fun x => x.1) ≠ some 0 ∧ isLevelSrc 32 = false ∧
    ownFail (dRun.lv (aIown 32)) (.core 0) (dRun.reqOf (.core 0)) = none ∧ wb 1 0 = true ∧ wb 2 0 = false ∧
    (resv true).here.gone = [] := by decide
/-- R569: a withdrawal of the claim's tick comes after the claim. R584: a PCLR does not undo a raise of its tick. -/
theorem test_claim_before_withdrawal :
    (after (.interruptClaim (.core 0) 0) (after (.interruptPclr (.core 0) 32) ((resv false).setPend 32 true))).got (.core 0) =
      (32, .ok) ∧
    (after (.interruptPclr (.core 0) 32) (dRun.raiseIrq 32)).intc.pend.getLsbD 32 = true := by decide
/-- Queue 3 with the configuration and the words given. -/
def queue (cfg : Word) (l : List Word) : Device := dRun.setQue 3 { cfg := cfg, words := l }
theorem witness_QueuesKeepOrder :
    (queue 0x00018000 []).reaches (.core 0) bQUE = true ∧ ((queue 0x00018000 []).queC 3).en = true ∧
    ((queue 0x00018000 []).queC 3).words.length < ((queue 0x00018000 []).queC 3).cap ∧
    ((queue 0x00010000 []).queC 3).en = false ∧
    ((queue 0x00018000 (List.replicate 16 7)).queC 3).cap ≤ ((queue 0x00018000 (List.replicate 16 7)).queC 3).words.length ∧
    (queue 0x00018000 [4, 5]).queEcc 3 = .good ∧
    ownFail (dRun.lv (aQueOwn 3)) (.core 0) (dRun.reqOf (.core 0)) = none ∧
    (({ queue 0x00010000 [] with que := [(3, { cfg := 0x00010000 })] }).queClash 3 (0x00018000 &&& 0x03FF81FF) = true) ∧
    (queue 0x00100030 []).queClash 3 (0x00108030 &&& 0x03FF81FF) = false ∧ wb (0x00018000 : Word) 15 = true ∧
    wb (0x00010000 : Word) 15 = false ∧ ((queue 0x00018000 [4, 5]).setEcc (queEccKey 0) .bad).queEcc 3 = .bad ∧
    ((queue 0x00018000 [4, 5]).setEcc (queEccKey 0) .single).queEcc 3 = .single := by decide
def lockBy (h : Option (Fin 4)) : Device := dRun.setLock 3 { holder := h }
def shed (l : List Nat) (b : Buf) : Device := { dRun with shed := { dRun.shed with free := l, buf := [(3, b)] } }
theorem witness_LocksAndBuffers :
    dRun.reaches (.core 0) bLOCK = true ∧ (dRun.lockC 3).holder = none ∧ ((lockBy (some 1)).lockC 3).holder = some 1 ∧
    ((lockBy (some 0)).lockC 3).holder = some 0 ∧ dRun.reaches (.core 0) bSHED = true ∧
    (shed [4, 5] { owner := 0, gen := 2 }).shed.free = [4, 5] ∧ (shed [] { owner := 0, gen := 2 }).shed.free = [] ∧
    ((shed [4] { owner := 0, gen := 2 }).bufC 3).owner = 0 ∧ ((shed [4] { owner := 0, gen := 2 }).bufC 3).gen = 0x2003 / 0x1000 ∧
    ((shed [4] { owner := 1, gen := 2 }).bufC 3).owner ≠ 7 ∧ ((shed [4] { owner := 1, gen := 2 }).bufC 3).owner ≠ 0 ∧
    ((shed [4] { owner := 1, gen := 2 }).bufC 3).gen ≠ 0x1003 / 0x1000 ∧ (shed [4] { owner := 7, gen := 2 }).bufC 3 = { owner := 7, gen := 2 } ∧
    wf 0x10003 18 16 < 6 ∧ 6 ≤ wf 0x60003 18 16 := by decide
def dmaRegs (src dst cnt cfg : Word) (c : DmaCh) : Device :=
  ((((dRun.setLv (aDma 2 0) src).setLv (aDma 2 1) dst).setLv (aDma 2 2) cnt).setLv (aDma 2 3) cfg).setDma 2 c
def moving : Device := dmaRegs 0x10000000 0x10000100 4 2 { st := .running, csrc := 0x10000000, cdst := 0x10000100, cfg := 2, rem := 4, runLeft := 4, trust := true }
def moved1 (d : Device) : Device × Acc := (d.engBegin 6).busRead (.dma 2) (d.dmaC 2).csrc.toNat 4
/-- The device in which the channel has read what it reads ahead, and the write of its oldest element. -/
def filled (d : Device) : Device := (d.engBegin 6).dmaFill 2 ((d.dmaC 2).ahead d.free) 4
def moved2 (d : Device) : Device × Acc :=
  ((filled d).setDma 2 { (filled d).dmaC 2 with buf := [] }).busWrite (.dma 2) ((filled d).dmaC 2).cdst.toNat 4 0
def toward (src dst : Word) : Device := dmaRegs 0 0 0 0 { st := .running, csrc := src, cdst := dst, cfg := 2, rem := 4, runLeft := 4, trust := true }
theorem witness_DmaTransfers :
    (dmaRegs 0x10000000 0x10000100 4 2 {}).reaches (.core 0) bDMA = true ∧
    ownFail (dRun.lv (aDmaOwn 2)) (.core 0) (dRun.reqOf (.core 0)) = none ∧
    ((dmaRegs 0x10000000 0x10000100 4 2 {}).dmaC 2).st = .idle ∧
    wf ((dmaRegs 0x10000000 0x10000100 4 2 {}).lv (aDma 2 2)) 15 0 ≠ 0 ∧
    wf ((dmaRegs 0x10000000 0x10000100 4 2 {}).lv (aDma 2 3)) 1 0 ≠ 3 ∧
    ((dmaRegs 0x10000000 0x10000100 4 2 {}).lv (aDma 2 0)).toNat % 2 ^ 2 = 0 ∧
    wf ((dmaRegs 0x10000000 0x10000100 0 2 {}).lv (aDma 2 2)) 15 0 = 0 ∧
    (dmaRegs 0 0 0 0 { st := .pending }).dmaRunning = none ∧ (dmaRegs 0 0 0 0 { st := .pending }).dmaNext = some 2 ∧
    dRun.dmaRuns = none ∧ moving.resetsTaken = true ∧ moving.dmaRuns = some 2 ∧ (moving.dmaC 2).buf = [] ∧ (moving.dmaC 2).stop = 0 ∧
    (moving.engBegin 6).busBusy 0x10000000 = false ∧ (moved1 moving).2 = .ok 0 ∧ (moved1 moving).1.dmaC 2 = moving.dmaC 2 ∧
    wb (moving.dmaC 2).cfg 2 = false ∧ (moved1 (toward 0x30000000 0)).2 = .bus 0 ∧
    (moved1 (toward 0x30000000 0)).1.dmaC 2 = (toward 0x30000000 0).dmaC 2 := by decide
set_option maxRecDepth 8000 in
theorem witness_DmaTransfers_writes :
    ((filled moving).dmaC 2).buf = [(0, 0)] ∧ (moved2 moving).2 = .ok 0 ∧ ((moved2 moving).1.dmaC 2).st = .running ∧
    ((moved2 moving).1.dmaC 2).stop = 0 ∧ (moved2 moving).1.here.drops = [] ∧ (filled moving).pushDrops 0x10000100 = false ∧
    (moved2 (toward 0x10000000 0x30000000)).2 = .bus 0 ∧ ((moved2 (toward 0x10000000 0x30000000)).1.dmaC 2).stop = 0 ∧
    (filled { toward 0x10000000 (wd (bQUE + 0x1A0)) with que := [(5, { cfg := 0 })] }).pushDrops (bQUE + 0x1A0) = true ∧
    (moved2 { toward 0x10000000 (wd (bQUE + 0x1A0)) with que := [(5, { cfg := 0 })] }).2 = .ok 0 ∧
    (moved2 { toward 0x10000000 (wd bSNS) with rst := { dRun.rst with unitBusy := 0x7FF } }).2 = .wait ∧
    ({ toward (wd bSNS) 0x10000000 with rst := { dRun.rst with unitBusy := 0x7FF } } : Device).busBusy bSNS = true ∧
    ((moving.setDma 2 { moving.dmaC 2 with stop := 1 }).dmaC 2).stop = 1 ∧
    ((moving.setDma 2 { moving.dmaC 2 with stop := 2 }).dmaC 2).st = .running := by decide
def merged : Device := { dRun with mem := { dRun.mem with merge := [{ addr := 0x10000008, data := 0x1122, mask := 3, last := 0 }] } }
def ecc (a : Nat) : Device := dRun.setEcc a .single
theorem witness_MergeBufferAndScrubber :
    isShared 0x10000008 = true ∧ (merged.mem.merge.drop 0).head?.isSome = true ∧ dRun.reaches (.core 0) bMEM = true ∧
    (ecc 0x10000000).powered = true ∧ wb ((ecc 0x10000000).lv (bMEM + 0x10)) 0 = true ∧
    wb ((ecc 0).lv (bMEM + 0x10)) 1 = true ∧ (ecc 0).flash.cmd = none ∧ (ecc 0).mem.idle = 0 ∧ (ecc 0).eccOf 0 = .single ∧
    ((dRun.setCore 0 { k0 with ev := [⟨64, none⟩] }).coreC 0).ev = [⟨64, none⟩] := by decide
def flash (f : Flash) (a : Word) : Device := { dRun.setLv (bFLASH + 0x10) a with flash := f }
theorem witness_FlashCommands :
    dRun.codeReaches (.core 0) bFLASH = true ∧ dRun.reaches .link bFLASH = true ∧ dRun.codeReaches .link bFLASH = false ∧
    (flash { held := true } 0).flash.held = true ∧ (flash { key := 2, cmd := some (1, 0x200008, 5) } 0).flash.held = false ∧ (flash { key := 2 } 0x200008).flash.key = 2 ∧
    ((flash { key := 2 } 0x200008).lv (bFLASH + 0x10)).toNat < 0x400000 ∧ (flash { key := 2 } 0x200008).mem.idle.getLsbD 1 = false ∧
    0x200008 / 0x200000 ≠ (flash { key := 2 } 0x200008).runBank ∧ (flash { key := 2 } 0x200008).dwErased 0x200008 = true ∧
    (flash { key := 1 } 0).flash.key = 1 ∧ (flash { key := 2 } 0x400000).flashRefusal 1 ≠ 0 ∧
    (flash { key := 2, cmd := some (1, 0x200008, 5) } 0x200008).flash.cmd ≠ none ∧ (flash {} 0).flash.key ≠ 2 ∧
    (flash { cmd := some (1, 0x200008, 5) } 0).mem.undefPage.get (fun _ => 0) (0x200008 / 0x2000) = 0 ∧
    (flash { cmd := some (1, 0x200008, 5) } 0).mem.undefDw.get (fun _ => 0) (0x200008 / 8) = 0 ∧
    0x200010 / 0x2000 = 0x200008 / 0x2000 ∧ 0x3FFFFF / 0x200000 = 0x200008 / 0x200000 := by decide
def memIn (m : Mem → Mem) : Device := { dRun with mem := m dRun.mem }
def fuse (w : Word) (f : Fuse → Fuse) : Device := { dRun.setLv (bFUSE + 0x408) w with fuse := f dRun.fuse }
theorem witness_IdleMarksAndFuses :
    dRun.noIdle 7 = false ∧ dRun.noIdle 0 = true ∧ dRun.mem.bistBusy = false ∧
    (memIn (fun m => { m with idle := 0x80 })).mem.idle.getLsbD (wf 0x70 6 4) = true ∧ dRun.mem.idle.getLsbD 7 = false ∧
    (memIn (fun m => { m with bistBusy := true, bistReg := 7 })).mem.bistReg < 8 ∧
    (regionBounds 7).1 ≤ 0x10130000 ∧ 0x10130000 < (regionBounds 7).2 ∧ dRun.codeReaches (.core 0) bFUSE = true ∧
    dRun.reaches .link bFUSE = true ∧ dRun.codeReaches .link bFUSE = false ∧ dRun.reaches (.core 0) bMEM = true ∧
    32 ≤ wf ((fuse 40 id).lv (bFUSE + 0x408)) 6 0 ∧ (fuse 40 id).fuse.written.getLsbD 40 = false ∧
    wb ((fuse 40 id).fuseW 127) 0 = false ∧ (fuse 40 id).pwr.temp.toInt ≤ 85 ∧ (fuse 40 id).fuse.prog = none ∧
    wf ((fuse 4 id).lv (bFUSE + 0x408)) 6 0 < 32 ∧
    (fuse 40 (fun f => { f with prog := some (40, 9) })).fuse.prog = some (40, 9) := by decide

/-! ### The link, the object dictionary, the sets -/

/-- Both ports are up, with `l` for the rest. -/
def link (l : Link) : Device := { dRun with link := { l with la := { l.la with up := true }, lb := { l.lb with up := true } } }
theorem witness_LinkPorts :
    (link {}).linkAlive = true ∧ ((link {}).port .la).up = true ∧ ((link { la := { probeAt := some 3 } }).port .la).probeAt ≠ none ∧
    (link {}).link.head = false ∧ ((link {}).port .lb).turned = false ∧ (link { head := true }).link.head = true ∧
    (link { head := true }).link.healFrom = none ∧ (link { head := true, healFrom := some 4 }).link.healFrom = some 4 ∧
    (link { head := true, healFrom := some 4 }).link.closed = false ∧
    (link { head := true, healFrom := some 4 }).link.rpWait = false ∧ (dRun.port .la).up = false ∧ dRun.powered = true ∧
    (link { goodAt := some 3, sync := true }).link.goodAt = some 3 ∧ dRun.link.uturn = false ∧
    ((dRun.setPort .la { up := true, aligned := true }).link.uturn = true) ∧ (link {}).link.uturn = false ∧
    ((dRun.setPort .lb { up := true }).setPort .la { up := true, aligned := true }).link.uturn = false := by decide
/-- A frame comes in on LA and leaves on LB until tick 9999. -/
def passing : Device := { dRun with link := { la := { up := true }, lb := { up := true, txEnd := 9999, cross := true } } }
theorem witness_LinkPorts_more :
    (passing.port .lb).cross = true ∧ passing.nowN + 48 < (passing.port .lb).txEnd ∧ passing.nowN < (passing.port .lb).txEnd ∧
    ((passing.setLv (bLINK + 0xC) 0x40000).lv (bLINK + 0xC)).getLsbD 18 = true ∧ (link { rpWait := true, head := true }).link.healFrom = none ∧
    ((link {}).port .lb).up = true ∧ ((link {}).port .la).txEnd ≤ (link {}).nowN ∧ ((link {}).port .lb).cross = false := by decide
/-- A yard of stream 1 without a stall area, from LA's side; with RC when `rc` holds. -/
def yard0 : YardFrame :=
  { flags := 9, hop := 2, ylen := 0, seq := 7, ty := 50, accdly := 5, rsv := 0, hchk := 0, stall := [], crc := 0 }
set_option maxRecDepth 8000 in
theorem witness_MembersProcessYards :
    (link {}).linkAlive = true ∧ (link {}).link.head = false ∧ (link {}).link.la.up = true ∧ (link {}).link.lb.up = true ∧
    (link {}).link.la.turned = false ∧ (link {}).link.lb.turned = false ∧ (link {}).rst.unitBusy.getLsbD 9 = false ∧
    yard0.seal.dir = false ∧ yard0.seal.hchk = yard0.seal.check ∧ yard0.seal.crc = yard0.seal.crcOf ∧
    ((link {}).stallOf yard0.seal.stream).2 = (0, 0) ∧
    ({ yard0.seal with hchk := ~~~ yard0.seal.hchk } : YardFrame).hchk ≠
      ({ yard0.seal with hchk := ~~~ yard0.seal.hchk } : YardFrame).check := by decide
/-- The head, with stream 1 due in tick 9. -/
def headDue : Device :=
  ((link { head := true, hdue := [(1, some 9)] }).setLv (bLINK + 0x210) 1).setLv (bLINK + 0x214) 100
/-- The head with queue 0 for its errands out, queue 1 for those back; the handle of buffer 5 waits. -/
def headErr (f : Option HeadErr) : Device :=
  (((link { head := true, flight := f }).setLv (bLINK + 0x250) 0x100).setQue 0 { cfg := 0x00018000, words := [5] }).setQue 1
    { cfg := 0x00018001 }
def flight0 : HeadErr := { handle := 5, at' := 0, tag := 0, left := 1 }
/-- A frame of OP `op` for node 7 with tag 3 and no data. -/
def err0 (op st : Byte) (len : Byte := 112) : ErrFrame :=
  { addr := 7, op := op, tag := 3, stat := st, index := 0x1000, sub := 0, code := 1, len := len, rlen := 0, data := [], crc := 0 }
def rc0 : RcSet := { a := 7, b := ~~~ 7, m := 0x5A }
def member7 (l : Link) : Device := (link { l with addr := 7 }).setLv bLINK 1
def headErrR : Device :=
  (((headErr none).advTo (max (headErr none).nowN (headErr none).headFree)).quePop (headErr none).txq).1
set_option maxRecDepth 8000 in
theorem witness_HeadAndResetCommand :
    (link { head := true }).reaches (.core 0) bLINK = true ∧ (link { head := true }).link.head = true ∧
    2048 < wf 0x08010000 27 16 ∧ wf 0x00100001 27 16 ≤ 2048 ∧ headDue.nextYard = some (1, 9) ∧ headDue.linkAlive = true ∧
    yard0.seal.check = yard0.seal.hchk ∧ yard0.seal.crcOf = yard0.seal.crc ∧ (headDue.port .la).up = true ∧
    popDue 1 [⟨0, 3, 1, false⟩, ⟨1, 4, 1, true⟩] = some (⟨1, 4, 1, true⟩, [⟨0, 3, 1, false⟩]) ∧ wb (0x20000 : Word) 17 = true ∧
    (headErr none).link.flight = none ∧ (headErr none).nextYard = none ∧
    ((headErr none).queC (headErr none).txq).en = true ∧ ((headErr none).queC (headErr none).txq).words = [5] ∧
    (headErr none).queEcc (headErr none).txq = .good ∧
    (headErrR.bytesIn .link (bufAddr 5) 10).2 = some (List.replicate 10 0) ∧
    ((headErrR.bytesIn .link (bufAddr 5) 10).1.bytesIn .link (bufAddr 5 + 10) 0).2 = some [] ∧
    ((err0 0 1).seal false).crc = ((err0 0 1).seal false).crcOf ∧ ((err0 0 1).seal false).stat ≠ 0 ∧
    ((headErr (some flight0)).queC (headErr (some flight0)).rxq).en = true ∧
    ((headErr (some flight0)).queC (headErr (some flight0)).rxq).words.length <
      ((headErr (some flight0)).queC (headErr (some flight0)).rxq).cap ∧
    (member7 {}).rcForMe rc0 rc0 3 = true ∧ (member7 {}).rcForMe rc0 rc0 17 = false ∧
    (member7 { rcAt := some 3 }).link.rcAt = some 3 := by decide
theorem witness_HeadAndResetCommand_more :
    headDue.linkRuns = true ∧ (headErr none).linkRuns = true ∧ flight0.back = false ∧
    (headErr (some { flight0 with back := true })).link.flight = some { flight0 with back := true } ∧
    (headErr (some { flight0 with tag := 3 })).link.flight = some { flight0 with tag := 3 } ∧ ((err0 0 1).seal false).tag = 3 ∧
    (member7 {}).rst.phase = .run ∧ (link { head := true }).link.closed = false := by decide
def errand (t : ErrandSt) : Errand := { tag := 3, at' := 0, buf := 5, st := t, fwdAt := 0, gen := 2 }
def holds (t : ErrandSt) : Device :=
  { member7 { errands := [errand t] } with shed := { dRun.shed with buf := [(5, { owner := 4, gen := 2 })] } }
/-- A COLLECT stops the hold timer; the answer of the second device has nine bytes. -/
def asked : Device := (holds .answered).holdStop 3
def longAnswer : Device := { asked with mem := { asked.mem with cells := [(bufAddr 5 + 9, 9)] } }
set_option maxRecDepth 8000 in
theorem witness_ErrandsOfAMember :
    (member7 {}).linkAlive = true ∧ (member7 {}).rst.unitBusy.getLsbD 9 = false ∧ ((err0 1 0).seal false).dir = false ∧
    (member7 {}).link.addr ≠ 0 ∧ ((err0 1 0).seal false).addr = (member7 {}).link.addr ∧
    ((err0 1 0).seal false).crc = ((err0 1 0).seal false).crcOf ∧ ((err0 1 0).seal false).kind = 1 ∧
    ((err0 2 0).seal false).kind = 2 ∧ ((err0 3 0).seal false).kind = 3 ∧ (member7 {}).errandOf 3 = none ∧
    (member7 {}).link.errands.length < 4 ∧ (member7 {}).shed.free ≠ [] ∧
    (member7 { errands := List.replicate 4 { errand .stored with tag := 9 } }).errandOf 3 = none ∧
    (holds .stored).errandOf 3 = some (errand .stored) ∧ (holds .answered).errandOf 3 = some (errand .answered) ∧
    (asked.bytesIn .link (bufAddr 5) 10).2 = some (List.replicate 10 0) ∧
    ((asked.bytesIn .link (bufAddr 5) 10).1.bytesIn .link (bufAddr 5 + 10) 0).2 = some [] ∧
    ((asked.bytesIn .link (bufAddr 5) 10).1.bytesIn .link (bufAddr 5 + 10) 0).1.link = asked.link := by decide
set_option maxRecDepth 8000 in
theorem witness_ErrandsOfAMember_refusals :
    ((err0 1 1).seal false).stat ≠ 0 ∧ 112 < ((err0 1 0 113).seal false).len.toNat ∧
    (holds .collected).errandOf 3 = some (errand .collected) ∧ ((holds .collected).bufC 5).owner = 4 ∧
    ((holds .collected).bufC 5).gen = 2 ∧ ({ member7 {} with shed := { dRun.shed with free := [] } }).shed.free = [] ∧
    (longAnswer.bytesIn .link (bufAddr 5) 10).2 = some [0, 0, 0, 0, 0, 0, 0, 0, 0, 9] ∧
    ((err0 2 0 8).seal false).len < 9 ∧ (errand .stored).kept = false ∧ (member7 {}).linkRuns = true ∧
    ((member7 {}).frameStart .la).link.addr = 7 ∧ ((member7 {}).frameStart .la).rst.phase = .run ∧
    ((member7 { errands := [{ errand .stored with kept := true }] }).errandOf 3).map (fun e => e.kept) = some true := by decide
/-- Buffer 5 belongs to core 0 and its errand is forwarded; or its request is for index `ix`, subindex `sub`, op `op`. -/
def fwd : Device := { holds .forwarded with shed := { (holds .forwarded).shed with buf := [(5, { owner := 0, gen := 2 })] } }
def request (ix : Nat) (sub op : Nat) : Device :=
  { holds .stored with mem := { (holds .stored).mem with cells := (List.range 4).foldl (fun t i =>
      Tab.set byte0 t (bufAddr 5 + 4 + i) (BitVec.ofNat 8 ((ix + 0x10000 * sub + 0x1000000 * op) / 256 ^ i))) [] } }
set_option maxRecDepth 8000 in
theorem witness_ErrandsAreServed :
    (request 0x7000 0 1).link.errands.find? (fun e => decide (e.st = .stored)) = some (errand .stored) ∧
    (request 0x7000 0 1).blockBusy bOD = false ∧
    ((request 0x7000 0 1).bytesIn .od (bufAddr 5) 10).2 = some [0, 0, 0, 0, 0, 0x70, 0, 1, 0, 0] ∧
    isApp 0x7000 = false ∧ odRows 0x7000 = none ∧ odRows 0x6300 ≠ none ∧
    ((odRows 0x6300).bind (fun r => odSub r 9)) = none ∧ ((odRows 0x6300).bind (fun r => odSub r 1)) ≠ none ∧
    fwd.reaches (.core 0) bOD = true ∧ fwd.answerFor (.core 0) (wf 0x2005 15 0) = some (errand .forwarded) ∧
    fwd.answerFor (.core 0) (wf 0x1005 15 0) = none ∧ (fwd.bytesIn .od (bufAddr 5) 10).2 = some (List.replicate 10 0) ∧
    fwd.forwarded ((0x2005 : BitVec 16).toNat % 1024) = some (errand .forwarded) ∧
    (fwd.bufC 5).gen = (0x2005 : BitVec 16).toNat / 0x1000 := by decide
/-- A request for an application index, forwarded when FWDEN is 1, with the queue of LINK_FWDQ on or off. -/
def forApp (on : Bool) : Device :=
  if on then (request 0x2000 0 1).setLv bOD 1 else ((request 0x2000 0 1).setLv bOD 1).setQue 0 { cfg := 0 }
set_option maxRecDepth 8000 in
theorem witness_ErrandsAreServed_more :
    (request 0x2000 0 1).link.errands.find? (fun e => decide (e.st = .stored)) = some (errand .stored) ∧ isApp 0x2000 = true ∧
    wb (((request 0x2000 0 1).bytesIn .od (bufAddr 5) 10).1.lv bOD) 0 = false ∧
    wb (((forApp true).bytesIn .od (bufAddr 5) 10).1.lv bOD) 0 = true ∧
    (((forApp true).bytesIn .od (bufAddr 5) 10).1.bufC 5).owner ≠ 7 ∧ (((forApp true).bytesIn .od (bufAddr 5) 10).1.bufC 5).gen = 2 ∧
    (((forApp true).bytesIn .od (bufAddr 5) 10).1.queC ((forApp true).bytesIn .od (bufAddr 5) 10).1.fwdq).en = true ∧
    (((forApp true).bytesIn .od (bufAddr 5) 10).1.queC ((forApp true).bytesIn .od (bufAddr 5) 10).1.fwdq).words.length <
      (((forApp true).bytesIn .od (bufAddr 5) 10).1.queC ((forApp true).bytesIn .od (bufAddr 5) 10).1.fwdq).cap ∧
    (((forApp false).bytesIn .od (bufAddr 5) 10).1.queC ((forApp false).bytesIn .od (bufAddr 5) 10).1.fwdq).en = false := by decide
theorem witness_ErrandsAreServed_operations :
    ((odRows 0x1030).bind (fun r => odSub r 1)).map (fun e => e.cls) = some 4 ∧
    ((odRows 0x1030).bind (fun r => odSub r 4)).map (fun e => (accessOf e.cls, e.tgt.block)) = some (1, bSYS) ∧
    (request 0x1030 4 2).blockBusy bSYS = false ∧ (request 0x1030 4 2).tagBars 7 = false ∧
    ({ request 0x7000 0 1 with rst := { dRun.rst with unitBusy := 0x7FF } } : Device).blockBusy bOD = true := by decide
def armed (t : SwapSt) : Device := { dRun with swap := { st := t } }
/-- Slot 3 is a member of an arena with a second output in the shadow set: a conflict. -/
def clash : Device := { (armed .check).setSlot 3 { st := .idle } with shadow := [(aDesc 3 0, 0x01000020)] }
theorem witness_SwapCommands :
    (armed .idle).reaches (.core 0) bSYS = true ∧ (armed .idle).swapPast 1 5 = false ∧ (armed .idle).swapPast 1 0 = true ∧
    wf ((armed .idle).lv (bSYS + 0x104)) 1 0 = 0 ∧ wf (((armed .idle).setLv (bSYS + 0x104) 1).lv (bSYS + 0x104)) 1 0 = 1 ∧
    (armed .check).reaches (.core 0) bSYS = true ∧ (armed .check).swap.st ≠ .idle ∧
    (armed .check).setConflict (armed .check).shd = false ∧ (armed .check).liveCodes.2 = [] ∧
    (armed .check).liveCodes.1.swap = (armed .check).swap ∧ (armed .check).liveCodes.1.checkEcc.2 = false ∧
    (armed .check).liveCodes.1.checkEcc.1.swap = (armed .check).swap ∧
    clash.setConflict clash.shd = true ∧ clash.liveCodes.1.swap = clash.swap ∧ (armed .idle).codeReaches (.core 0) bSYS = true ∧
    (armed .idle).reaches .link bSYS = true ∧ (armed .idle).codeReaches .link bSYS = false ∧ (armed .idle).reaches .od bSYS = true := by
  decide
/-- A descriptor word of an enabled slot is uncorrectable in the shadow set. -/
def badSet : Device := ((armed .check).setSlot 3 { st := .idle }).setEcc (aDesc 3 0) .bad
theorem witness_SwapCommands_ecc :
    badSet.setConflict badSet.shd = false ∧ badSet.liveCodes.2 = [] ∧ badSet.liveCodes.1.swap = badSet.swap ∧
    badSet.liveCodes.1.checkEcc.2 = true ∧ badSet.liveCodes.1.checkEcc.1.swap = badSet.swap := by decide
/-- PWM_PER[3] is staged while a swap is READY. -/
def staged2 : Device := after (.registerWrite (.core 0) (wd (aPwm 3 1)) 77) (armed .ready)
set_option maxRecDepth 8000 in
theorem witness_SwapTakesEveryRegister :
    (armed .ready).swap.st = .ready ∧ (armed .ready).swap.mode = 0 ∧ (armed .ready).swapExch = false ∧
    (armed .ready).liveCodes.2 = [] ∧ ({ armed .ready with shadow := [(bSYS + 0x120, 0x105)] }).swapExch = false ∧
    ({ armed .ready with shadow := [(bSYS + 0x120, 0x105)] }).liveCodes.2 ≠ [] ∧ (armed .ready).here.undo = [] ∧
    staged2.here.undo ≠ [] ∧ staged2.here.locks = 0 ∧ staged2.swap.st = .check ∧ staged2.unwritten.swap.st = .ready ∧
    staged2.unwritten.swapExch = false ∧ staged2.unwritten.liveCodes.2 = [] := by decide
/-- R25: a shadow write of the swap tick is applied after the swap. -/
theorem test_swap_before_write :
    (after .setSwap staged2).act (aPwm 3 1) = 0 ∧ (after .setSwap staged2).shd (aPwm 3 1) = 77 ∧
    (after .setSwap staged2).swap.result = 1 := by decide +kernel

/-! ### The debug port -/

def dbg (g : Dbg) : Device := { dRun with dbg := g }
theorem witness_TapInstructions :
    (dbg { level := 2 }).dbg.level = 2 ∧ (dbg { level := 1 }).dbg.level ≠ 2 ∧ (dbg { ir := 8 }).powered = true ∧
    tapIrOf (dbg { ir := 8, level := 0 }).dbg.ir = .dbgacc ∧ 16 ≤ (0x20 : BitVec 14).toNat ∧
    tapIrOf (dbg { ir := 2 }).dbg.ir ≠ .dbgacc ∧ (dbg { ir := 8 }).dbg.accAt ≠ some dRun.nowN ∧
    (dbg { ir := 8, ack := 1, data := 7 }).dbg.ack = 1 ∧ (dbg { ir := 8 }).dbg.waitAt ≠ some dRun.nowN ∧
    (dbg { ir := 8, accAt := some dRun.nowN, waitAt := some dRun.nowN }).dbg.accAt = some dRun.nowN ∧
    (dbg { ir := 8, accAt := some dRun.nowN, waitAt := some dRun.nowN }).dbg.waitAt = some dRun.nowN := by decide
/-- R822: a code without an instruction of its own acts as BYPASS. -/
theorem test_tap_codes : tapIrOf 0x08 = .dbgacc ∧ tapIrOf 0x05 = .bypass ∧ tapIrOf 0x1F = .bypass := by decide
/-- The authorisation mode is `m`. -/
def mode (m : Word) (g : Dbg) : Device := { dbg g with fuse := { dRun.fuse with shadow := [(48, m)] } }
theorem witness_Authorisation : dRun.powered = true ∧ (dbg { check := some (2, true) }).fuseDbgBad = false ∧
    (8 : Nat) ≤ (dbg { fails := 7, check := some (2, false) }).dbg.fails + 1 ∧
    (dbg { fails := 1, check := some (2, false) }).dbg.fails + 1 < 8 ∧ (dbg { dlyEnd := some 5 }).dbg.dlyEnd = some 5 ∧ (dbg { dlyEnd := some 5 }).nowN < 5 ∧
    (mode 3 {}).dbgMode = 3 ∧ (mode 1 { locked := true }).dbgMode ≠ 3 ∧ (mode 2 {}).dbgMode = 2 ∧ dRun.dbgMode ≠ 2 := by
  decide
def coreDbg (k : Core) (sel : Word) : Device := (dRun.setCore 0 k).setLv (aDbgC 0 2) sel
theorem witness_RunControl :
    (coreDbg k0 0).powered = true ∧ (coreDbg k0 0).dbg.level = 2 ∧ ((coreDbg k0 0).coreC 0).st = .running ∧
    k0.repBusy = false ∧ (coreDbg { k0 with halted := true } 5).cregSel 0 < 0x20 ∧
    (coreDbg { k0 with halted := true } 0x30).cregSel 0 = 0x30 ∧ wf 0x2000 1 0 = 0 ∧ (coreDbg k0 0).resetsTaken = true ∧
    (coreDbg k0 0).rst.phase = .run ∧ (coreDbg k0 0).dbg.shown = none ∧ (dbg { level := 1 }).dbg.level ≠ 2 ∧
    ((dRun.setCore 0 k0).setLv (aDbgC 0 4) 0x1001).bpAt 0 = some 0 ∧ k0.live = true ∧
    (inRep 3 none).repBusy = true ∧ (inRep 3 none).st = .running ∧ ((dRun.setCore 0 { k0 with st := .asleep }).coreC 0).st = .asleep ∧
    k0.halted = false ∧ (coreDbg { k0 with halted := true } 5).dbg.level = 2 := by decide
/-- Requests of one initiator hold `n` tags, or wait for one. -/
def waitsFull (n : Nat) (who : Who) (tag : Bool) : Device :=
  { dRun with waits := List.replicate n ⟨who, bPWM, none, true, ⟨true, true⟩, false⟩ ++
    (if tag then [] else [⟨who, bPWM, none, false, ⟨true, true⟩, false⟩]) }
def window (wr : Bool) : Dbg := { mbusy := some (wr, 2, true, 0x10000000, 7) }
set_option maxRecDepth 8000 in
theorem witness_WindowAndTags :
    (dbg {}).powered = true ∧ (dbg {}).dbg.level = 2 ∧ (dbg { level := 1 }).dbg.level = 1 ∧ (dbg {}).dbg.mbusy = none ∧
    (2 : BitVec 2) ≠ 3 ∧ (dbg (window true)).dbg.mbusy ≠ none ∧
    (((dbg (window false)).engBegin 8).busRead .debug 0x10000000 4).2 = .ok 0 ∧
    (((dbg (window false)).engBegin 8).busRead .debug 0x10000000 4).1.dbg = window false ∧
    (((dbg (window true)).engBegin 8).busWrite .debug 0x10000000 4 7).2 = .ok 0 ∧
    (((dbg (window true)).engBegin 8).busWrite .debug 0x10000000 4 7).1.dbg = window true ∧
    (dbg (window true)).tagBars 8 = false ∧ (waitsFull 8 .debug false).tagBars 8 = true ∧
    takeFirst (fun w : Wait => !w.tag && decide (whoIdx w.who = 0)) dRun.waits = none ∧
    takeFirst (fun w : Wait => !w.tag && decide (whoIdx w.who = 0)) ([⟨.core 0, bPWM, none, false, ⟨true, true⟩, false⟩] : List Wait) =
      some ((⟨.core 0, bPWM, none, false, ⟨true, true⟩, false⟩ : Wait), []) ∧
    dRun.tagsOf 0 < tagCap 0 ∧ tagCap 0 ≤ (waitsFull 8 (.core 0) true).tagsOf 0 ∧ dRun.regsUp = true ∧
    dRun.tagFreeFor (.core 0) = true ∧ ({ dRun with rst := { dRun.rst with unitBusy := 0x80 } }).rst.unitBusy.getLsbD 7 = true ∧
    (dRun.reqOf (.core 0)).sup = true ∧ (dRun.reqOf (.core 0)).trusted = true := by decide
set_option maxRecDepth 8000 in
theorem witness_WindowAndTags_more :
    dRun.resetsTaken = true ∧ ({ dRun with rst := { dRun.rst with phase := .warm } } : Device).resetsTaken = false ∧
    (waitsFull 8 .debug false).resetsTaken = true ∧ readUses (bQUE + 0x164) = true ∧ coreOp false (bQUE + 0x164) = false ∧
    readUses 0x10000000 = false ∧ (((dbg (window false)).engBegin 8).busRead .debug 0x30000000 4).2 = .bus 0 ∧
    (((dbg (window true)).engBegin 8).busWrite .debug 0x10000002 4 7).2 = .bus 1 ∧
    (((dbg (window false)).engBegin 8).busRead .debug 0x30000000 4).1.dbg = window false ∧
    (((dbg (window true)).engBegin 8).busWrite .debug 0x200 4 7).2 = .bus 3 ∧
    ((({ dbg (window false) with mem := (ecc 0x10000000).mem }.setEcc 0x10000000 .bad).engBegin 8).busRead .debug 0x10000000 4).2 = .bus 2 ∧
    dRun.underWay 0 = false ∧ underway.underWay 0 = true ∧ dRun.ordered 0 = false ∧
    (waitsFull 8 (.core 0) false).queued 0 = true := by decide
set_option maxRecDepth 8000 in
/-- R131, R181: a write for a unit in reset keeps its tag and completes with the end of the reset. -/
theorem test_waiting_write :
    let d := after (.dutyWrite (.core 0) 3 5) { dRun with rst := { dRun.rst with unitBusy := 0x80 } }
    (d.pwmC 3).duty = 0 ∧ d.tagsOf 0 = 1 ∧ ((after (.unitResetDone 7) d).pwmC 3).duty = 5 ∧
    (after (.unitResetDone 7) d).waits = [] := by decide
set_option maxRecDepth 8000 in
theorem witness_StepsKeepSound : dRun.memWf = true ∧ dRun.noShootThrough = true ∧
    (match step { dev := dRun, pending := [.safeAssert] } with | .next t => t.dev.rst.safeLow | _ => false) = true := by
  decide

/-! ### Witnesses of the single clauses -/

/-- Compare 0 has matched in the present tick. -/
def matched (ctl : Word) : Device := after (.compareMatch 0) (dCmp ctl 7)
theorem witness_CadenceOfTheDevice_match :
    (matched 1).reaches (.core 0) bTBASE = true ∧ (matched 1).here.hits = [(0, (dCmp 1 7).cmpC 0)] ∧
    wb ((dCmp 1 7).cmpC 0).ctl 0 = true ∧ ((dCmp 1 7).cmpC 0).late = none ∧
    ((dCmp 1 7).cmpC 0).val.toNat = (matched 1).nowN ∧ (matched 3).here.hits = [(0, (dCmp 3 7).cmpC 0)] ∧
    (matched 1).nowN < ((5 : Word) ++ ((matched 1).cmpC 0).held : DWord).toNat ∧ (dCmp 3 7).here.hits = [] ∧
    ((dCmp 3 7).passTo 100).nowN = ((dCmp 3 7).cmpC 0).val.toNat ∧ ((dCmp 3 7).passTo 100).cmpC 0 = (dCmp 3 7).cmpC 0 ∧
    dRun.link.ends = [] := by decide +kernel
/-- The prescaler, or the tick counter, stands one edge before the second. -/
def atSecond (cmd : Option Nat) : Device := { dRtc cmd with rtc := { (dRtc cmd).rtc with presc := 0x7FFF, ticks := 0x7FFF } }
def calIs (c : Cal) (cmd : Option Nat) : Device := { dRtc cmd with rtc := { (dRtc cmd).rtc with cal := c } }
theorem witness_CalendarAndRtc_edges :
    (atSecond (some 1)).rtc.cmd = some 1 ∧ 0x8000 - (atSecond (some 1)).rtc.presc.toNat ≤ 2 - (atSecond (some 1)).rtc.cmdEdges ∧
    2 - (dRtc (some 1)).rtc.cmdEdges < 0x8000 - (dRtc (some 1)).rtc.presc.toNat ∧ (dRtc none).rtc.cmd = none ∧
    (dRtc none).tickMode = false ∧ (tickMode (dRtc none)).tickMode = true ∧ (tickMode (dRtc none)).reaches (.core 0) bRTC = true ∧
    2199 < (calIs { lastSecond with hour := 23 } (some 3)).rtc.cal.addHour.year ∧ (calIs {} (some 4)).rtc.cal.subHour.year < 2000 ∧
    (tickMode ((dRtc none).setLv (bRTC + 0x40) 9)).almTicks.toNat - (dRtc none).rtc.ticks.toNat ≤ 0x8000 ∧
    0x8000 < (tickMode ((dRtc none).setLv (bRTC + 0x40) 0x9000)).almTicks.toNat - (dRtc none).rtc.ticks.toNat ∧
    (tickMode (atSecond (some 1))).rtc.ticks.toNat % 0x8000 = 0x7FFF := by decide
theorem witness_SupplyAndDeviceResets_rstout :
    (dRun.passTo dRun.rst.rstoutAt).rst.phase = .run ∧ (dRun.passTo dRun.rst.rstoutAt).rst.rstoutAt = dRun.rst.rstoutAt ∧
    (off 1).rst.phase = .off := by decide +kernel
/-- The tick that Owl's timeout ends in, and that of its early warning. -/
def owlEnds : Nat := ((0 + (owlOn { on := true }).owlTo * 2048 - (owlOn { on := true }).owlTicks) / 8 + 1) * 8
def owlWarns : Nat := ((owlOn { on := true }).owlTo - (owlOn { on := true }).owlEw) * 2048 - (owlOn { on := true }).owlTicks
theorem witness_ResetsOfUnitsAndDevice_owl :
    (owlOn { on := true }).nowN = 0 ∧ ((owlOn { on := true }).passTo owlEnds).owlCounts = true ∧
    ((owlOn { on := true }).passTo owlEnds).owlPeriodEnd ≤ ((owlOn { on := true }).passTo owlEnds).nowN ∧
    ((owlOn { on := true }).passTo owlWarns).warnTick = some ((owlOn { on := true }).passTo owlWarns).nowN ∧
    (owlOn { on := true }).owlEw < (owlOn { on := true }).owlTo ∧
    (owlOn { on := true }).owlCount ≤ (owlOn { on := true }).owlTo - (owlOn { on := true }).owlEw := by decide +kernel
/-- Channel 3 samples converter 3 at tick 5 of its period. -/
def samples : Device := (conv 0 {}).setPwm 3 sampling
theorem witness_SenseCommands_point :
    (samples.pwmC 3).bt = 0 ∧ ((samples.passTo 5).pwmC 3).sampleOfs = some 5 ∧ ((samples.passTo 5).pwmC 3).bt = 0 ∧
    (samples.passTo 5).frozen = false ∧ wb ((samples.passTo 5).snsCfg 3) 0 = true ∧ wf ((samples.passTo 5).snsCfg 3) 2 1 = 0 ∧
    (samples.passTo 5).parked = false ∧ ((samples.passTo 5).snsC 3).run = none := by decide +kernel
/-- The input of comparator 3, with FILT 3, has crossed HI in tick 0. -/
def crossed : Device := compAt 0x305 { rawH := true }
theorem witness_ConversionsAndComparators_times :
    (((conv 2 { run := some (seq false) }).passTo (seq false).endTick).snsC 3).run = some (seq false) ∧
    (((conv 2 { run := some (seq true) }).passTo (seq true).auxTick).snsC 3).run = some (seq true) ∧
    (crossed.passTo 2).snsC 3 = crossed.snsC 3 ∧ (crossed.passTo 2).snsCmp 3 = crossed.snsCmp 3 ∧
    (crossed.passTo 2).pwr.vddaForce = false ∧ (crossed.passTo 2).nowN = (crossed.snsC 3).hAt + (wf (crossed.snsCmp 3) 11 8 - 1) ∧
    ((crossed.passTo 2).pwmC 3).hardAt = (crossed.pwmC 3).hardAt ∧
    rawOutputs true false (crossed.act (aSnsThr 3)) (hystCodes (crossed.snsCmp 3)) 3000 4096 = (true, false) ∧
    (((comp 3 { settle := some 7 }).passTo 7).snsC 3).settle = some 7 ∧
    wf (((comp 3 { settle := some 7 }).passTo 7).snsCmp 3) 11 8 ≤ 1 ∧
    wb (((comp 3 { settle := some 7 }).passTo 7).snsCmp 3) 0 = true ∧
    wb (((comp 3 { settle := some 7 }).passTo 7).snsCmp 3) 1 = true := by decide +kernel
/-- Converter 3 with calibration `k`. -/
def inCal (k : SnsCal) : Device := conv 3 { cal := some k }
theorem witness_Calibration_times :
    (((inCal (calib 4 0 0 (some 1))).passTo 51).snsC 3).cal = some (calib 4 0 0 (some 1)) ∧
    (((inCal (calib 4 0 0 (some 1))).passTo 9).snsC 3).cal = some (calib 4 0 0 (some 1)) ∧
    (((inCal (calib 31 5 46080 (some 1))).passTo 51).snsC 3).cal = some (calib 31 5 46080 (some 1)) ∧
    (calib 31 5 46080 (some 1)).step = 31 ∧ (((inCal (calib 0 0 0 none)).passTo 9).snsC 3).cal = some (calib 0 0 0 none) ∧
    (((inCal (calib 0 0 0 none)).passTo (0 + 50)).snsC 3).cal = some (calib 0 0 0 none) ∧
    ((inCal (calib 0 0 0 none)).passTo 9).nowN = (calib 0 0 0 none).expire ∧
    ((inCal (calib 0 0 0 none)).passTo 9).calFree 3 = true ∧
    ((conv 3 { cal := some (calib 0 0 0 none), run := some (seq false) }).passTo 9).calFree 3 = false := by decide +kernel
/-- Pin A, or in the other device A and B, of tracker 3 has changed. -/
def moved (pins : BitVec 3) (cfg : Word) : Device := track cfg 0 { pins := pins }
theorem witness_TrackersCount_times :
    ((moved 1 1).passTo 3).nowN = 3 ∧ ((moved 1 1).passTo 3).trkC 3 = (moved 1 1).trkC 3 ∧
    ((moved 1 1).passTo 3).trkCfg 3 = (moved 1 1).trkCfg 3 ∧
    ((moved 1 1).passTo 3).act (aTrkMod 3) = (moved 1 1).act (aTrkMod 3) ∧ (moved 1 1).trkWaits 3 = [0] ∧
    (moved 1 1).trkReady 3 0 = 3 ∧ (moved 4 1).trkWaits 3 = [2] ∧ ((moved 4 1).passTo 3).trkC 3 = (moved 4 1).trkC 3 ∧
    (track 3 0 { pins := 3, a := true, hall := 1 }).trkWaits 3 = [1] ∧
    hallState true false false = ((track 3 0 { pins := 3, a := true, hall := 1 }).trkC 3).hall ∧
    ((track 3 0 { pins := 3, a := true, hall := 1 }).passTo 3).trkC 3 = (track 3 0 { pins := 3, a := true, hall := 1 }).trkC 3 := by
  decide +kernel
/-- Channel 3 runs; a hard trip of it is due in tick 1 in the second device. -/
def runningCh (h : Option Nat) : Device := chan 0 { en := true, per := 100, running := true, hardAt := h }
/-- The enable delay of channel 3 ends in tick 5. -/
def delayed (cfg : Word) (c : PwmCh) : Device := chan cfg { c with en := true, first := some 5 }
theorem witness_PwmChannels_times :
    ((delayed 0 {}).passTo 5).pwmC 3 = (delayed 0 {}).pwmC 3 ∧ ((delayed 0 {}).passTo 5).frozen = false ∧
    wf (((delayed 0 {}).passTo 5).act (aPwm 3 1)) 15 0 ≠ 0 ∧ wb (((delayed 0x10 {}).passTo 5).act (aPwm 3 0)) 4 = true ∧
    (((delayed 0x10 { pend := some 7 }).passTo 5).pwmC 3).pend = some 7 ∧ (((delayed 0x10 {}).passTo 5).pwmC 3).pend = none ∧
    ((runningCh none).pwmC 3).bt + ((runningCh none).pwmC 3).ticks = 100 ∧ ((runningCh none).passTo 100).pwmC 3 = (runningCh none).pwmC 3 ∧
    ((runningCh none).passTo 100).frozen = false ∧ (runningCh none).edgeComes 3 64 = true ∧
    ((runningCh none).passTo 2).edgeComes 3 64 = true ∧ (((runningCh none).passTo 2).pwmC 3).bt = 0 ∧
    (runningCh (some 1)).edgeComes 3 64 = true ∧ ((runningCh (some 1)).passTo 2).edgeComes 3 64 = false ∧
    ((runningCh (some 1)).pwmC 3).hardAt = some 1 ∧ (runningCh (some 1)).nowN + 1 < 2 ^ 64 ∧ (1 : Nat) ≤ (runningCh (some 1)).nowN + 1 := by
  decide +kernel
theorem witness_LoopSlots_disable :
    (triggered.slotC 3).st ≠ .off ∧ (triggered.slotC 3).trigAt = triggered.nowN ∧
    ((slot { st := .running, run := some evalRun }).slotC 3).run = some evalRun ∧ (slot { st := .running }).here.trigs = [] := by
  decide
/-- Route 5 drives pin 3 of GP; in the second device the level of the pad, filtered over 3 ticks, has not come through yet. -/
def filters : Device := inForce dRun (bEVR + 0x20) 0x3000
def padWaits : Device := after (.gpInputChange 3 true) filters
theorem witness_EventRouter_pads :
    dRun.rst.gpIn.getLsbD 3 = false ∧ dRun.gpWaits 3 = false ∧ filters.gpFilterN 3 = 3 ∧ filters.gpWaits 3 = false ∧
    padWaits.rst.gpIn.getLsbD 3 = true ∧ padWaits.gpWaits 3 = true ∧ (padWaits.passTo (padWaits.gpReady 3)).rst.gpIn.getLsbD 3 = true ∧
    (padWaits.passTo (padWaits.gpReady 3)).gpWaits 3 = true ∧
    (padWaits.passTo (padWaits.gpReady 3)).gpReady 3 ≤ (padWaits.passTo (padWaits.gpReady 3)).nowN ∧
    (flying.passTo 9).evr.fly = flying.evr.fly ∧ (flying.passTo 9).destIn 5 1 = false ∧
    ((flying.setDma 1 { st := .armed, rem := 3 }).passTo 9).dmaC 1 = { st := .armed, rem := 3 } ∧
    (flying.passTo 20).nowN = 20 ∧ (flying.passTo 20).evr.fly = flying.evr.fly := by decide +kernel
/-- The channel's element failed while it held read ones. -/
def failed : Device := moving.setDma 2 { moving.dmaC 2 with fail := some (1, 0x10000000, 0x10000100, 4) }
theorem witness_DmaTransfers_ends :
    (failed.dmaC 2).fail = some (1, 0x10000000, 0x10000100, 4) ∧ (failed.engBegin 6).dmaRead1 2 = false ∧
    (failed.engBegin 6).dmaReading 2 = false ∧ failed.dmaRuns = some 2 ∧ failed.here.drops = [] ∧ (failed.dmaC 2).buf = [] ∧
    ((moving.setDma 2 { moving.dmaC 2 with stop := 2 }).engBegin 6).dmaReading 2 = false ∧
    (moving.setDma 2 { moving.dmaC 2 with stop := 1 }).dmaRuns = some 2 ∧
    (moved1 (toward 0x30000000 0)).1.dmaReadOut 2 = false ∧ ((moving.dmaC 2).runLeft ≠ 0) ∧ (moving.dmaC 2).fail = none := by decide
set_option maxRecDepth 8000 in
theorem witness_DmaTransfers_drops :
    (filled moving).dmaC 2 = { moving.dmaC 2 with buf := [(0, 0)] } ∧ (moved2 (toward 0x10000000 0x30000000)).1.dmaReadOut 2 = false ∧
    ((moved2 (toward 0x10000000 0x30000000)).1.dmaC 2).fail = none ∧ ((moved2 moving).1.dmaC 2).fail = none ∧
    ((filled { toward 0x10000000 (wd (bQUE + 0x1A0)) with que := [(5, { cfg := 0 })] }).engTake 6 (bQUE + 0x1A0) (some 0)).isNone = true := by
  decide
/-- The merged entry lies in a region marked idle. -/
def idleMerged : Device := { merged with mem := { merged.mem with idle := 4 } }
theorem witness_MergeBufferAndScrubber_times :
    (merged.passTo 32).mem.merge = merged.mem.merge ∧ (merged.passTo 32).memIdle 0x10000008 = false ∧
    (idleMerged.passTo 32).mem.merge = merged.mem.merge ∧ (idleMerged.passTo 32).memIdle 0x10000008 = true ∧
    (ecc 0x10000000).sramWalks = true ∧ ((ecc 0x10000000).passTo (ecc 0x10000000).mem.sAt).sramWalks = true ∧
    ((ecc 0x10000000).passTo (ecc 0x10000000).mem.sAt).mem.sAt = (ecc 0x10000000).mem.sAt ∧
    (ecc 0).flashWalks = true ∧ ((ecc 0).passTo (ecc 0).mem.fAt).flashWalks = true ∧
    ((ecc 0).passTo (ecc 0).mem.fAt).mem.fAt = (ecc 0).mem.fAt ∧ ((ecc 0).passTo (ecc 0).mem.fAt).flash.cmd = none ∧
    ((ecc 0).passTo (ecc 0).mem.fAt).mem.idle = 0 ∧ ((ecc 0).passTo (ecc 0).mem.fAt).eccOf 0 = .single := by decide +kernel
/-- The head listens for the end of the /RP/ that it sent in tick 4. -/
def heals : Device := link { head := true, healFrom := some 4 }
theorem witness_LinkPorts_times :
    (heals.passTo (4 + wf (heals.lv (bLINK + 0x258)) 23 0)).linkAlive = true ∧
    (heals.passTo (4 + wf (heals.lv (bLINK + 0x258)) 23 0)).link = heals.link ∧
    (heals.passTo (4 + wf (heals.lv (bLINK + 0x258)) 23 0)).lv (bLINK + 0x258) = heals.lv (bLINK + 0x258) ∧
    ((link { goodAt := some 3, sync := true }).passTo 400004).link.goodAt = some 3 ∧
    ((link { goodAt := some 3, sync := true }).passTo 400004).link.sync = true := by decide +kernel
/-- Stream 1 has two IN bytes and, with `out`, two OUT bytes; entry 0 moves them to PWM_DUTY[3], entry 1 sends PWM_PER[3]. -/
def mapped (out : Bool) : Device :=
  let d := inForce (inForce (link {}) (bLINK + 0x64) (if out then 0x02020000 else 0x00020000)) (bLINK + 0x400) 0x80000005
  if out then inForce (inForce (inForce d (bLINK + 0x404) (wd (aPwm 3 8))) (bLINK + 0x408) 7) (bLINK + 0x40C) (wd (aPwm 3 1))
  else inForce d (bLINK + 0x404) (wd (aPwm 3 8))
/-- A yard with that stall, on either port. -/
def stallYard (dir : Bool) : YardFrame :=
  ({ yard0 with flags := if dir then 0x29 else 9, ylen := 4, stall := [0x34, 0x12, 5, 6] } : YardFrame).seal
set_option maxRecDepth 8000 in
theorem witness_MembersProcessYards_map :
    (mapped false).stallOf 1 = (0, 2, 0) ∧ (mapped true).stallOf 1 = (0, 2, 2) ∧ (stallYard false).stream = 1 ∧
    (stallYard false).hchk = (stallYard false).check ∧ (stallYard false).dir = false ∧ (mapped false).rst.phase ≠ .warm ∧
    ((mapped false).mapOf 1 2 0).filter (fun e => e.ok && e.out) = [] ∧
    ((mapped false).mapOf 1 2 0).filter (fun e => e.ok && !e.out) = [⟨0, aPwm 3 8, false, 2, 0, 0x8000, true⟩] ∧
    ((mapped true).mapOf 1 2 2).filter (fun e => e.ok && e.out) = [⟨1, aPwm 3 1, true, 2, 0, 0, true⟩] ∧
    (mapped true).noTag 5 = false ∧ ((mapped true).frameStart .la).readReg .link (aPwm 3 1) = ((mapped true).frameStart .la, .ok 0) ∧
    ({ yard0.seal with crc := ~~~ yard0.seal.crc } : YardFrame).crc ≠ ({ yard0.seal with crc := ~~~ yard0.seal.crc } : YardFrame).crcOf := by
  decide +kernel
/-- A yard of stream 1 that ends now, with the word that its IN entry writes. -/
def ending (ok : Bool) (ins : Option (List (Nat × Word))) : YardEnd := { at' := 0, port := .lb, ok := ok, k := 1, ins := ins }
theorem witness_MembersProcessYards_end :
    (ending true (some [(aPwm 3 8, 0x80001234)])).ok = true ∧ (link { ends := [ending true none] }).rst.phase ≠ .warm ∧
    (link { ends := [] }).noTag 5 = false ∧ (((link { ends := [] }).writeReg .link (aPwm 3 8) 0x80001234).2) = .ok 0 ∧
    (ending false none).ok = false := by decide
/-- The head, with the queues of its errands and a yard event of stream 1 that is due in tick 4. -/
def headEv : Device := link { head := true, yevDue := [⟨1, 4, 1, true⟩] }
set_option maxRecDepth 8000 in
theorem witness_HeadAndResetCommand_times :
    headDue.mustWait 5 = false ∧ (headDue.link.head && headDue.linkRuns) = true ∧ headEv.linkRuns = true ∧
    (popDue 1 headEv.link.yevDue).map Prod.fst = some ⟨1, 4, 1, true⟩ ∧
    (headEv.passTo (headEv.link.yevTick ⟨1, 4, 1, true⟩)).linkRuns = true ∧
    popDue 1 (headEv.passTo (headEv.link.yevTick ⟨1, 4, 1, true⟩)).link.yevDue = some (⟨1, 4, 1, true⟩, []) ∧
    (headEv.passTo (headEv.link.yevTick ⟨1, 4, 1, true⟩)).link.yevTick ⟨1, 4, 1, true⟩ ≤
      (headEv.passTo (headEv.link.yevTick ⟨1, 4, 1, true⟩)).nowN ∧
    ({ headEv with rst := { headEv.rst with unitBusy := 0x200 } } : Device).linkRuns = false ∧
    (waitsFull 8 .link false).mustWait 5 = true := by decide +kernel
def sends : Device := headErr none
def sendsAt : Device := sends.passTo sends.headFree
def popped : Device := (sendsAt.probeNow.quePop sendsAt.txq).1
set_option maxRecDepth 8000 in
theorem witness_HeadAndResetCommand_errand :
    sends.errandReady = true ∧ sendsAt.errandReady = true ∧ sendsAt.headFree ≤ sendsAt.nowN ∧ (sendsAt.queC sendsAt.txq).en = true ∧
    (sendsAt.queC sendsAt.txq).words = [5] ∧ sendsAt.queEcc sendsAt.txq = .good ∧
    (popped.bytesIn .link (bufAddr 5) 10).2 = some (List.replicate 10 0) ∧
    ((popped.bytesIn .link (bufAddr 5) 10).1.bytesIn .link (bufAddr 5 + 10) 0).2 = some [] := by decide +kernel
/-- An errand is on its way since tick 0. -/
def inFlight (back : Bool) : Device := headErr (some { flight0 with tag := 3, back := back })
def rtto0 : Nat := wf ((inFlight false).lv (bLINK + 0x254)) 23 0
theorem witness_HeadAndResetCommand_return :
    (inFlight false).linkRuns = true ∧ ((inFlight false).passTo (rtto0 + 1)).linkRuns = true ∧
    ((inFlight false).passTo (rtto0 + 1)).link.flight = (inFlight false).link.flight ∧ ((inFlight false).passTo (rtto0 + 1)).rtto = rtto0 ∧
    ((inFlight true).passTo (rtto0 + 1)).link.flight = (inFlight true).link.flight ∧ (inFlight false).nowN ≤ 0 + rtto0 ∧
    0 + rtto0 < ((inFlight false).advTo (rtto0 + 1)).nowN ∧ ((inFlight false).queC (inFlight false).rxq).en = true ∧
    (inFlight false).tagFreeFor .link = true ∧ (inFlight false).rst.unitBusy.getLsbD 2 = false ∧
    ((member7 { rcAt := some 3 }).passTo 200003).link.rcAt = some 3 := by decide +kernel
/-- The shed is in its unit reset; eight requests of the link wait; and a piece of the link's work waits for buffer 5. -/
def shedReset : Device := { member7 {} with rst := { (member7 {}).rst with unitBusy := 8 } }
def noTags : Device := { holds .answered with waits := (waitsFull 8 .link false).waits }
def working (t : ErrandSt) (w : LinkWork) : Device := { holds t with link := { (holds t).link with work := [w] } }
set_option maxRecDepth 8000 in
theorem witness_ErrandsOfAMember_waits :
    (shedReset.errandStart .la).rst.unitBusy.getLsbD 3 = true ∧ (shedReset.errandStart .la).errandOf 3 = none ∧
    (shedReset.errandStart .la).shed.free ≠ [] ∧ (shedReset.errandStart .la).link.errands.length < 4 ∧
    (noTags.errandStart .la).mustWait 5 = true ∧ (noTags.errandStart .la).errandOf 3 = some (errand .answered) ∧
    ((working .answered (.put .link (bufAddr 5) [1] none)).errandStart .la).workAt (errand .answered) = true ∧
    ((holds .answered).errandStart .la).workAt (errand .answered) = false ∧ ((holds .answered).errandStart .la).mustWait 5 = false ∧
    (((holds .answered).errandStart .la).holdStop 3).link = asked.link ∧
    ((holds .stored).passTo ((holds .stored).holdTicks + 1)).errandOf 3 = some (errand .stored) ∧
    ((holds .stored).passTo ((holds .stored).holdTicks + 1)).linkRuns = true ∧
    ((holds .stored).passTo ((holds .stored).holdTicks + 1)).holdTicks = (holds .stored).holdTicks := by decide +kernel
/-- The tags of the OD engine are all held. -/
def odFull (d : Device) : Device := { d with waits := List.replicate 4 ⟨.od, bPWM, none, true, ⟨true, true⟩, false⟩ }
set_option maxRecDepth 8000 in
theorem witness_ErrandsAreServed_waits :
    (working .stored (.ans 9)).worksFor 7 = true ∧ (holds .stored).worksFor 7 = false ∧
    (working .stored (.put .link (bufAddr 5) [1] none)).worksFor 7 = false ∧
    (working .stored (.put .link (bufAddr 5) [1] none)).workAt (errand .stored) = true ∧ (holds .stored).workAt (errand .stored) = false ∧
    (odFull (holds .stored)).tagBars 7 = true ∧ (request 0x7000 0 1).tagBars 7 = false ∧ (request 0x7000 0 1).engOf 7 = .idle ∧
    (odFull fwd).mustWait 7 = true ∧ (odFull fwd).answerFor (.core 0) (wf 0x2005 15 0) = some (errand .forwarded) ∧
    fwd.mustWait 7 = false ∧ (fwd.passTo (wf (fwd.lv (bOD + 8)) 23 0 + 1)).forwardOf 0x2005 = some (errand .forwarded) ∧
    (fwd.passTo (wf (fwd.lv (bOD + 8)) 23 0 + 1)).lv (bOD + 8) = fwd.lv (bOD + 8) := by decide +kernel
/-- A swap armed for mode `m` at tick or ring time 9, in state `t`. -/
def armedAt (m : Nat) (t : SwapSt) (hit sync : Bool) : Device :=
  { dRun with swap := { st := t, mode := m, at' := 9, hit := hit }, link := { sync := sync } }
def pointOf (d : Device) : Device := d.pass d.swapPointTick
theorem witness_SwapTakesEveryRegister_modes :
    (armedAt 1 .ready false false).swapGone = false ∧ (pointOf (armedAt 1 .ready false false)).swap.st = .ready ∧
    (pointOf (armedAt 1 .ready false false)).swap.mode = 1 ∧ (pointOf (armedAt 1 .ready false false)).here.undo = [] ∧
    (pointOf (armedAt 1 .ready false false)).here.undoSt ≠ some .ready ∧ (pointOf (armedAt 1 .ready false false)).liveCodes.2 = [] ∧
    (pointOf (armedAt 2 .ready false true)).swap.mode = 2 ∧ (pointOf (armedAt 2 .ready false true)).link.sync = true ∧
    (pointOf (armedAt 2 .ready false true)).liveCodes.2 = [] ∧ (pointOf (armedAt 3 .ready true false)).swap.hit = true ∧
    (pointOf (armedAt 1 .check false false)).swap.st = .check ∧ (pointOf (armedAt 2 .ready false false)).link.sync = false ∧
    (pointOf (armedAt 2 .ready false false)).link.head = false ∧ (armedAt 3 .ready false false).swap.hit = false ∧
    (armedAt 3 .ready false false).here.undo = [] := by decide +kernel
/-- The incoming set selects the program of bank 1, whose boot header is valid; core 0 runs and core 1 sleeps. -/
def exchanges : Device :=
  let hdr : List Word := [0x00015448, 0x00201000, 0x10100800]
  let crc := crc16 ((hdr.map wordBytes).flatten)
  let d := (hdr ++ [wd crc.toNat]).zipIdx.foldl (fun d x => word d (0x200000 + 4 * x.2) x.1) (armed .ready)
  let d := { d with shadow := [(aSwBank, 1)] }
  (d.setCore 0 k0).setCore 1 { k0 with st := .asleep }
theorem witness_SwapTakesEveryRegister_exchange :
    exchanges.swapGone = false ∧ exchanges.swap.st = .ready ∧ exchanges.swapExch = true ∧ wf (exchanges.shd aSwBank) 0 0 = 1 ∧
    exchanges.liveCodes.2 = [] ∧ (exchanges.bootHeader 15 1).2 = some (0x00201000, 0x10100800) ∧
    exchanges.memIdle 0x1007FC00 = false ∧ (exchanges.coreC 0).st = .running ∧ (exchanges.coreC 1).st = .asleep := by decide +kernel
theorem witness_Authorisation_fuses :
    (dbg { check := some (2, true) }).fuse.authBad = false ∧
    ({ dbg { check := some (2, true) } with fuse := { dRun.fuse with authBad := true } } : Device).fuse.authBad = true ∧
    ((dbg { dlyEnd := some 5 }).passTo 5).dbg.dlyEnd = some 5 := by decide +kernel
/-- The store of core 0 has been accepted by the converters' unit. -/
def accepts : Device := { with0 k0 with waits := [⟨.core 0, bSNS, some 5, true, ⟨true, true⟩, true⟩] }
theorem witness_RunControl_accepted :
    (with0 k0).accepted 0 = false ∧ accepts.accepted 0 = true ∧ (accepts.coreC 0).st = .running ∧ accepts.powered = true := by decide
/-- The window is to give lock 0, or to read through the map into the domain of another. -/
def gives (l : Nat) : Device := dbg { level := l, maddr := wd (bLOCK + 0x104), mbusy := some (true, 2, false, wd (bLOCK + 0x104), 0) }
set_option maxRecDepth 8000 in
theorem witness_WindowAndTags_owner :
    coreOp true (bLOCK + 0x104) = true ∧ (gives 1).dbg.level < 2 ∧ (gives 0).tagBars 8 = false ∧
    (((gives 1).engBegin 8).busWrite .debug (bLOCK + 0x104) 4 0).2 = .dom 1 ∧
    (((gives 1).engBegin 8).busWrite .debug (bLOCK + 0x104) 4 0).1.dbg = (gives 1).dbg := by decide
theorem witness_LanesStartEvaluations_tick :
    ((slot { st := .queued }).pass (slot { st := .queued }).laneTick).parked = false ∧
    ((slot { st := .queued }).pass (slot { st := .queued }).laneTick).freeLane = some 0 ∧
    (((slot { st := .queued }).pass (slot { st := .queued }).laneTick).slotC 3).st = .queued := by decide +kernel
/-- Slots 3 and 4 are members of arena 1, whose map has channel 5; slot 3 runs, and slot 4 has completed before with the output 7. -/
def member (run : Bool) : LeSlot :=
  if run then { st := .running, done := true, run := some { evalRun with map := 0x8005, desc := [0x01200000] ++ List.replicate 15 0 } }
  else { st := .idle, done := true, law := { u0 := 7 } }
def arena1 : Device := ((inForce (inForce dRun (aDesc 3 0) 0x01200000) (aDesc 4 0) 0x01200000).setSlot 3 (member true)).setSlot 4 (member false)
theorem witness_EvaluationsComplete_arena :
    (arena1.pass (arena1.endTick 3)).arenaOf 3 = some 1 ∧ ((arena1.pass (arena1.endTick 3)).slotC 3).st = .running ∧
    mapEntries 0x8005 = [(5, 0, 0)] ∧ (arena1.pass (arena1.endTick 3)).arenaOvrd 1 = false ∧
    ((arena1.pass (arena1.endTick 3)).slotC 3).run.map (fun r => (wb (nth r.desc 0) 24, wf (nth r.desc 0) 23 21, r.map, r.stop)) =
      some (true, 1, 0x8005, false) ∧ dLaw ([0x01200000] ++ List.replicate 15 0) = 0 ∧ evalRun.bump = false := by decide +kernel

set_option maxRecDepth 8000 in
theorem witness_ErrandsAreServed_codes :
    wb (((request 0x2000 0 1).bytesIn .od (bufAddr 5) 10).1.lv bOD) 0 = false ∧ (request 0x2000 0 1).tagBars 7 = false ∧
    (({ fwd with mem := { fwd.mem with cells := [(bufAddr 5 + 9, 0x71)] } } : Device).bytesIn .od (bufAddr 5) 10).2 =
      some [0, 0, 0, 0, 0, 0, 0, 0, 0, 0x71] ∧ (112 : Nat) < (0x71 : Byte).toNat := by decide +kernel

/-! ### Worked examples of the spec -/

/-- 02_cadence_and_calendar: ADD_HOUR at 2100-02-28 23:40:12, and SUB_HOUR back. -/
def eve2100 : Cal := { year := 2100, mon := 2, day := 28, hour := 23, min := 40, sec := 12 }
theorem test_add_hour : eve2100.dateWord = 0x2100E228 ∧ eve2100.addHour.timeWord = 0x00004012 ∧
    eve2100.addHour.dateWord = 0x21002301 ∧ eve2100.addHour.subHour = eve2100 := by decide
/-- 05_sense: code 2560 on channel 4 of node 3. -/
theorem test_conversion : snsArith (16 * 2560) 0x0030 0x8148 = 41322 ∧ snsFmt true 41322 = 0x216A := by decide
/-- 06_pwm: the needle coil with y = 0x0010 under DROP, STRETCH and CARRY. -/
theorem test_policy : dutyOn 0x80000010 10000 false = 156 ∧ (policy 0 156 320000 960 640 0).t = 0 ∧
    (policy 1 156 320000 960 640 0).t = 960 ∧ policy 2 156 320000 960 640 780 = ⟨.low, 0, 936, true, false⟩ ∧
    policy 2 156 320000 960 640 936 = ⟨.normal, 1092, 0, false, false⟩ := by decide
/-- 08_control_laws: one evaluation of the feeder loop. -/
def feeder : List Word :=
  [0, 0, 0, 0, 0, 0, 0x7FFF8000, 0, 0x08D91BA5, 0x7FFF0000, 0x7FFF8000, 0, 0x00000024]
theorem test_pid : (evalPid feeder [0x1C00] 0x2000 false false { i := 6291456, first := false }).i = 6436416 ∧
    (evalPid feeder [0x1C00] 0x2000 false false { i := 6291456, first := false }).u0 = 3341 := by decide
/-- 08_control_laws: the same slot retuned to KP = 5000 with BMP. -/
theorem test_bumpless : (bumpPid (feeder.set 8 0x08D91388)
    { i := 6436416, eprev := 1024, sprev := 7246848, first := false }).i = 8563264 := by decide
/-- 11_genha_instructions: RDACC of the 4-tap filter. -/
def filtered : Core := { k0 with acc := 184549376 }
theorem test_rdacc : ((after (.rdacc 0 0 5 15) (with0 filtered)).coreC 0).reg 5 = 0x1600 := by decide
/-- 14_sharing: SHED_ALLOC hands out buffer 165 with GEN 3, and C1 passes it to C2; a second free is DOUBLE. -/
def heap : Device := { dRun.setCore 1 { st := .running } with shed := { dRun.shed with free := [165], buf := [(165, { owner := 7, gen := 2 })] } }
def passed : Device := after (.shedPass (.core 1) 0x000230A5) (after (.shedAlloc (.core 1)) heap)
theorem test_shed_handle : (after (.shedAlloc (.core 1)) heap).got (.core 1) = (0x30A5, .ok) ∧
    (passed.bufC 165).owner = 2 := by decide
theorem test_shed_double :
    let d := after (.shedFree (.core 2) 0x30A5) (after (.shedFree (.core 2) 0x30A5) (passed.setCore 2 { st := .running }))
    d.shed.free = [165] ∧ wb d.shed.err 0 = true ∧ d.shed.errInfo = 0x000230A5 ∧ d.shed.errCnt = 1 := by decide
/-- 17_roram_link: node 3 receives the yard with ACCDLY 2368; its LINK_TOFS and what it sends as ACCDLY. -/
def node3 : Device :=
  { link { la := { dly := 160 } } with time := { dRun.time with now := 4999880123 } }
def bigYard : YardFrame :=
  ({ yard0 with flags := 8, hop := 2, ty := 5000000000, accdly := 2368 } : YardFrame).seal
set_option maxRecDepth 8000 in
theorem test_link_tofs : (after (.yard .la 8 bigYard) node3).link.tofs = 3838584 ∧
    (match (after (.yard .la 8 bigYard) node3).link.sentB with | .yard g => g.accdly | _ => 0) = 3552 := by decide
/-- 18_object_dictionary: the first ten bytes of the REQ for SWAPT. -/
theorem test_errand_header : (errOf [3, 1, 0x21, 0, 0x30, 0x10, 3, 2, 8, 0] []).index = 0x1030 ∧
    (errOf [3, 1, 0x21, 0, 0x30, 0x10, 3, 2, 8, 0] []).kind = 1 ∧
    ((odRows 0x1030).bind (fun r => odSub r 3)).map (fun e => e.size) = some 8 := by decide
/-- 19_debug: IDCODE as the TAP captures it. -/
theorem test_idcode : (after .idcode dRun).tapCapture = 0x140325D3 := by decide

end Sys2Proof.Tests
end

section
/-! Guards and undefined encodings (R430 to R433): how the commands of instructions are run, what an instruction whose guard
fails leaves, and the corner of a cache command with guard 0b1000 (log 41). -/
namespace Sys2Proof.Machine

/-! ### How the commands of instructions are run -/

/-- The command of a cache operation runs its instruction, or, where the guard passes and the register names another
operation, it is not this command and changes nothing (log 41). -/
theorem run_cacheInstr (s : State) (c : Fin 4) (g : BitVec 4) (op : Nat) (src : Fin 32) (i : Instr) :
    (∃ cls body, s.run (fun d => d.cacheInstr c g op src i) = s.run (fun d => d.coreInstr c g cls i body)) ∨
      ((s.dev.coreC c).guardOk g = true ∧ s.run (fun d => d.cacheInstr c g op src i) = .next s) := by
  simp only [State.run, Device.cacheInstr]
  split
  · exact .inl ⟨.other, cacheBody c src, rfl⟩
  · next hother => exact .inr ⟨by simp_all, rfl⟩

/-- The command of an instruction with guard `g` of core `c` runs it as a defined instruction, or, a cache operation's whose
guard passes, changes nothing. -/
theorem exec_of_guardOf {i : Instr} {c : Fin 4} {g : BitVec 4} (h : guardOf i = some (c, g)) (s : State) :
    (∃ cls body, exec i s = s.run (fun d => d.coreInstr c g cls i body)) ∨
      ((s.dev.coreC c).guardOk g = true ∧ exec i s = .next s) := by
  cases i with
  | cacheInvalidateIline | cacheInvalidateI | cacheCleanDline | cacheCleanInvalidateDline | cacheCleanD
  | cacheCleanInvalidateD =>
    cases h
    exact run_cacheInstr s c g _ _ _
  | rep c' g' rg r n =>
    -- A count of its own above 64 has no guard.
    simp only [guardOf, Option.ite_none_right_eq_some, Option.some.injEq, Prod.mk.injEq, Bool.or_eq_true,
      decide_eq_true_eq] at h
    obtain ⟨hn, rfl, rfl⟩ := h
    have hbad : (!rg && decide (63 < n.toNat)) = false := by
      cases rg <;> simp_all
    exact .inl ⟨.other, repBody c' false rg r n, by simp [exec, execRep, hbad, Device.coreInstr]⟩
  | add | sub | and | or | xor | shl | shr | sar | ceq | cne | clt | cltu | cle | cleu | mul | mulu | addi | andi | ori
  | xori | shli | shri | sari | ceqi | cnei | clti | cltui | clei | cleui | repI | rdacc | lui | orl | mac | mach | ldb
  | ldbu | ldh | ldhu | ldw | stb | sth | stw | bz | bnz | mfs | mts | bra | bsr | jmp | jsr | vbaseWrite | icountLoRead
  | sys | rfe | sleep | fence =>
    cases h
    exact .inl ⟨_, _, rfl⟩
  | _ => cases h

/-! ### A guard that fails -/

/-- A core that executes runs a defined instruction whose guard fails by going on to the next address (R426, R432). -/
theorem Device.coreInstr_guard_fails {d : Device} {c : Nat} {g : BitVec 4} (cls : Cls) (i : Instr) (body : Device → Res)
    (h : d.executing c = true) (hg : g ≠ 8) (hk : (d.coreC c).guardOk g = false) :
    d.coreInstr c g cls i body = d.setCore c (d.coreC c).stepped := by
  obtain ⟨hst, hhalt, hhand, hrep, hstep, hreq, hbp, hirq, heng, hf⟩ := Device.executing_facts h
  have hlive : (d.coreC c).live = true := by simp [Core.live, hst, hhalt, hhand]
  have hbegin : (d.setCore c (d.coreC c).begun).engBegin c = d.begun c := Device.engBegin_idle (d := d.begun c) heng
  have hguard : (d.coreC c).begun.guardOk g = false := hk
  have hretire : (d.begun c).retire c 1 ((d.coreC c).pc + 4) = d.setCore c (d.coreC c).stepped := by
    unfold Device.retire Device.begun
    exact Device.onCore_setCore _ (by simpa using hst)
  have hafter : (d.setCore c (d.coreC c).stepped).afterInstr c [] = d.setCore c (d.coreC c).stepped :=
    Device.afterInstr_nil (by simpa [Core.stepped] using hstep) (by simpa [Core.stepped] using hreq)
  have hplain : (d.begun c).plain c (Device.fetchPc c) g false body = .ok (d.setCore c (d.coreC c).stepped) := by
    unfold Device.plain
    simp only [Device.fetchPc_begun hf, Device.begun_coreC, Core.begun_pc, hg, hguard, hretire, hafter, Bool.false_or,
      decide_false, Bool.not_false, Bool.false_eq_true, if_false, if_true]
  unfold Device.coreInstr Device.runInstr
  simp only [hlive, hbp, hirq, hrep, hbegin, hplain, Bool.not_true, Bool.false_eq_true, if_false]
  exact Device.ran_ok heng

/-- Settles O20: a guard that fails leaves no command out, so the command runs its instruction, which goes on to the next
address. -/
theorem failedGuardsDoNothing : Obligations.FailedGuardsDoNothing := by
  intro s i c g hi hexec hg hk
  rcases exec_of_guardOf hi s with ⟨cls, body, e⟩ | ⟨hok, -⟩
  · rw [e]
    simp only [State.run, State.coreTo, Device.coreInstr_guard_fails cls i body hexec hg hk]
  · rw [hk] at hok
    cases hok

/-! ### A cache command with guard 0b1000 -/

/-- Guard 0b1000 has the pattern of a guard that passes; only the check of R433 keeps it from running. -/
theorem Core.guardOk_eight (k : Core) : k.guardOk 8 = true := rfl

/-- A supervisor's command of invalidating an I-cache line whose guard passes and whose register names another operation
changes nothing (log 41). -/
theorem exec_cacheInvalidateIline_of_other_op {s : State} {c : Fin 4} {g : BitVec 4} {r : Fin 32}
    (hs : (s.dev.coreC c).sup = true) (hg : (s.dev.coreC c).guardOk g = true)
    (ho : wf ((s.dev.coreC c).reg r) 2 0 ≠ 1) : exec (.cacheInvalidateIline c g r) s = .next s := by
  simp [exec, execCacheInvalidateIline, State.run, Device.cacheInstr, hs, hg, ho]

/-- With VBASE not valid an exception ends in lockup, reason 1 (R528). -/
theorem Device.takeExc_of_vbase_invalid {d : Device} {c : Nat} (t : Trap) (sync : Bool) (spc ipc : Word)
    (h : wb (d.coreC c).vbase 0 = false) : d.takeExc c t sync spc ipc = .ok (d.lockup c t.vec 1 ipc) := by
  simp [Device.takeExc, h]

/-- Core 0, in supervisor mode and with no valid VBASE, executes at 0x1000; its g1 holds OP 2, which invalidates the I-cache. -/
def otherOpState : State :=
  { dev := State.reset.dev.setCore 0 { st := .running, pc := 0x1000, ic := [(lineOf 0x1000, some 0)], g := [(1, 2)] },
    pending := [] }

/-- Refutes O17: with guard 0b1000 and a register that names the OP of another row, the command of a cache operation takes no
illegal-instruction exception: it changes nothing (log 41), where the exception would leave its lockup record. -/
theorem not_undefinedWordsAndFailingFetches : ¬ Obligations.UndefinedWordsAndFailingFetches := by
  intro h
  have hexec : otherOpState.dev.executing 0 = true := by decide
  have hstays : exec (.cacheInvalidateIline 0 8 1) otherOpState = .next otherOpState :=
    exec_cacheInvalidateIline_of_other_op (by decide) (Core.guardOk_eight _) (by decide)
  have htrap := (h.1 otherOpState 0 0 (.cacheInvalidateIline 0 8 1) 0 0 0 hexec).2.1 rfl
  rw [hstays, Host.Outcome.next.injEq] at htrap
  have hrecord := congrArg (fun t => t.dev.sys.lockup) htrap
  simp only [State.on] at hrecord
  rw [Device.takeExc_of_vbase_invalid _ _ _ _ (by decide)] at hrecord
  exact absurd hrecord (by decide)

end Sys2Proof.Machine
end

section
/-! Genha instructions on the core's own registers (R473 to R475, R478): what running one of them comes to, the values of the
ALU table as arithmetic, the accumulator, and the branches with their targets. -/
namespace Sys2Proof.Machine

/-! ### Instructions that only change the core's registers -/

/-- `f` is an operation on the registers of a core: it leaves alone what running an instruction goes by. -/
structure Core.OnRegisters (f : Core → Core) : Prop where
  st (k : Core) : (f k).st = k.st
  stepping (k : Core) : (f k).stepping = k.stepping
  haltReq (k : Core) : (f k).haltReq = k.haltReq
  pc (k : Core) : (f k).pc = k.pc
  begun (k : Core) : f k.begun = (f k).begun

/-- The command of an instruction whose operation is `f` on the registers leaves the core so changed, at the next address
(R426). -/
theorem State.run_onRegisters {s : State} {c : Fin 4} {g : BitVec 4} {cls : Cls} {i : Instr} {f : Core → Core} {k : Core}
    (h : s.dev.ready c g = true) (hf : Core.OnRegisters f) (hk : f (s.dev.coreC c) = k) :
    s.run (fun d => d.coreInstr c g cls i (fun d => .done (d.onCore c f) [])) = .next (s.coreTo c k.stepped) := by
  subst hk
  have hrun := Device.coreInstr_regs cls i f h fun k => ⟨hf.st k, hf.stepping k, hf.haltReq k⟩
  simp only [State.run, State.coreTo, hrun, hf.begun, Core.stepped, hf.pc]

/-- The command of an ALU instruction writes its result to gD and leaves the core at the next address (R426, R473). -/
theorem State.run_alu {s : State} {c : Fin 4} {g : BitVec 4} {i : Instr} {dst : Fin 32} {f : Core → Word} {v : Word}
    (h : s.dev.ready c g = true) (hv : f (s.dev.coreC c) = v)
    (hf : f (s.dev.coreC c).begun = f (s.dev.coreC c) := by rfl) :
    s.run (fun d => d.coreInstr c g .alu i (aluBody c dst f)) =
      .next (s.coreTo c ((s.dev.coreC c).put dst v).stepped) := by
  simp only [State.run, State.coreTo, Device.coreInstr_alu .alu i dst f h hf, hv]

/-! ### Values of the ALU table (R473) -/

theorem sub_eq_ofInt (x y : Word) : x - y = BitVec.ofInt 32 (x.toInt - y.toInt) := by
  rw [Int.sub_eq_add_neg, BitVec.ofInt_add, BitVec.ofInt_neg, BitVec.ofInt_toInt, BitVec.ofInt_toInt, BitVec.sub_eq_add_neg]

theorem add_eq_ofNat (x y : Word) : x + y = BitVec.ofNat 32 (x.toNat + y.toNat) := by
  simp [BitVec.ofNat_add]

/-- A sum with an immediate is that of the signed values (R9). -/
theorem add_sextW_eq_ofInt {n : Nat} (x : Word) (imm : BitVec n) : x + sextW imm = BitVec.ofInt 32 (x.toInt + imm.toInt) := by
  rw [BitVec.ofInt_add, BitVec.ofInt_toInt]
  rfl

theorem toInt_sextW {n : Nat} (h : n ≤ 32) (imm : BitVec n) : (sextW imm).toInt = imm.toInt :=
  BitVec.toInt_signExtend_of_le h

theorem shiftLeft_eq_ofNat (x : Word) (n : Nat) : x <<< n = BitVec.ofNat 32 (x.toNat * 2 ^ n) := by
  apply BitVec.eq_of_toNat_eq
  rw [BitVec.toNat_shiftLeft, Nat.shiftLeft_eq, BitVec.toNat_ofNat]

theorem ushiftRight_eq_ofNat (x : Word) (n : Nat) : x >>> n = BitVec.ofNat 32 (x.toNat / 2 ^ n) := by
  rw [← Nat.shiftRight_eq_div_pow, ← BitVec.toNat_ushiftRight, BitVec.ofNat_toNat, BitVec.setWidth_eq]

theorem sshiftRight_eq_ofInt_div (x : Word) (n : Nat) : x.sshiftRight n = BitVec.ofInt 32 (x.toInt / (2 ^ n : Nat)) := by
  rw [BitVec.sshiftRight_eq, Int.shiftRight_eq_div_pow]

/-- A compare writes 1 where its condition holds and 0 elsewhere. -/
theorem boolW_decide (p : Prop) [Decidable p] : boolW (decide p) 0 = if p then 1 else 0 := by
  simp [boolW, bitW, wd]

theorem boolW_bne (x y : Word) : boolW (x != y) 0 = if x = y then 0 else 1 := by
  by_cases h : x = y <;> simp [h, boolW, bitW, wd]

theorem boolW_slt (x y : Word) : boolW (x.slt y) 0 = if x.toInt < y.toInt then 1 else 0 := boolW_decide _
theorem boolW_ult (x y : Word) : boolW (x.ult y) 0 = if x.toNat < y.toNat then 1 else 0 := boolW_decide _
theorem boolW_sle (x y : Word) : boolW (x.sle y) 0 = if x.toInt ≤ y.toInt then 1 else 0 := boolW_decide _
theorem boolW_ule (x y : Word) : boolW (x.ule y) 0 = if x.toNat ≤ y.toNat then 1 else 0 := boolW_decide _

/-- LUI puts its immediate in the upper half. -/
theorem append_zero_eq_ofNat (up : BitVec 16) : up ++ (0 : BitVec 16) = BitVec.ofNat 32 (up.toNat * 65536) := by
  apply BitVec.eq_of_toNat_eq
  have := up.isLt
  rw [BitVec.toNat_append, BitVec.toNat_ofNat, Nat.shiftLeft_eq, Nat.mod_eq_of_lt (by omega)]
  simp

/-- Settles O1: each command of the table runs its operation, whose value is the table's. -/
theorem aluInstructions : Obligations.AluInstructions := by
  constructor
  · intro s c g d a b h
    exact ⟨State.run_alu h (add_eq_ofNat _ _), State.run_alu h (sub_eq_ofInt _ _), State.run_alu h rfl, State.run_alu h rfl,
      State.run_alu h rfl, State.run_alu h (shiftLeft_eq_ofNat _ _), State.run_alu h (ushiftRight_eq_ofNat _ _),
      State.run_alu h (sshiftRight_eq_ofInt_div _ _), State.run_alu h (boolW_decide _), State.run_alu h (boolW_bne _ _),
      State.run_alu h (boolW_slt _ _), State.run_alu h (boolW_ult _ _), State.run_alu h (boolW_sle _ _),
      State.run_alu h (boolW_ule _ _)⟩
  · intro s c g d a imm sh up h k x y nx
    have hclt : boolW (x.slt (sextW imm)) 0 = if x.toInt < imm.toInt then 1 else 0 := by
      rw [boolW_slt, toInt_sextW (by decide)]
    have hcle : boolW (x.sle (sextW imm)) 0 = if x.toInt ≤ imm.toInt then 1 else 0 := by
      rw [boolW_sle, toInt_sextW (by decide)]
    have horl : k.reg d ||| up.setWidth 32 = k.reg d ||| BitVec.ofNat 32 up.toNat := by rw [BitVec.ofNat_toNat]
    exact ⟨State.run_alu h (add_sextW_eq_ofInt _ _), State.run_alu h rfl, State.run_alu h rfl, State.run_alu h rfl,
      State.run_alu h (shiftLeft_eq_ofNat _ _), State.run_alu h (ushiftRight_eq_ofNat _ _),
      State.run_alu h (sshiftRight_eq_ofInt_div _ _), State.run_alu h (boolW_decide _), State.run_alu h (boolW_bne _ _),
      State.run_alu h hclt, State.run_alu h (boolW_ult _ _), State.run_alu h hcle, State.run_alu h (boolW_ule _ _),
      State.run_alu h (append_zero_eq_ofNat _), State.run_alu h horl⟩

/-! ### The accumulator (R458, R459, R474, R475, R506) -/

/-- The low word of a doubleword's value, as of the value itself. -/
theorem setWidth_ofInt_64 (i : Int) : (BitVec.ofInt 64 i).setWidth 32 = BitVec.ofInt 32 i := by
  apply BitVec.eq_of_toNat_eq
  simp only [BitVec.toNat_setWidth, BitVec.toNat_ofInt]
  omega

/-- The signed product as a doubleword (R474). -/
theorem mul_signExtend_64 (x y : Word) :
    x.signExtend 64 * y.signExtend 64 = BitVec.ofInt 64 (x.toInt * y.toInt) :=
  (BitVec.ofInt_mul _ _).symm

/-- The unsigned product as a doubleword (R474). -/
theorem mul_setWidth_64 (x y : Word) : x.setWidth 64 * y.setWidth 64 = BitVec.ofNat 64 (x.toNat * y.toNat) := by
  rw [BitVec.ofNat_mul, BitVec.ofNat_toNat, BitVec.ofNat_toNat]

theorem wI_eq_ofInt (i : Int) : wI i = BitVec.ofInt 32 i := by
  apply BitVec.eq_of_toNat_eq
  simp only [wI, wd, toBits, BitVec.toNat_ofNat, BitVec.toNat_ofInt]
  omega

theorem clampI_of_mem {a lo hi : Int} (hl : lo ≤ a) (hh : a ≤ hi) : clampI a lo hi = a := by
  rw [clampI, Int.max_eq_left hl, Int.min_eq_left hh]

theorem clampI_of_lt {a lo hi : Int} (h : a < lo) (hr : lo ≤ hi) : clampI a lo hi = lo := by
  rw [clampI, Int.max_eq_right (Int.le_of_lt h), Int.min_eq_left hr]

theorem clampI_of_gt {a lo hi : Int} (h : hi < a) (hr : lo ≤ hi) : clampI a lo hi = hi := by
  rw [clampI, Int.max_eq_left (Int.le_trans hr (Int.le_of_lt h)), Int.min_eq_right (Int.le_of_lt h)]

/-- A sum in range replaces the accumulator (R459). -/
theorem Core.accAdd_in_range {k : Core} {p : Int} (hl : -2 ^ 63 ≤ k.acc.toInt + p) (hh : k.acc.toInt + p < 2 ^ 63) :
    k.accAdd p = { k with acc := BitVec.ofInt 64 (k.acc.toInt + p) } :=
  if_pos ⟨by omega, by omega⟩

/-- A sum below the range sets OV, and saturates by SAT (R459). -/
theorem Core.accAdd_below {k : Core} {p : Int} (h : k.acc.toInt + p < -2 ^ 63) :
    k.accAdd p = { k with
      acc := if wb k.accst 0 then BitVec.ofInt 64 (-2 ^ 63) else BitVec.ofInt 64 (k.acc.toInt + p)
      accst := setB k.accst 8 true } := by
  unfold Core.accAdd
  rw [if_neg (by omega), clampI_of_lt (by omega) (by omega), apply_ite (BitVec.ofInt 64)]
  rfl

/-- A sum above the range sets OV, and saturates by SAT (R459). -/
theorem Core.accAdd_above {k : Core} {p : Int} (h : 2 ^ 63 ≤ k.acc.toInt + p) :
    k.accAdd p = { k with
      acc := if wb k.accst 0 then BitVec.ofInt 64 (2 ^ 63 - 1) else BitVec.ofInt 64 (k.acc.toInt + p)
      accst := setB k.accst 8 true } := by
  unfold Core.accAdd
  rw [if_neg (by omega), clampI_of_gt (by omega) (by omega), apply_ite (BitVec.ofInt 64)]
  rfl

/-- What is written to a general register does not depend on the accumulator's status. -/
theorem Core.put_with_accst (k : Core) (r : Nat) (v w : Word) :
    ({ k with accst := w } : Core).put r v = { k.put r v with accst := w } := by
  unfold Core.put Core.putOf Core.sb
  split <;> rfl

/-- A rounded value in range is what RDACC writes (R506). -/
theorem Core.rdacc_in_range {k : Core} {n : Nat} (dst : Fin 32) (hl : -2 ^ 31 ≤ rnd k.acc.toInt n)
    (hh : rnd k.acc.toInt n < 2 ^ 31) : k.rdacc dst n = k.put dst (BitVec.ofInt 32 (rnd k.acc.toInt n)) := by
  unfold Core.rdacc
  dsimp only
  rw [if_pos ⟨by omega, by omega⟩, clampI_of_mem (by omega) (by omega), wI_eq_ofInt]

/-- RDACC clamps a rounded value below the range and sets OV (R506). -/
theorem Core.rdacc_below {k : Core} {n : Nat} (dst : Fin 32) (h : rnd k.acc.toInt n < -2 ^ 31) :
    k.rdacc dst n = { k.put dst 0x80000000 with accst := setB k.accst 8 true } := by
  unfold Core.rdacc
  dsimp only
  rw [if_neg (by omega), clampI_of_lt (by omega) (by omega), Core.put_with_accst]
  rfl

/-- RDACC clamps a rounded value above the range and sets OV (R506). -/
theorem Core.rdacc_above {k : Core} {n : Nat} (dst : Fin 32) (h : 2 ^ 31 ≤ rnd k.acc.toInt n) :
    k.rdacc dst n = { k.put dst 0x7FFFFFFF with accst := setB k.accst 8 true } := by
  unfold Core.rdacc
  dsimp only
  rw [if_neg (by omega), clampI_of_gt (by omega) (by omega), Core.put_with_accst]
  rfl

/-- A product written to gD and to the accumulator is an operation on the registers. -/
theorem Core.onRegisters_product (dst : Fin 32) (p : Core → DWord) (hp : ∀ k, p k.begun = p k) :
    Core.OnRegisters (fun k => { k.put dst ((p k).setWidth 32) with acc := p k }) where
  st _ := Core.put_st ..
  stepping _ := Core.put_stepping ..
  haltReq _ := Core.put_haltReq ..
  pc _ := Core.put_pc ..
  begun k := by simp only [hp, Core.put_begun]; rfl

/-- The command of a multiplication writes the product `w` to the accumulator and its low word `v` to gD (R474). -/
theorem State.run_product {s : State} {c : Fin 4} {g : BitVec 4} {cls : Cls} {i : Instr} {dst : Fin 32} {p : Core → DWord}
    {w : DWord} {v : Word} (h : s.dev.ready c g = true) (hw : p (s.dev.coreC c) = w) (hv : w.setWidth 32 = v)
    (hp : ∀ k : Core, p k.begun = p k := by exact fun _ => rfl) :
    s.run (fun d => d.coreInstr c g cls i (mulBody c dst p)) =
      .next (s.coreTo c (Core.stepped { (s.dev.coreC c).put dst v with acc := w })) := by
  subst hw hv
  exact State.run_onRegisters h (Core.onRegisters_product dst p hp) rfl

/-- An addition to the accumulator changes it and its status alone. -/
theorem Core.accAdd_eq_with (k : Core) (p : Int) :
    k.accAdd p = { k with acc := (k.accAdd p).acc, accst := (k.accAdd p).accst } := by
  unfold Core.accAdd
  dsimp only
  split <;> rfl

theorem Core.accAdd_begun (k : Core) (p : Int) : k.begun.accAdd p = (k.accAdd p).begun := by
  unfold Core.accAdd
  dsimp only [Core.begun_acc]
  split <;> rfl

/-- An addition to the accumulator is an operation on the registers. -/
theorem Core.onRegisters_accAdd (p : Core → Int) (hp : ∀ k, p k.begun = p k) :
    Core.OnRegisters (fun k => k.accAdd (p k)) where
  st k := by rw [Core.accAdd_eq_with]
  stepping k := by rw [Core.accAdd_eq_with]
  haltReq k := by rw [Core.accAdd_eq_with]
  pc k := by rw [Core.accAdd_eq_with]
  begun k := by rw [hp, Core.accAdd_begun]

/-- RDACC writes a general register of a core whose accumulator's status alone may have changed. -/
theorem Core.rdacc_eq_put (k : Core) (dst : Fin 32) (n : Nat) :
    ∃ w v, k.rdacc dst n = ({ k with accst := w } : Core).put dst v ∧
      k.begun.rdacc dst n = ({ k.begun with accst := w } : Core).put dst v := by
  unfold Core.rdacc
  dsimp only [Core.begun_acc]
  split
  · exact ⟨k.accst, _, rfl, rfl⟩
  · exact ⟨_, _, rfl, rfl⟩

theorem Core.onRegisters_rdacc (dst : Fin 32) (n : Nat) : Core.OnRegisters (fun k => k.rdacc dst n) where
  st k := by obtain ⟨w, v, hk, -⟩ := k.rdacc_eq_put dst n; rw [hk, Core.put_st]
  stepping k := by obtain ⟨w, v, hk, -⟩ := k.rdacc_eq_put dst n; rw [hk, Core.put_stepping]
  haltReq k := by obtain ⟨w, v, hk, -⟩ := k.rdacc_eq_put dst n; rw [hk, Core.put_haltReq]
  pc k := by obtain ⟨w, v, hk, -⟩ := k.rdacc_eq_put dst n; rw [hk, Core.put_pc]
  begun k := by obtain ⟨w, v, hk, hb⟩ := k.rdacc_eq_put dst n; rw [hk, hb, ← Core.put_begun]; rfl

/-- Settles O2: each command runs its operation on the accumulator, by the range its result lies in. -/
theorem multiplyAccumulate : Obligations.MultiplyAccumulate := by
  intro s c g d a b sh h k x y v r nx
  have hmac {k'} := State.run_onRegisters (cls := .mac) (i := .mac c g a b) (k := k') h
    (Core.onRegisters_accAdd (fun k => (k.reg a).toInt * (k.reg b).toInt) fun _ => rfl)
  have hrdacc {k'} := State.run_onRegisters (cls := .alu) (i := .rdacc c g d sh) (k := k') h
    (Core.onRegisters_rdacc d sh.toNat)
  exact ⟨State.run_product h (mul_signExtend_64 _ _) (setWidth_ofInt_64 _),
    State.run_product h (mul_setWidth_64 _ _) (BitVec.setWidth_ofNat_of_le (by decide) _),
    fun hl hh => hmac (Core.accAdd_in_range hl hh), fun hv => hmac (Core.accAdd_below hv),
    fun hv => hmac (Core.accAdd_above hv), fun hl hh => hrdacc (Core.rdacc_in_range d hl hh),
    fun hr => hrdacc (Core.rdacc_below d hr), fun hr => hrdacc (Core.rdacc_above d hr)⟩

/-! ### Branches (R478, R479, R502) -/

/-- A core that executes is left as an instruction that makes no access has left it: nothing halts it behind the instruction. -/
theorem Device.ran_afterInstr {d : Device} {c : Nat} {k : Core} (h : d.executing c = true)
    (hs : k.stepping = (d.coreC c).stepping) (hq : k.haltReq = (d.coreC c).haltReq) :
    d.ran c (.ok ((d.setCore c k).afterInstr c [])) = d.setCore c k := by
  obtain ⟨-, -, -, -, hstep, hreq, -, -, heng, -⟩ := Device.executing_facts h
  rw [Device.afterInstr_nil (by simpa [hs] using hstep) (by simpa [hq] using hreq)]
  exact Device.ran_ok heng

theorem Device.executing_of_ready {d : Device} {c : Nat} {g : BitVec 4} (h : d.ready c g = true) : d.executing c = true := by
  simp only [Device.ready, Bool.and_eq_true] at h
  exact h.1.1

/-- What a change of a core that has begun an instruction leaves. -/
theorem Device.onCore_begun {d : Device} {c : Nat} (f : Core → Core) (h : d.executing c = true) :
    (d.begun c).onCore c f = d.setCore c (f (d.coreC c).begun) :=
  Device.onCore_setCore f (Device.executing_facts h).1

/-- Beginning an instruction leaves what a fetch at `t` would take. -/
@[simp] theorem Device.targetTrap_begun (d : Device) (c : Nat) (t : Word) :
    (d.begun c).targetTrap c t = d.targetTrap c t := by
  unfold Device.targetTrap Core.trusted
  rw [Device.begun_coreC]
  rfl

@[simp] theorem Device.relTarget_begun {n : Nat} (d : Device) (c : Nat) (off : BitVec n) :
    (d.begun c).relTarget c off = d.relTarget c off := by
  simp [Device.relTarget]

/-- A target that is not word-aligned, in no region the core fetches from, or in an idle one is an instruction bus error with
SUB = 2 (R479, R701). -/
theorem Device.targetTrap_of_unfetchable {d : Device} {c : Nat} {t : Word}
    (h : fetchable c t.toNat = false ∨ d.memIdle t.toNat = true) : d.targetTrap c t = some ⟨1, 2, t⟩ := by
  unfold Device.targetTrap
  rw [if_pos (by simpa using h)]

/-- The core after a taken branch of `k` to `t`: with `link` g30 holds the return address (R426, R478). -/
def Core.branched (k : Core) (t : Word) (link : Bool) : Core :=
  (if link then k.put 30 (k.pc + 4) else k).begun.retired 1 t

/-- An instruction that branches to `t`, a target the core may fetch from, goes on there (R478). -/
theorem State.run_jumpTo {s : State} {c : Fin 4} {g : BitVec 4} {cls : Cls} {i : Instr} {body : Device → Res} {t : Word}
    (link : Bool) (h : s.dev.ready c g = true) (hbody : body (s.dev.begun c) = jumpTo c t link (s.dev.begun c))
    (ht : s.dev.targetTrap c t = none) :
    s.run (fun d => d.coreInstr c g cls i body) = .next (s.coreTo c ((s.dev.coreC c).branched t link)) := by
  have he := Device.executing_of_ready h
  have hst := (Device.executing_facts he).1
  have hrun : s.dev.coreInstr c g cls i body = s.dev.setCore c ((s.dev.coreC c).branched t link) := by
    rw [Device.coreInstr_ready cls i body h, hbody, jumpTo, Device.targetTrap_begun, ht]
    simp only [Res.after, Device.onCore_begun _ he]
    rw [Device.onCore_setCore _ (by cases link <;> simpa using hst)]
    cases link
    · exact Device.ran_afterInstr he rfl rfl
    · simp only [Core.put_begun, Core.begun_pc, if_true]
      exact Device.ran_afterInstr (k := (s.dev.coreC c).branched t true) he (by simp [Core.branched]) (by simp [Core.branched])
  simp only [State.run, State.coreTo, hrun]

/-- An instruction that branches to a target the core may not fetch from takes the exception at the branch (R479). -/
theorem State.run_jumpTo_trap {s : State} {c : Fin 4} {g : BitVec 4} {cls : Cls} {i : Instr} {body : Device → Res} {t : Word}
    {e : Trap} (link : Bool) (h : s.dev.ready c g = true) (hbody : body (s.dev.begun c) = jumpTo c t link (s.dev.begun c))
    (ht : s.dev.targetTrap c t = some e) :
    s.run (fun d => d.coreInstr c g cls i body) = .next (s.on (fun v =>
      v.ran c ((v.begun c).takeExc c e true (s.dev.coreC c).pc (s.dev.coreC c).pc))) := by
  simp only [State.run, State.on, Device.coreInstr_ready cls i body h, hbody, jumpTo, Device.targetTrap_begun, ht, Res.after]

/-- An instruction that finds nothing to do goes on to the next address. -/
theorem State.run_nothing {s : State} {c : Fin 4} {g : BitVec 4} {cls : Cls} {i : Instr} {body : Device → Res}
    (h : s.dev.ready c g = true) (hbody : body (s.dev.begun c) = .done (s.dev.begun c) []) :
    s.run (fun d => d.coreInstr c g cls i body) = .next (s.coreTo c (s.dev.coreC c).stepped) := by
  have he := Device.executing_of_ready h
  have hrun : s.dev.coreInstr c g cls i body = s.dev.setCore c (s.dev.coreC c).stepped := by
    rw [Device.coreInstr_ready cls i body h, hbody]
    simp only [Res.after, Device.retire, Device.onCore_begun _ he]
    exact Device.ran_afterInstr he rfl rfl
  simp only [State.run, State.coreTo, hrun]

/-- Settles O7: the operation of each branch is `jumpTo` its target, or nothing where the condition of BZ or BNZ fails. -/
theorem branchesGoToTheirTargets : Obligations.BranchesGoToTheirTargets := by
  constructor
  · intro s c g o22 o17 r h k long short nx
    have hreg : ((s.dev.begun c).coreC c).reg r = k.reg r := by rw [Device.begun_coreC, Core.reg_begun]
    have hlong : (s.dev.begun c).relTarget c o22 = long := Device.relTarget_begun ..
    have hshort : (s.dev.begun c).relTarget c o17 = short := Device.relTarget_begun ..
    exact ⟨fun ht => ⟨State.run_jumpTo false h (by rw [hlong]) ht, State.run_jumpTo true h (by rw [hlong]) ht⟩,
      fun ht => ⟨State.run_jumpTo false h (by rw [hreg]) ht, State.run_jumpTo true h (by rw [hreg]) ht⟩,
      fun ht hz => State.run_jumpTo false h (by rw [hreg, if_pos hz, hshort]) ht,
      fun ht hz => State.run_jumpTo false h (by rw [hreg, if_pos hz, hshort]) ht,
      fun hz => State.run_nothing h (by rw [hreg, if_neg hz]),
      fun hz => State.run_nothing h (by rw [hreg, if_neg (not_not_intro hz)])⟩
  · intro s c g o22 r h k long nx
    have hreg : ((s.dev.begun c).coreC c).reg r = k.reg r := by rw [Device.begun_coreC, Core.reg_begun]
    have hlong : (s.dev.begun c).relTarget c o22 = long := Device.relTarget_begun ..
    constructor
    · intro ht
      have htrap := Device.targetTrap_of_unfetchable ht
      exact ⟨State.run_jumpTo_trap false h (by rw [hlong]) htrap, State.run_jumpTo_trap true h (by rw [hlong]) htrap⟩
    · intro ht
      have htrap := Device.targetTrap_of_unfetchable ht
      exact ⟨State.run_jumpTo_trap false h (by rw [hreg]) htrap, State.run_jumpTo_trap true h (by rw [hreg]) htrap⟩

end Sys2Proof.Machine
end

section
/-! The system registers under MFS and MTS (R419 to R426, R428, R458, R483, R512). -/
namespace Sys2Proof.Machine

/-! ### Operations on the core's own registers -/

/-- The command of an instruction that, on the core it begins on, comes to the operation `f` on the registers leaves the core
so changed, at the next address (R426). -/
theorem State.run_of_onRegisters {s : State} {c : Fin 4} {g : BitVec 4} {cls : Cls} {i : Instr} {body : Device → Res}
    {f : Core → Core} {k : Core} (h : s.dev.ready c g = true)
    (hbody : body (s.dev.begun c) = .done ((s.dev.begun c).onCore c f) []) (hf : Core.OnRegisters f)
    (hk : f (s.dev.coreC c) = k) :
    s.run (fun d => d.coreInstr c g cls i body) = .next (s.coreTo c k.stepped) := by
  rw [← State.run_onRegisters (cls := cls) (i := i) h hf hk]
  simp only [State.run, Device.coreInstr_ready cls i _ h, hbody]

/-- The core of an instruction that has begun runs. -/
theorem Device.begun_st_of_ready {d : Device} {c : Nat} {g : BitVec 4} (h : d.ready c g = true) :
    ((d.begun c).coreC c).st = .running := by
  rw [Device.begun_coreC, Core.begun_st]
  exact (Device.executing_facts (Device.executing_of_ready h)).1

/-- An instruction that user mode may execute, or whose core is in supervisor mode, is not refused (R483). -/
theorem Device.asSup_of_allowed {d : Device} {c : Nat} {sup : Bool} (f : Device → Res)
    (h : sup = false ∨ (d.coreC c).sup = true) : d.asSup c sup f = f d := by
  unfold Device.asSup
  rcases h with h | h <;> simp [h]

/-! ### Reading a system register (R419, R421, R426) -/

/-- A read of ICOUNT_LO captures the upper word for ICOUNT_HI (R426). -/
def Core.captureCount (k : Core) : Core := { k with icountHi := (k.icount >>> 32).setWidth 32 }

theorem Core.sysReg_begun (k : Core) (c n : Nat) : k.begun.sysReg c n = k.sysReg c n := rfl

theorem Core.onRegisters_id : Core.OnRegisters (fun k => k) where
  st _ := rfl
  stepping _ := rfl
  haltReq _ := rfl
  pc _ := rfl
  begun _ := rfl

theorem Core.onRegisters_captureCount : Core.OnRegisters Core.captureCount where
  st _ := rfl
  stepping _ := rfl
  haltReq _ := rfl
  pc _ := rfl
  begun _ := rfl

/-- An operation on the registers that ends with MFS's write of gD is one too. -/
theorem Core.OnRegisters.put_sysReg {f : Core → Core} (hf : Core.OnRegisters f) (dst : Fin 32) (c n : Nat) :
    Core.OnRegisters (fun k => (f k).put dst (k.sysReg c n)) where
  st k := by rw [Core.put_st, hf.st]
  stepping k := by rw [Core.put_stepping, hf.stepping]
  haltReq k := by rw [Core.put_haltReq, hf.haltReq]
  pc k := by rw [Core.put_pc, hf.pc]
  begun k := by rw [hf.begun, Core.put_begun, Core.sysReg_begun]

/-- MFS of a register other than ICOUNT_LO copies it to gD (R419). -/
theorem mfsBody_of_ne_icountLo {d : Device} {c n : Nat} (dst : Fin 32) (hst : (d.coreC c).st = .running) (hn : n ≠ 0x24)
    (hs : supNum n = false ∨ (d.coreC c).sup = true) :
    mfsBody c dst n d = .done (d.onCore c (fun k => k.put dst (k.sysReg c n))) [] := by
  unfold mfsBody Device.sysRead
  simp only [Device.asSup_of_allowed _ hs, if_neg hn, Device.onCore, if_pos hst]

/-- MFS of ICOUNT_LO copies it to gD and captures the upper word (R426). -/
theorem mfsBody_icountLo {d : Device} {c : Nat} (dst : Fin 32) (hst : (d.coreC c).st = .running) :
    mfsBody c dst 0x24 d = .done (d.onCore c (fun k => k.captureCount.put dst (k.sysReg c 0x24))) [] := by
  have hput : (d.setCore c (d.coreC c).captureCount).onCore c (fun k => k.put dst ((d.coreC c).sysReg c 0x24)) =
      d.onCore c (fun k => k.captureCount.put dst (k.sysReg c 0x24)) := by
    rw [Device.onCore_setCore (k := (d.coreC c).captureCount) _ hst, Device.onCore, if_pos hst]
  unfold mfsBody
  rw [Device.asSup_of_allowed _ (.inl (by decide)), ← hput]
  rfl

/-! ### Writing a system register (R421, R424, R425, R428, R458, R512) -/

/-- A write of a system register changes these registers alone. -/
theorem Core.sysPut_eq_with (k : Core) (n : Nat) (v : Word) (dbg : Bool) :
    k.sysPut n v dbg = { k with
      status := (k.sysPut n v dbg).status
      estat := (k.sysPut n v dbg).estat
      epc := (k.sysPut n v dbg).epc
      vbase := (k.sysPut n v dbg).vbase
      tsbp := (k.sysPut n v dbg).tsbp
      rpc := (k.sysPut n v dbg).rpc
      acc := (k.sysPut n v dbg).acc
      accst := (k.sysPut n v dbg).accst } := by
  unfold Core.sysPut
  split
  case h_4 => split <;> rfl
  all_goals rfl

theorem Core.sysPut_begun (k : Core) (n : Nat) (v : Word) (dbg : Bool) :
    k.begun.sysPut n v dbg = (k.sysPut n v dbg).begun := by
  unfold Core.sysPut
  split
  case h_4 => rw [apply_ite Core.begun]; rfl
  all_goals rfl

/-- MTS of a register of the core is an operation on the registers. -/
theorem Core.onRegisters_sysPut (n : Nat) (src : Fin 32) (dbg : Bool) :
    Core.OnRegisters (fun k => k.sysPut n (k.reg src) dbg) where
  st k := by rw [Core.sysPut_eq_with]
  stepping k := by rw [Core.sysPut_eq_with]
  haltReq k := by rw [Core.sysPut_eq_with]
  pc k := by rw [Core.sysPut_eq_with]
  begun k := by rw [Core.reg_begun, Core.sysPut_begun]

/-- MTS of a register other than CACHEOP writes the core's register (R421). -/
theorem mtsBody_of_ne_cacheOp {d : Device} {c n : Nat} (src : Fin 32) (hst : (d.coreC c).st = .running) (hn : n ≠ 0x10)
    (hs : supNum n = false ∨ (d.coreC c).sup = true) :
    mtsBody c n src d = .done (d.onCore c (fun k => k.sysPut n (k.reg src) false)) [] := by
  unfold mtsBody Device.sysWrite
  simp only [Device.asSup_of_allowed _ hs, if_neg hn, Device.onCore, if_pos hst]

/-- VBASE takes its base and VALID from the trusted domain (R425). -/
theorem Core.sysPut_vbase_of_trusted {k : Core} (v : Word) (h : k.trusted = true) :
    k.sysPut 5 v false = { k with vbase := (v &&& 0xFFFFFF00) ||| 1 } := by
  simp [Core.sysPut, h]

/-- A write of VBASE from the open domain is ignored (R512). -/
theorem Core.sysPut_vbase_of_open {k : Core} (v : Word) (h : k.trusted = false) : k.sysPut 5 v false = k := by
  simp [Core.sysPut, h]

/-! ### The commands -/

/-- A command that runs MFS of ICOUNT_LO writes gD after the capture (R426). -/
theorem State.run_mfs_icountLo {s : State} {c : Fin 4} {g : BitVec 4} {i : Instr} (dst : Fin 32)
    (h : s.dev.ready c g = true) :
    s.run (fun d => d.coreInstr c g .other i (mfsBody c dst 0x24)) =
      .next (s.coreTo c ((s.dev.coreC c).captureCount.put dst ((s.dev.coreC c).icount.setWidth 32)).stepped) :=
  State.run_of_onRegisters h (mfsBody_icountLo dst (Device.begun_st_of_ready h))
    (Core.onRegisters_captureCount.put_sysReg dst c 0x24) rfl

/-- A command that runs MTS of register `n`, other than CACHEOP, leaves the core as the write of that register does. -/
theorem State.run_mts {s : State} {c : Fin 4} {g : BitVec 4} {i : Instr} {n : Nat} {src : Fin 32} {k : Core}
    (h : s.dev.ready c g = true) (hs : supNum n = false ∨ (s.dev.coreC c).sup = true)
    (hk : (s.dev.coreC c).sysPut n ((s.dev.coreC c).reg src) false = k) (hn : n ≠ 0x10 := by decide) :
    s.run (fun d => d.coreInstr c g .other i (mtsBody c n src)) = .next (s.coreTo c k.stepped) :=
  State.run_of_onRegisters h
    (mtsBody_of_ne_cacheOp src (Device.begun_st_of_ready h) hn (by rw [Device.begun_coreC]; exact hs))
    (Core.onRegisters_sysPut n src false) hk

/-- Settles O8: MFS of a number and MTS of each register are operations on the core's registers, by the number and, for VBASE,
the domain. -/
theorem systemRegisterAccesses : Obligations.SystemRegisterAccesses := by
  constructor
  · intro s c g d num h k nx hi
    have hst := Device.begun_st_of_ready h
    have hcount {i : Instr} := State.run_mfs_icountLo (i := i) d h
    have hread (hs : supNum num.toNat = false ∨ k.sup = true) (hne : num ≠ 0x24) :
        exec (.mfs c g d num) s = nx k (k.sysReg c num.toNat) :=
      State.run_of_onRegisters h
        (mfsBody_of_ne_icountLo d hst (fun he => hne (BitVec.eq_of_toNat_eq he)) (by rw [Device.begun_coreC]; exact hs))
        (Core.onRegisters_id.put_sysReg d c num.toNat) rfl
    exact ⟨hcount, hread, hcount⟩
  · intro s c g r h k v nx base
    refine ⟨fun hs => ?_, State.run_mts h (.inl rfl) rfl, State.run_mts h (.inl rfl) rfl, State.run_mts h (.inl rfl) rfl,
      State.run_mts h (.inl rfl) rfl⟩
    have hvbase {i : Instr} {k' : Core} := State.run_mts (i := i) (n := 5) (src := r) (k := k') h (.inr hs)
    have htrusted (ht : k.trusted = true) : k.sysPut 5 v false = base := Core.sysPut_vbase_of_trusted v ht
    have hopen (ho : k.trusted = false) : k.sysPut 5 v false = k := Core.sysPut_vbase_of_open v ho
    exact ⟨State.run_mts h (.inr hs) rfl, State.run_mts h (.inr hs) rfl, State.run_mts h (.inr hs) rfl,
      State.run_mts h (.inr hs) rfl, fun ht => ⟨hvbase (htrusted ht), hvbase (htrusted ht)⟩,
      fun ho => ⟨hvbase (hopen ho), hvbase (hopen ho)⟩, State.run_mts h (.inr hs) rfl, State.run_mts h (.inr hs) rfl⟩

end Sys2Proof.Machine
end

section
/-! A write of an interrupt controller's register that its checks let through (R18, R537 to R540), the doorbell (R575), and what
raising a source does to a reservation withdrawn in the tick (R566, R584). -/
namespace Sys2Proof.Machine

/-! ### Register writes that complete -/

/-- What an initiator that reaches a block has: register accesses are made, the block is not in reset, its request is a
supervisor's of the trusted domain, and no earlier request or missing tag holds it (R131, R164, R181, R452). -/
theorem Device.reaches_facts {d : Device} {who : Who} {b : Nat} (h : d.reaches who b = true) :
    d.regsUp = true ∧ d.blockBusy b = false ∧ (d.reqOf who).sup = true ∧ (d.reqOf who).trusted = true ∧
      d.ordered (whoIdx who) = false ∧ d.noTag (whoIdx who) = false := by
  simp only [Device.reaches, Device.tagFreeFor, Bool.and_eq_true, Bool.not_eq_true', decide_eq_true_eq] at h
  obtain ⟨⟨⟨⟨hup, hfree⟩, hsup⟩, htr⟩, ⟨⟨hord, hq⟩, hw⟩, htag⟩ := h
  exact ⟨hup, hfree, hsup, htr, hord, by simp [Device.noTag, hq, hw, htag]⟩

/-- A core's write of an aligned register of a block it reaches, where the domain check finds nothing, stores at once and is
answered OK (R18). -/
theorem Device.regWrite_of_reaches {d : Device} {c : Fin 4} {a : Nat} {v : Word} (hblk : blocks.elem (blkOf a) = true)
    (hal : a % 4 = 0) (h : d.reaches (.core c) (blkOf a) = true) (hdom : d.regDom (.core c) a true v = none) :
    d.regWrite (.core c) a v = (d.regStore (.core c) a v).writeDone (.core c) .ok := by
  obtain ⟨hup, hfree, -, -, hord, htag⟩ := Device.reaches_facts h
  have hput : d.putReg (d.reqOf (.core c)) (.core c) a v = (d.regStore (.core c) a v, .ok 0) := by
    rw [Device.regDom] at hdom
    simp only [Device.putReg, hblk, hdom, hal, hfree, Bool.not_true, Bool.false_eq_true, ne_eq, not_true, if_false]
  simp [Device.regWrite, Device.levelBars, Device.issue, Device.grant, Device.putGo, Device.answered, respOf, hup, hord,
    htag, hput]

/-! ### The doorbell (R575) -/

/-- The address of INTC_DOORBELL[k] (R578). -/
def aDoorbell (k : Fin 4) : Nat := bINTC + 0x60 + 4 * k.val

theorem blkOf_aDoorbell (k : Fin 4) : blkOf (aDoorbell k) = bINTC := by
  revert k; decide

theorem aDoorbell_mod_four (k : Fin 4) : aDoorbell k % 4 = 0 := by
  revert k; decide

theorem aDoorbell_offset (k : Fin 4) : aDoorbell k % 0x10000 = 0x60 + 4 * k.val := by
  revert k; decide

theorem regOffset_aDoorbell (k : Fin 4) : regOffset (aDoorbell k) = 0x60 + 4 * k.val := by
  revert k; decide

/-- No register of the sets lies at a doorbell (R577). -/
theorem isSet_aDoorbell (k : Fin 4) : isSet (aDoorbell k) = false := by
  revert k; decide

/-- The sources of the doorbells are edge sources (R554, R575). -/
theorem isLevelSrc_doorbell (k : Fin 4) : isLevelSrc (177 + k.val) = false := by
  revert k; decide

/-- A request of the trusted domain passes the checks of a doorbell, whatever TRUST of its source is (R575). -/
theorem Device.intcDom_doorbell (d : Device) (who : Who) {r : Req} (k : Fin 4) (v : Word) (h : r.trusted = true) :
    d.intcDom who r (0x60 + 4 * k.val) true v = none := by
  have hk := k.isLt
  unfold Device.intcDom
  rw [if_neg (by simp), if_neg (by simp), if_neg (by omega), if_neg (by omega), if_pos (by omega)]
  simp [trustFail, h]

/-- A write of a doorbell raises source 177 + k where bit 0 is 1 (R575). -/
theorem Device.intcPut_doorbell (d : Device) (k : Fin 4) (v : Word) :
    d.intcPut (0x60 + 4 * k.val) v = some (d.raiseIf (wb v 0) (177 + k.val)) := by
  have hk := k.isLt
  unfold Device.intcPut
  rw [if_neg (by omega), if_neg (by omega), if_pos (by omega), show (0x60 + 4 * k.val - 0x60) / 4 = k.val by omega]

/-- The domain check lets the doorbell of a core that reaches the controller pass. -/
theorem Device.regDom_doorbell {d : Device} {c : Fin 4} (k : Fin 4) (v : Word) (h : d.reaches (.core c) bINTC = true) :
    d.regDom (.core c) (aDoorbell k) true v = none := by
  obtain ⟨-, -, hsup, htr, -, -⟩ := Device.reaches_facts h
  simp only [Device.regDom, Device.reqDom, blkOf_aDoorbell, regOffset_aDoorbell, hsup,
    Device.intcDom_doorbell d (.core c) k v htr]
  rfl

theorem Device.regStore_doorbell (d : Device) (who : Who) (k : Fin 4) (v : Word) :
    d.regStore who (aDoorbell k) v = d.raiseIf (wb v 0) (177 + k.val) := by
  have haddr : bINTC + (0x60 + 4 * k.val) = aDoorbell k := (Nat.add_assoc ..).symm
  have hroute : d.ofLockedRoute (aDoorbell k) = false := by
    simp [Device.ofLockedRoute, blkOf_aDoorbell, bINTC, bEVR]
  have hunit : d.unitWrite who bINTC (0x60 + 4 * k.val) v = d.intcPut (0x60 + 4 * k.val) v := rfl
  simp only [Device.regStore, blkOf_aDoorbell, regOffset_aDoorbell, aDoorbell_offset, haddr, hroute, isSet_aDoorbell, hunit,
    Device.intcPut_doorbell, Bool.false_and, Bool.false_eq_true, if_false]

/-- A doorbell of a core that reaches the controller raises its source where bit 0 is 1, and is answered OK (R575). -/
theorem exec_doorbell_of_reaches {s : State} {c : Fin 4} (k : Fin 4) (v : Word) (h : s.dev.reaches (.core c) bINTC = true) :
    exec (.doorbell (.core c) k v) s = s.wrote (.core c) (fun d => d.raiseIf (wb v 0) (177 + k.val)) := by
  have hw : s.dev.regWrite (.core c) (aDoorbell k) v = _ :=
    Device.regWrite_of_reaches (by rw [blkOf_aDoorbell]; decide) (aDoorbell_mod_four k)
      (by rw [blkOf_aDoorbell]; exact h) (Device.regDom_doorbell k v h)
  rw [Device.regStore_doorbell] at hw
  exact congrArg (fun d => Host.Outcome.next { s with dev := d }) hw

/-! ### Reservations withdrawn in the tick (R566, R584) -/

/-- A map of a table's present values, each with its key, shows in what is read. -/
theorem Tab.get_map_keyed {α : Type} (f : Nat → α → α) (t : Tab (Option α)) (k : Nat) :
    Tab.get (fun _ => none) (t.map (fun x => (x.1, x.2.map (f x.1)))) k = (Tab.get (fun _ => none) t k).map (f k) := by
  induction t with
  | nil => rfl
  | cons e t ih =>
    obtain ⟨j, v⟩ := e
    by_cases hj : j = k
    · simp [Tab.get, hj]
    · simpa [Tab.get, hj] using ih

/-- What a raise of source `i` makes of a reservation `r` of core `c` (R566, R584). -/
def Device.restored (d : Device) (i c : Nat) (r : Reserve) : Reserve :=
  if decide (r.src = i) && (d.here.gone.any (fun x => decide (x.1 = c) && x.2.2) && decide (d.prio i ≠ 0) &&
    wb (d.scfg i) (8 + c)) then { r with withdrawn := false } else r

theorem Device.resvOf_unwithdraw (d : Device) (i c : Nat) :
    (d.unwithdraw i).resvOf c = (d.resvOf c).map (d.restored i c) :=
  Tab.get_map_keyed (d.restored i) d.intc.resv c

/-- The reservation of source `i` for core `c` was withdrawn in this tick while the source could still be delivered to `c`, and
it still can be: PRIO is not 0 and TGT names `c`. -/
structure Device.WithdrawnHere (d : Device) (c i : Nat) : Prop where
  resv : d.resvOf c = some ⟨i, true⟩
  gone : d.here.gone.any (fun x => decide (x.1 = c) && x.2.2) = true
  prio : d.prio i ≠ 0
  target : wb (d.scfg i) (8 + c) = true

/-- Such a reservation stands again once its source is raised (R584). -/
theorem Device.WithdrawnHere.unwithdraw {d : Device} {c i : Nat} (h : d.WithdrawnHere c i) :
    (d.unwithdraw i).resvOf c = some ⟨i, false⟩ := by
  simp [Device.resvOf_unwithdraw, Device.restored, h.resv, h.gone, h.prio, h.target]

/-- Raising an edge source restores its reservation withdrawn in the tick (R566, R584). -/
theorem Device.WithdrawnHere.raiseIrq {d : Device} {c i : Nat} (h : d.WithdrawnHere c i) (hi : 1 ≤ i ∧ i ≤ 192)
    (he : isLevelSrc i = false) : (d.raiseIrq i).resvOf c = some ⟨i, false⟩ := by
  have hhere : (d.note (fun x => { x with irqs := x.irqs ||| BitVec.twoPow 193 i })).here =
      { d.here with irqs := d.here.irqs ||| BitVec.twoPow 193 i } := Device.here_note d _ rfl
  have hgone := (congrArg (fun x => x.gone.any (fun y => decide (y.1 = c) && y.2.2)) hhere).trans h.gone
  unfold Device.raiseIrq
  rw [if_pos ⟨hi.1, hi.2, he⟩]
  exact Device.WithdrawnHere.unwithdraw ⟨h.resv, hgone, h.prio, h.target⟩

/-- A doorbell in the tick in which its source's reservation was withdrawn restores the reservation (R575, R584). -/
theorem resvOf_of_exec_doorbell {s t : State} {c k : Fin 4} {c' : Nat} {v : Word}
    (ht : exec (.doorbell (.core c) k v) s = .next t) (h : s.dev.reaches (.core c) bINTC = true) (hv : wb v 0 = true)
    (hw : s.dev.WithdrawnHere c' (177 + k.val)) :
    t.dev.resvOf c' = some ⟨177 + k.val, false⟩ := by
  have hk := k.isLt
  rw [exec_doorbell_of_reaches k v h, State.wrote, Host.Outcome.next.injEq] at ht
  subst ht
  rw [← hw.raiseIrq (by omega) (isLevelSrc_doorbell k)]
  simp only [State.on, Device.raiseIf, hv, if_true]
  rfl

/-! ### A doorbell in the tick of its source's PCLR -/

/-- Source 177, of PRIO 5 and for every core, is pending and reserved for core 0. -/
def doorbellReserved : Device :=
  { State.reset.dev.setLv (aScfg 177) 0xF05 with
    rst := { State.reset.dev.rst with phase := .run }
    intc := { State.reset.dev.intc with pend := BitVec.twoPow 193 177, resv := [(0, some ⟨177, false⟩)] } }

/-- Core 0 has then cleared the pending state of source 177: the reservation is withdrawn (R558, R566). -/
def doorbellWithdrawn : Device := (doorbellReserved.scfgWrite 177 0x20F05).writeDone (.core 0) .ok

/-- The command PCLR leads there. -/
theorem exec_interruptPclr_doorbellReserved :
    exec (.interruptPclr (.core 0) 177) { dev := doorbellReserved, pending := [] } =
      .next { dev := doorbellWithdrawn, pending := [] } := by
  have hw : doorbellReserved.regWrite (.core 0) (aScfg 177) 0x20F05 = doorbellWithdrawn :=
    Device.regWrite_of_reaches (by decide) (by decide) (by decide) (by decide)
  exact congrArg (fun d => Host.Outcome.next (⟨d, []⟩ : State)) hw

theorem doorbellWithdrawn_withdrawnHere : doorbellWithdrawn.WithdrawnHere 0 177 where
  resv := by decide
  gone := by decide
  prio := by decide
  target := by decide

/-- Refutes O39: a doorbell in the tick in which a PCLR withdrew the reservation of its source restores the reservation (R566,
R584), where the statement has it change nothing of the controller but the pending bit. -/
theorem not_interruptCommands : ¬ Obligations.InterruptCommands := by
  intro h
  have hreach : doorbellWithdrawn.reaches (.core 0) bINTC = true := by decide
  obtain ⟨-, -, -, -, -, -, -, hbell, -⟩ := h { dev := doorbellWithdrawn, pending := [] } 0 177 0 1 hreach
  obtain ⟨d, hexec, hd⟩ := hbell (by decide)
  have hrestored : d.resvOf 0 = some ⟨177, false⟩ :=
    resvOf_of_exec_doorbell hexec hreach (by decide) doorbellWithdrawn_withdrawnHere
  have hkept : d.intc.resv = doorbellWithdrawn.intc.resv := congrArg (fun x => x.intc.resv) hd
  rw [Device.resvOf, hkept, ← Device.resvOf, doorbellWithdrawn_withdrawnHere.resv] at hrestored
  cases hrestored

end Sys2Proof.Machine
end

section
/-! A read of a register that its checks let through (R18), the registers of the queues (R628), and what pushes, pops, peeks and
configuration writes do to them (R596 to R608). -/
namespace Sys2Proof.Machine

/-! ### Register reads that complete -/

/-- The data an access ends with: none but where it is carried out (R16). -/
def Acc.data : Acc → Word
  | .ok v => v
  | _ => 0

/-- A core's read of an aligned register of a block it reaches, where the domain check finds nothing, completes at once with
what the register gives (R18). -/
theorem Device.regRead_of_reaches {d d' : Device} {c : Fin 4} {a : Nat} {x : Acc} (hblk : blocks.elem (blkOf a) = true)
    (hal : a % 4 = 0) (h : d.reaches (.core c) (blkOf a) = true) (hdom : d.regDom (.core c) a false 0 = none)
    (hload : d.regLoad (.core c) a = (d', x)) (hx : x ≠ .wait) :
    d.regRead (.core c) a = d'.answer (.core c) x.data (respOf x) := by
  obtain ⟨hup, hfree, -, -, hord, htag⟩ := Device.reaches_facts h
  have hget : d.getReg (d.reqOf (.core c)) (.core c) a = (d', x) := by
    rw [Device.regDom] at hdom
    simp only [Device.getReg, hblk, hdom, hal, hfree, hload, Bool.not_true, Bool.false_eq_true, ne_eq, not_true, if_false]
  have hgo (w : Wait) (hw : w.who = .core c) (ha : w.addr = a) (hr : w.req = d.reqOf (.core c)) (hp : w.put = none)
      (he : w.eng = false) : d.getGo w = d'.answer (.core c) x.data (respOf x) := by
    simp only [Device.getGo, hw, ha, hr, hget]
    cases x with
    | wait => exact absurd rfl hx
    | ok v | bus sub | dom sub => simp [Device.answered, he, hp, hw, Acc.data, respOf]
  simp [Device.regRead, Device.levelBars, Device.issue, Device.grant, hup, hord, htag, hgo]

/-- What an initiator's read returned is what it was answered. -/
@[simp] theorem Device.got_answer (d : Device) (who : Who) (v : Word) (r : Resp) : (d.answer who v r).got who = (v, r) := by
  simp [Device.got, Device.answer]

/-! ### The registers of a queue (R628) -/

/-- The register at `i` among those of queue `q`: 0x00 QUE_PUSH, 0x04 QUE_POP, 0x08 QUE_PEEK, 0x10 QUE_CFG. -/
def aQue (i : Nat) (q : Fin 32) : Nat := bQUE + (0x100 + i) + 0x20 * q.val

section
variable {i : Nat} (hi : i < 0x20) (q : Fin 32)
include hi

theorem aQue_offset : aQue i q % 0x10000 = 0x100 + i + 0x20 * q.val := by
  have := q.isLt
  unfold aQue bQUE
  omega

theorem blkOf_aQue : blkOf (aQue i q) = bQUE := by
  rw [blkOf, aQue_offset hi, aQue]
  omega

/-- No register of the sets lies in the block of the queues (R628). -/
theorem isSet_aQue : isSet (aQue i q) = false := by
  simp only [isSet, setWord, blkOf_aQue hi]
  rfl

theorem queOffset_div : (0x100 + i + 0x20 * q.val - 0x100) / 0x20 = q.val := by omega

theorem queOffset_mod : (0x100 + i + 0x20 * q.val) % 0x20 = i := by omega

theorem regOffset_aQue (h4 : i % 4 = 0) : regOffset (aQue i q) = 0x100 + i + 0x20 * q.val := by
  have hq := q.isLt
  have hal : aQue i q % 4 = 0 := by unfold aQue bQUE; omega
  unfold regOffset
  simp only [hal, Nat.sub_zero, aQue_offset hi]
  rw [if_neg (by omega)]

/-- A request to a queue's register passes the domain check that the block of the queues makes. -/
theorem Device.regDom_aQue {d : Device} {c : Fin 4} (h4 : i % 4 = 0) (wr : Bool) (v : Word)
    (h : d.reaches (.core c) bQUE = true) :
    d.regDom (.core c) (aQue i q) wr v = d.queDom (.core c) (d.reqOf (.core c)) (0x100 + i + 0x20 * q.val) wr := by
  obtain ⟨-, -, hsup, -, -, -⟩ := Device.reaches_facts h
  simp only [Device.regDom, Device.reqDom, blkOf_aQue hi, regOffset_aQue hi q h4, hsup]
  rfl

/-- A write of a queue's register with a home of its own does what the block of the queues does. -/
theorem Device.regStore_aQue {d d' : Device} {who : Who} {v : Word} (h4 : i % 4 = 0)
    (hput : d.quePut (0x100 + i + 0x20 * q.val) v = some d') : d.regStore who (aQue i q) v = d' := by
  have haddr : bQUE + (0x100 + i + 0x20 * q.val) = aQue i q := (Nat.add_assoc ..).symm
  have hroute : d.ofLockedRoute (aQue i q) = false := by
    simp [Device.ofLockedRoute, blkOf_aQue hi, bQUE, bEVR]
  have hunit : d.unitWrite who bQUE (0x100 + i + 0x20 * q.val) v = some d' := hput
  simp only [Device.regStore, blkOf_aQue hi, regOffset_aQue hi q h4, aQue_offset hi, haddr, hroute, isSet_aQue hi, hunit,
    Bool.false_and, Bool.false_eq_true, if_false]

/-- A read of a queue's register with an effect gives what the effect gives. -/
theorem Device.regLoad_aQue {d : Device} {who : Who} {r : Device × Acc}
    (heff : d.effectRead who bQUE (0x100 + i + 0x20 * q.val) = some r) : d.regLoad who (aQue i q) = r := by
  have hq := q.isLt
  have hview : ¬ 0x8000 ≤ 0x100 + i + 0x20 * q.val := by omega
  simp [Device.regLoad, blkOf_aQue hi, aQue_offset hi, isSet_aQue hi, hview, heff]

end

/-- A push, a pop and a peek are uses: a request of the trusted domain passes their check, whatever TRUST of its queue is
(R539, R540). -/
theorem Device.queDom_use (d : Device) {i : Nat} (q : Fin 32) (c : Fin 4) {r : Req} {wr : Bool}
    (hu : i = 0x00 ∧ wr = true ∨ i = 0x04 ∧ wr = false ∨ i = 0x08 ∧ wr = false) (h : r.trusted = true) :
    d.queDom (.core c) r (0x100 + i + 0x20 * q.val) wr = none := by
  have hq := q.isLt
  have htrust (own : Word) : trustFail own r = none := by simp [trustFail, h]
  unfold Device.queDom
  rw [if_neg (by omega), if_neg (by omega), queOffset_div (by omega), queOffset_mod (by omega)]
  obtain ⟨rfl, rfl⟩ | ⟨rfl, rfl⟩ | ⟨rfl, rfl⟩ := hu <;> exact htrust _

/-- A write of QUE_CFG is checked as a configuration write of its queue (R539). -/
theorem Device.queDom_queCfg (d : Device) (q : Fin 32) (who : Who) (r : Req) :
    d.queDom who r (0x100 + 0x10 + 0x20 * q.val) true = ownFail (d.lv (aQueOwn q)) who r := by
  have hq := q.isLt
  unfold Device.queDom
  rw [if_neg (by omega), if_neg (by omega), queOffset_div (by omega), queOffset_mod (by omega)]
  rfl

theorem Device.quePut_quePush (d : Device) (q : Fin 32) (v : Word) :
    d.quePut (0x100 + 0 + 0x20 * q.val) v = some (d.quePush q v).1 := by
  have hq := q.isLt
  unfold Device.quePut
  rw [if_pos (by omega), queOffset_div (by omega)]

theorem Device.quePut_queCfg (d : Device) (q : Fin 32) (v : Word) :
    d.quePut (0x100 + 0x10 + 0x20 * q.val) v = some (d.queCfgWrite q v) := by
  have hq := q.isLt
  unfold Device.quePut Device.queWrite
  rw [if_neg (by omega), if_neg (by omega), queOffset_div (by omega), queOffset_mod (by omega)]
  rfl

theorem Device.effectRead_quePop (d : Device) (who : Who) (q : Fin 32) :
    d.effectRead who bQUE (0x100 + 4 + 0x20 * q.val) = some (d.popReg who q) := by
  have hq := q.isLt
  unfold Device.effectRead
  rw [if_neg (by decide), if_pos (by omega), queOffset_div (by omega)]

theorem Device.effectRead_quePeek (d : Device) (who : Who) (q : Fin 32) :
    d.effectRead who bQUE (0x100 + 8 + 0x20 * q.val) = some (d.peekReg who q) := by
  have hq := q.isLt
  unfold Device.effectRead
  rw [if_neg (by decide), if_neg (by omega), if_pos (by omega), queOffset_div (by omega)]

/-! ### The commands of a core that reaches the block -/

/-- A core's write of a queue's register that its check lets through does what the block of the queues does. -/
theorem Device.regWrite_aQue {d d' : Device} {c : Fin 4} {i : Nat} {q : Fin 32} {v : Word} (hi : i < 0x20) (h4 : i % 4 = 0)
    (h : d.reaches (.core c) bQUE = true)
    (hdom : d.queDom (.core c) (d.reqOf (.core c)) (0x100 + i + 0x20 * q.val) true = none)
    (hput : d.quePut (0x100 + i + 0x20 * q.val) v = some d') :
    d.regWrite (.core c) (aQue i q) v = d'.writeDone (.core c) .ok := by
  have hal : aQue i q % 4 = 0 := by unfold aQue bQUE; omega
  rw [Device.regWrite_of_reaches (by rw [blkOf_aQue hi]; rfl) hal (by rwa [blkOf_aQue hi])
    (by rwa [Device.regDom_aQue hi q h4 true v h]), Device.regStore_aQue hi q h4 hput]

/-- A core's read of a queue's register with an effect is answered by it. -/
theorem Device.regRead_aQue {d d' : Device} {c : Fin 4} {i : Nat} {q : Fin 32} {x : Acc}
    (hu : i = 0x04 ∨ i = 0x08) (h : d.reaches (.core c) bQUE = true)
    (heff : d.effectRead (.core c) bQUE (0x100 + i + 0x20 * q.val) = some (d', x)) (hx : x ≠ .wait) :
    d.regRead (.core c) (aQue i q) = d'.answer (.core c) x.data (respOf x) := by
  obtain ⟨-, -, -, htr, -, -⟩ := Device.reaches_facts h
  have hi : i < 0x20 := by omega
  have hal : aQue i q % 4 = 0 := by unfold aQue bQUE; omega
  have hdom : d.regDom (.core c) (aQue i q) false 0 = none := by
    rw [Device.regDom_aQue hi q (by omega) false 0 h]
    exact d.queDom_use q c (by simpa using hu) htr
  exact Device.regRead_of_reaches (by rw [blkOf_aQue hi]; rfl) hal (by rwa [blkOf_aQue hi]) hdom
    (Device.regLoad_aQue hi q heff) hx

section
variable {s : State} {c : Fin 4} (q : Fin 32) (h : s.dev.reaches (.core c) bQUE = true)
include h

theorem exec_quePush_of_reaches {v : Word} {d : Device} (hpush : (s.dev.quePush q v).1 = d) :
    exec (.quePush (.core c) q v) s = s.wrote (.core c) (fun _ => d) := by
  obtain ⟨-, -, -, htr, -, -⟩ := Device.reaches_facts h
  have hw : s.dev.regWrite (.core c) (aQue 0 q) v = _ :=
    Device.regWrite_aQue (by decide) (by decide) h (s.dev.queDom_use q c (by simp) htr)
      ((s.dev.quePut_quePush q v).trans (congrArg some hpush))
  exact congrArg (fun d => Host.Outcome.next ({ s with dev := d } : State)) hw

theorem exec_queueConfig_of_reaches {v : Word} {d : Device}
    (hown : ownFail (s.dev.lv (aQueOwn q)) (.core c) (s.dev.reqOf (.core c)) = none) (hcfg : s.dev.queCfgWrite q v = d) :
    exec (.queueConfig (.core c) q v) s = s.wrote (.core c) (fun _ => d) := by
  have hw : s.dev.regWrite (.core c) (aQue 0x10 q) v = _ :=
    Device.regWrite_aQue (by decide) (by decide) h ((s.dev.queDom_queCfg q _ _).trans hown)
      ((s.dev.quePut_queCfg q v).trans (congrArg some hcfg))
  exact congrArg (fun d => Host.Outcome.next ({ s with dev := d } : State)) hw

theorem exec_quePop_of_reaches {d : Device} {x : Acc} (hpop : s.dev.popReg (.core c) q = (d, x)) (hx : x ≠ .wait) :
    exec (.quePop (.core c) q) s = .next { s with dev := d.answer (.core c) x.data (respOf x) } := by
  have hr : s.dev.regRead (.core c) (aQue 4 q) = _ :=
    Device.regRead_aQue (.inl rfl) h ((s.dev.effectRead_quePop _ q).trans (congrArg some hpop)) hx
  exact congrArg (fun d => Host.Outcome.next ({ s with dev := d } : State)) hr

theorem exec_quePeek_of_reaches {d : Device} {x : Acc} (hpeek : s.dev.peekReg (.core c) q = (d, x)) (hx : x ≠ .wait) :
    exec (.quePeek (.core c) q) s = .next { s with dev := d.answer (.core c) x.data (respOf x) } := by
  have hr : s.dev.regRead (.core c) (aQue 8 q) = _ :=
    Device.regRead_aQue (.inr rfl) h ((s.dev.effectRead_quePeek _ q).trans (congrArg some hpeek)) hx
  exact congrArg (fun d => Host.Outcome.next ({ s with dev := d } : State)) hr

end

/-! ### Bits of words -/

theorem wb_or (x y : Word) (i : Nat) : wb (x ||| y) i = (wb x i || wb y i) := BitVec.getLsbD_or

theorem wb_and (x y : Word) (i : Nat) : wb (x &&& y) i = (wb x i && wb y i) := BitVec.getLsbD_and

theorem wb_bitW {i : Nat} (hi : i < 32) : wb (bitW i) i = true := by
  rw [wb, bitW, wd, BitVec.getLsbD_ofNat, Nat.testBit_two_pow_self, decide_eq_true hi, Bool.and_self]

/-- A bit that is cleared reads 0. -/
theorem wb_setB_false (w : Word) {i : Nat} (hi : i < 32) : wb (setB w i false) i = false := by
  have := wb_bitW hi
  simp only [wb] at this
  simp [wb, setB, this]

/-! ### What leaves the queues alone -/

theorem Device.queC_of_que_eq {d d' : Device} (h : d'.que = d.que) (j : Nat) : d'.queC j = d.queC j := by
  rw [Device.queC, h, Device.queC]

@[simp] theorem Device.queC_raiseIf (d : Device) (b : Bool) (n j : Nat) : (d.raiseIf b n).queC j = d.queC j :=
  Device.queC_of_que_eq (d.raiseIf_que b n) j

@[simp] theorem Device.queC_raiseIrq (d : Device) (n j : Nat) : (d.raiseIrq n).queC j = d.queC j :=
  Device.queC_of_que_eq (d.raiseIrq_que n) j

@[simp] theorem Device.queC_hwFlag (d : Device) (a : Nat) (b : Word) (j : Nat) : (d.hwFlag a b).queC j = d.queC j := rfl

@[simp] theorem Device.queC_answer (d : Device) (who : Who) (v : Word) (r : Resp) (j : Nat) :
    (d.answer who v r).queC j = d.queC j := rfl

@[simp] theorem Device.queC_writeDone (d : Device) (who : Who) (r : Resp) (j : Nat) :
    (d.writeDone who r).queC j = d.queC j := rfl

@[simp] theorem Device.queC_countCe (d : Device) (k a j : Nat) : (d.countCe k a).queC j = d.queC j :=
  Device.queC_raiseIf ..

@[simp] theorem Device.queC_countUe (d : Device) (k a i n j : Nat) : (d.countUe k a i n).queC j = d.queC j :=
  Device.queC_raiseIrq ..

/-! ### Flags (R609, R610) -/

@[simp] theorem Device.queC_queFlag (d : Device) (q : Nat) (b : Word) :
    (d.queFlag q b).queC q = { d.queC q with flags := (d.queC q).flags ||| b } := by
  simp [Device.queFlag]

theorem Device.queC_queFlag_ne (d : Device) {q j : Nat} (b : Word) (h : j ≠ q) : (d.queFlag q b).queC j = d.queC j := by
  simp [Device.queFlag, Device.queC_setQue_ne _ _ h]

theorem Device.wb_flags_queFlag (d : Device) (q : Nat) {b : Word} {i : Nat} (h : wb b i = true) :
    wb ((d.queFlag q b).queC q).flags i = true := by
  rw [Device.queC_queFlag, wb_or, h, Bool.or_true]

/-- A dropped push sets OVER, and OFF for a disabled queue (R602, R603). -/
theorem wb_overFlags (off : Bool) :
    wb (0x10000 ||| boolW off 20) 16 = true ∧ (off = true → wb (0x10000 ||| boolW off 20) 20 = true) := by
  revert off; decide

/-- A pop that finds nothing sets UNDER, and OFF for a disabled queue (R602, R603). -/
theorem wb_underFlags (off : Bool) :
    wb (0x20000 ||| boolW off 20) 17 = true ∧ (off = true → wb (0x20000 ||| boolW off 20) 20 = true) := by
  revert off; decide

/-! ### Pushes (R601 to R603) -/

/-- A push to an enabled queue that is not full appends the word, and sets only flags of the queue (R601, R609). -/
theorem Device.quePush_of_room {d : Device} {q : Nat} (v : Word) (hen : (d.queC q).en = true)
    (hroom : (d.queC q).words.length < (d.queC q).cap) :
    ∃ (p : Device) (b : Word), (d.quePush q v).1 = p.queFlag q b ∧
      p.queC q = { d.queC q with words := (d.queC q).words ++ [v] } ∧ ∀ j, j ≠ q → p.queC j = d.queC j := by
  have hfull : (!(d.queC q).en || decide ((d.queC q).cap ≤ (d.queC q).words.length)) = false := by
    simp [hen, hroom]
  simp only [Device.quePush, hfull]
  exact ⟨_, _, rfl, Device.queC_setQue .., fun j hj => Device.queC_setQue_ne _ _ hj⟩

/-- A push to a full or disabled queue is dropped, counted and flagged (R602, R603). -/
theorem Device.quePush_of_dropped {d : Device} {q : Nat} (v : Word)
    (h : (d.queC q).en = false ∨ (d.queC q).cap ≤ (d.queC q).words.length) :
    (d.quePush q v).1 = (d.setQue q { d.queC q with overs := satInc 16 (d.queC q).overs }).queFlag q
      (0x10000 ||| boolW (!(d.queC q).en) 20) := by
  have hdrop : (!(d.queC q).en || decide ((d.queC q).cap ≤ (d.queC q).words.length)) = true := by
    simpa using h
  simp only [Device.quePush, hdrop, if_true]

/-! ### Pops and peeks (R601 to R603, R608) -/

section
variable {d : Device} {q : Nat}

/-- The word at the head of an enabled queue is what a pop removes. -/
theorem Device.quePop_of_word {w : Word} {l : List Word} (hen : (d.queC q).en = true) (hw : (d.queC q).words = w :: l) :
    ∃ p, d.quePop q = (p, w) ∧ (p.queC q).words = l := by
  simp only [Device.quePop, hen, hw]
  exact ⟨_, rfl, by simp⟩

theorem Device.quePeek_of_word {w : Word} {l : List Word} (hen : (d.queC q).en = true) (hw : (d.queC q).words = w :: l) :
    d.quePeek q = w := by
  simp only [Device.quePeek, hen, hw]

theorem Device.queHas_of_word {w : Word} {l : List Word} (hen : (d.queC q).en = true) (hw : (d.queC q).words = w :: l) :
    d.queHas q = true := by
  simp [Device.queHas, hen, hw]

/-- A pop of an empty or disabled queue is counted and flagged (R602, R603). -/
theorem Device.quePop_of_nothing (h : (d.queC q).en = false ∨ (d.queC q).words = []) :
    d.quePop q = ((d.setQue q { d.queC q with unders := satInc 16 (d.queC q).unders }).queFlag q
      (0x20000 ||| boolW (!(d.queC q).en) 20), d.lv (aQueEw q)) := by
  unfold Device.quePop
  dsimp only
  split
  next hen hw => simp [hen, hw] at h
  next => rfl

theorem Device.quePeek_of_nothing (h : (d.queC q).en = false ∨ (d.queC q).words = []) :
    d.quePeek q = d.lv (aQueEw q) := by
  unfold Device.quePeek
  split
  next hen hw => simp [hen, hw] at h
  next => rfl

theorem Device.queHas_of_nothing (h : (d.queC q).en = false ∨ (d.queC q).words = []) : d.queHas q = false := by
  rw [Device.queHas]
  rcases h with hen | hw
  · rw [hen, Bool.false_and]
  · rw [hw, List.isEmpty_nil, Bool.not_true, Bool.and_false]

/-- The ECC check of the word at the head changes no queue. -/
@[simp] theorem Device.queC_queWordCheck (d : Device) (q i j : Nat) : (d.queWordCheck q i).1.queC j = d.queC j := by
  unfold Device.queWordCheck
  dsimp only
  split <;> simp

/-- A good word passes the ECC check as it is. -/
theorem Device.queWordCheck_of_good {i : Nat} (h : d.queEcc q = .good) : d.queWordCheck q i = (d, false) := by
  simp only [Device.queWordCheck, h]

/-- The ECC check finds the word not correctable just where it is so (R608). -/
theorem Device.queWordCheck_snd (d : Device) (q i : Nat) : (d.queWordCheck q i).2 = decide (d.queEcc q = .bad) := by
  unfold Device.queWordCheck
  dsimp only
  split <;> simp [*]

/-- Counting a correction changes no word's ECC state. -/
@[simp] theorem Device.eccOf_countCe (d : Device) (k a j : Nat) : (d.countCe k a).eccOf j = d.eccOf j := by
  simp [Device.countCe, Device.eccOf]

/-- The ECC check corrects a word with one wrong bit (R669). -/
theorem Device.queEcc_queWordCheck {i : Nat} (h : d.queEcc q = .single) : (d.queWordCheck q i).1.queEcc q = .good := by
  have hcheck : (d.queWordCheck q i).1 =
      (d.setEcc (queEccKey ((d.queC q).ramWord 0)) .good).countCe 4 ((d.queC q).ramWord 0) := by
    simp only [Device.queWordCheck, h]
  have hecc (x : Device) : x.queEcc q = x.eccOf (queEccKey ((x.queC q).ramWord 0)) := rfl
  rw [hcheck, hecc, Device.eccOf_countCe, Device.queC_countCe, Device.queC_setEcc, Device.eccOf_setEcc]

variable {who : Who}

/-- A read of QUE_POP returns and removes the word at the head where its ECC allows (R601). -/
theorem Device.popReg_of_readable {w : Word} {l : List Word} (hen : (d.queC q).en = true)
    (hw : (d.queC q).words = w :: l) (hecc : d.queEcc q ≠ .bad) :
    ∃ p, d.popReg who q = (p, .ok w) ∧ (p.queC q).words = l := by
  obtain ⟨p, hpop, hl⟩ := Device.quePop_of_word (d := (d.queWordCheck q (whoIdx who)).1) (q := q) (by simpa using hen)
    (by simpa using hw)
  refine ⟨p, ?_, hl⟩
  simp [Device.popReg, Device.popBy, Device.queHas_of_word hen hw, Device.queWordCheck_snd, hecc, hpop]

/-- A read of QUE_POP that meets a word that is not correctable removes it and flags it, with a bus error (R608). -/
theorem Device.popReg_of_bad {w : Word} {l : List Word} (hen : (d.queC q).en = true)
    (hw : (d.queC q).words = w :: l) (hecc : d.queEcc q = .bad) :
    ∃ p : Device, d.popReg who q = (p.queFlag q 0x80000, .bus 2) ∧ (p.queC q).words = l := by
  obtain ⟨p, hpop, hl⟩ := Device.quePop_of_word (d := (d.queWordCheck q (whoIdx who)).1) (q := q) (by simpa using hen)
    (by simpa using hw)
  refine ⟨p, ?_, hl⟩
  simp [Device.popReg, Device.popBy, Device.queHas_of_word hen hw, Device.queWordCheck_snd, hecc, hpop]

/-- A read of QUE_POP of an empty or disabled queue returns QUE_EMPTYWORD, is counted and flagged (R602, R603). -/
theorem Device.popReg_of_nothing (h : (d.queC q).en = false ∨ (d.queC q).words = []) :
    d.popReg who q = ((d.setQue q { d.queC q with unders := satInc 16 (d.queC q).unders }).queFlag q
      (0x20000 ||| boolW (!(d.queC q).en) 20), .ok (d.lv (aQueEw q))) := by
  simp [Device.popReg, Device.popBy, Device.queHas_of_nothing h, Device.quePop_of_nothing h]

/-- A read of QUE_PEEK returns the word at the head where its ECC allows, and changes nothing but that ECC (R601, R669). -/
theorem Device.peekReg_of_readable {w : Word} {l : List Word} (hen : (d.queC q).en = true)
    (hw : (d.queC q).words = w :: l) (hecc : d.queEcc q ≠ .bad) :
    d.peekReg who q = ((d.queWordCheck q (whoIdx who)).1, .ok w) := by
  have hpeek : (d.queWordCheck q (whoIdx who)).1.quePeek q = w :=
    Device.quePeek_of_word (l := l) (by simpa using hen) (by simpa using hw)
  simp [Device.peekReg, Device.queHas_of_word hen hw, Device.queWordCheck_snd, hecc, hpeek]

/-- A read of QUE_PEEK that meets a word that is not correctable keeps it and flags it, with a bus error (R608). -/
theorem Device.peekReg_of_bad {w : Word} {l : List Word} (hen : (d.queC q).en = true)
    (hw : (d.queC q).words = w :: l) (hecc : d.queEcc q = .bad) :
    d.peekReg who q = ((d.queWordCheck q (whoIdx who)).1.queFlag q 0x80000, .bus 2) := by
  simp [Device.peekReg, Device.queHas_of_word hen hw, Device.queWordCheck_snd, hecc]

/-- A read of QUE_PEEK of an empty or disabled queue returns QUE_EMPTYWORD and changes nothing (R602). -/
theorem Device.peekReg_of_nothing (h : (d.queC q).en = false ∨ (d.queC q).words = []) :
    d.peekReg who q = (d, .ok (d.lv (aQueEw q))) := by
  simp [Device.peekReg, Device.queHas_of_nothing h, Device.quePeek_of_nothing h]

/-! ### Configuration writes (R597 to R599) -/

/-- EN is a bit that a write of QUE_CFG stores. -/
theorem wb_queCfg_en (v : Word) : wb (v &&& 0x03FF81FF) 15 = wb v 15 := by
  rw [wb_and, show wb 0x03FF81FF 15 = true by decide, Bool.and_true]

variable {v : Word}

theorem Device.queCfgWrite_of_enable (hen : (d.queC q).en = false) (hv : wb v 15 = true)
    (hfit : d.queClash q (v &&& 0x03FF81FF) = false) :
    d.queCfgWrite q v = d.setQue q { d.queC q with cfg := v &&& 0x03FF81FF, words := [], head := 0 } := by
  simp only [Device.queCfgWrite, hen, wb_queCfg_en, hv, hfit, Bool.false_eq_true, if_true, if_false]

theorem Device.queCfgWrite_of_clash (hen : (d.queC q).en = false) (hv : wb v 15 = true)
    (hclash : d.queClash q (v &&& 0x03FF81FF) = true) :
    d.queCfgWrite q v = (d.setQue q { d.queC q with cfg := setB (v &&& 0x03FF81FF) 15 false }).queFlag q 0x40000 := by
  simp only [Device.queCfgWrite, hen, wb_queCfg_en, hv, hclash, Bool.false_eq_true, if_true, if_false]

theorem Device.queCfgWrite_of_disable (hen : (d.queC q).en = true) (hv : wb v 15 = false) :
    d.queCfgWrite q v = d.setQue q { d.queC q with cfg := setB (d.queC q).cfg 15 false, words := [], head := 0 } := by
  simp only [Device.queCfgWrite, hen, wb_queCfg_en, hv, Bool.false_eq_true, if_true, if_false]

theorem Device.queCfgWrite_of_enabled (hen : (d.queC q).en = true) (hv : wb v 15 = true) : d.queCfgWrite q v = d := by
  simp only [Device.queCfgWrite, hen, wb_queCfg_en, hv, if_true]

theorem Device.queCfgWrite_of_disabled (hen : (d.queC q).en = false) (hv : wb v 15 = false) :
    d.queCfgWrite q v = d.setQue q { d.queC q with cfg := v &&& 0x03FF81FF } := by
  simp only [Device.queCfgWrite, hen, wb_queCfg_en, hv, Bool.false_eq_true, if_false]

end

/-! ### What the commands leave -/

section
variable {s : State} {c : Fin 4} {q : Fin 32} (h : s.dev.reaches (.core c) bQUE = true)
include h

theorem yields_quePush_of_room (v : Word) (hen : (s.dev.queC q).en = true)
    (hroom : (s.dev.queC q).words.length < (s.dev.queC q).cap) : s.yields (.quePush (.core c) q v) (fun d =>
      (d.queC q).words = (s.dev.queC q).words ++ [v] ∧ (d.queC q).overs = (s.dev.queC q).overs ∧
      ∀ j, j ≠ q.val → d.queC j = s.dev.queC j) := by
  obtain ⟨p, b, hpush, hq, hne⟩ := Device.quePush_of_room v hen hroom
  exact ⟨_, exec_quePush_of_reaches q h hpush, by simp [hq], by simp [hq],
    fun j hj => (Device.queC_queFlag_ne _ _ hj).trans (hne j hj)⟩

theorem yields_quePush_of_dropped (v : Word)
    (hdrop : (s.dev.queC q).en = false ∨ (s.dev.queC q).cap ≤ (s.dev.queC q).words.length) :
    s.yields (.quePush (.core c) q v) (fun d =>
      (d.queC q).words = (s.dev.queC q).words ∧ (d.queC q).overs = satInc 16 (s.dev.queC q).overs ∧
      wb (d.queC q).flags 16 = true ∧ ((s.dev.queC q).en = false → wb (d.queC q).flags 20 = true)) := by
  obtain ⟨hover, hoff⟩ := wb_overFlags (!(s.dev.queC q).en)
  exact ⟨_, exec_quePush_of_reaches q h (Device.quePush_of_dropped v hdrop), by simp, by simp,
    Device.wb_flags_queFlag _ _ hover, fun hen => Device.wb_flags_queFlag _ _ (hoff (by rw [hen]; rfl))⟩

theorem yields_quePop_of_nothing (hnone : (s.dev.queC q).en = false ∨ (s.dev.queC q).words = []) :
    s.yields (.quePop (.core c) q) (fun d =>
      (d.queC q).words = (s.dev.queC q).words ∧ (d.queC q).unders = satInc 16 (s.dev.queC q).unders ∧
      wb (d.queC q).flags 17 = true ∧ ((s.dev.queC q).en = false → wb (d.queC q).flags 20 = true) ∧
      d.got (.core c) = (s.dev.lv (aQueEw q), .ok)) := by
  obtain ⟨hunder, hoff⟩ := wb_underFlags (!(s.dev.queC q).en)
  exact ⟨_, exec_quePop_of_reaches q h (Device.popReg_of_nothing hnone) nofun, by simp, by simp,
    Device.wb_flags_queFlag _ _ hunder, fun hen => Device.wb_flags_queFlag _ _ (hoff (by rw [hen]; rfl)),
    Device.got_answer ..⟩

theorem exec_quePeek_of_nothing (hnone : (s.dev.queC q).en = false ∨ (s.dev.queC q).words = []) :
    exec (.quePeek (.core c) q) s = s.gave (.core c) (s.dev.lv (aQueEw q)) id :=
  exec_quePeek_of_reaches q h (Device.peekReg_of_nothing hnone) nofun

variable {w : Word} {l : List Word} (hen : (s.dev.queC q).en = true) (hw : (s.dev.queC q).words = w :: l)
include hen hw

theorem yields_quePop_of_readable (hecc : s.dev.queEcc q ≠ .bad) : s.yields (.quePop (.core c) q) (fun d =>
    (d.queC q).words = l ∧ d.got (.core c) = (w, .ok)) := by
  obtain ⟨p, hpop, hl⟩ := Device.popReg_of_readable (who := .core c) hen hw hecc
  exact ⟨_, exec_quePop_of_reaches q h hpop nofun, hl, Device.got_answer ..⟩

theorem yields_quePop_of_bad (hecc : s.dev.queEcc q = .bad) : s.yields (.quePop (.core c) q) (fun d =>
    (d.queC q).words = l ∧ wb (d.queC q).flags 19 = true ∧ d.got (.core c) = (0, .ecc)) := by
  obtain ⟨p, hpop, hl⟩ := Device.popReg_of_bad (who := .core c) hen hw hecc
  exact ⟨_, exec_quePop_of_reaches q h hpop nofun, by simpa using hl, Device.wb_flags_queFlag _ _ (by decide),
    Device.got_answer ..⟩

theorem exec_quePeek_of_good (hecc : s.dev.queEcc q = .good) :
    exec (.quePeek (.core c) q) s = s.gave (.core c) w id := by
  have hpeek := Device.peekReg_of_readable (who := .core c) hen hw (by simp [hecc])
  rw [Device.queWordCheck_of_good hecc] at hpeek
  exact exec_quePeek_of_reaches q h hpeek nofun

theorem yields_quePeek_of_single (hecc : s.dev.queEcc q = .single) : s.yields (.quePeek (.core c) q) (fun d =>
    d.queC q = s.dev.queC q ∧ d.got (.core c) = (w, .ok) ∧ d.queEcc q = .good) :=
  ⟨_, exec_quePeek_of_reaches q h (Device.peekReg_of_readable hen hw (by simp [hecc])) nofun,
    Device.queC_queWordCheck .., Device.got_answer .., Device.queEcc_queWordCheck hecc⟩

theorem yields_quePeek_of_bad (hecc : s.dev.queEcc q = .bad) : s.yields (.quePeek (.core c) q) (fun d =>
    (d.queC q).words = (s.dev.queC q).words ∧ wb (d.queC q).flags 19 = true ∧ d.got (.core c) = (0, .ecc)) :=
  ⟨_, exec_quePeek_of_reaches q h (Device.peekReg_of_bad hen hw hecc) nofun, by simp,
    Device.wb_flags_queFlag _ _ (by decide), Device.got_answer ..⟩

end

/-- Settles O40: each command of a core that reaches the block is the unit's operation, which goes by EN, by the words held, and
by the ECC of the word at the head. -/
theorem queuesKeepOrder : Obligations.QueuesKeepOrder := by
  intro s c q v w l who k ew h
  refine ⟨yields_quePush_of_room h v, yields_quePush_of_dropped h v,
    fun hen hw hgood => ⟨yields_quePop_of_readable h hen hw (by simp [hgood]), exec_quePeek_of_good h hen hw hgood⟩,
    fun hen hw hsingle =>
      ⟨yields_quePop_of_readable h hen hw (by simp [hsingle]), yields_quePeek_of_single h hen hw hsingle⟩,
    fun hen hw hbad => ⟨yields_quePop_of_bad h hen hw hbad, yields_quePeek_of_bad h hen hw hbad⟩,
    fun hnone => ⟨yields_quePop_of_nothing h hnone, exec_quePeek_of_nothing h hnone⟩, fun hown => ?_⟩
  have hwrote {d : Device} := exec_queueConfig_of_reaches (v := v) (d := d) q h hown
  exact ⟨fun hen hv hfit => hwrote (Device.queCfgWrite_of_enable hen hv hfit),
    fun hen hv hclash => ⟨_, hwrote (Device.queCfgWrite_of_clash hen hv hclash), by simp [Que.en, wb_setB_false],
      Device.wb_flags_queFlag _ _ (by decide)⟩,
    fun hen hv => ⟨_, hwrote (Device.queCfgWrite_of_disable hen hv), by simp [Que.en, wb_setB_false], by simp⟩,
    fun hen hv => hwrote (Device.queCfgWrite_of_enabled hen hv),
    fun hen hv => hwrote (Device.queCfgWrite_of_disabled hen hv)⟩

end Sys2Proof.Machine
end
